-- ==== Sys2Proof/Word.lean ====
section
/-! DEFINITION. The word types of the part: a byte, and the 16, 32 and 64-bit fields of packets,
records and memory structures (R3: bit 0 is the least significant bit of a field). -/

namespace Sys2Proof

/-- One byte of a packet, a record or a memory. -/
abbrev Byte := BitVec 8
/-- A 16-bit field. -/
abbrev U16 := BitVec 16
/-- A 32-bit field: a handle, a sequence number, half of a short stamp. -/
abbrev U32 := BitVec 32
/-- A 64-bit field: a parameter value (R89), a result word. -/
abbrev U64 := BitVec 64

end Sys2Proof
end

