-- ==== Sys2Proof/Syntax.lean ====
section
/-! DEFINITION. The commands of the block: one constructor of `Instr` per row of the opcode table.
A command packet (R66 … R68) is one operand `p : Pkt`; every other row carries what arrives from
outside the die at that step. -/

namespace Sys2Proof

/-- A host port of the lead die (R36, R590, R594): the sender of host-window accesses. -/
inductive HostPort where
  | pcie | qspi
  deriving DecidableEq, Repr

/-- The task block of R102 with the extension units of R103. -/
structure TaskBlock where
  tag : U16
  ctrl : BitVec 8
  deps : BitVec 8
  shape : BitVec 8
  /-- `NEXT`: the extension units that follow. -/
  next : BitVec 8
  evtCode : U16
  /-- `SUCC0` … `SUCC3`, compact references. -/
  succs : List U16
  /-- The handles of the extension units, two per unit. -/
  ext : List U32
  deriving DecidableEq, Repr

/-- The stamp block of R67. -/
structure StampBlock where
  secs : U64
  nanos : U32
  reserved : U32
  deriving DecidableEq, Repr

/-- A command packet (R66 … R68) without its opcode, which the constructor of `Instr` gives, together
with the client, queue and origin it came from (R36, R58, R97). -/
structure Pkt where
  /-- Client index of R96. -/
  client : U16
  /-- Origin at a remote node (R97, R463): 0 the node's die itself, 1 its PCI Express host, 2 its QSPI host. -/
  origin : BitVec 2
  /-- Queue number 0 … 7 (R58). -/
  queue : BitVec 3
  /-- `LEN`, in 8-byte units. -/
  len : BitVec 8
  /-- `FLAGS`: bit 0 `ACK_REQ`, 1 `TASK`, 2 `STAMP`, 3 `FENCE`. -/
  flags : BitVec 8
  seq : U32
  target : U32
  /-- Header bytes 12 … 15, reserved. -/
  reserved : U32
  task : Option TaskBlock
  stamp : Option StampBlock
  body : List Byte
  deriving DecidableEq, Repr

/-- What a read of a command ring in host memory returned (R62, R87): the bytes from the head on, or an error; or that a reply
or index write-back of the queue has met an error before the fetch. -/
inductive RingRead where
  | data (bytes : List Byte)
  | error
  | writeError
  deriving DecidableEq, Repr

/-- One edge at a digital encoder input (R136, R143): input 0 A, 1 B, 2 Z, 3 U, 4 V, 5 W, 6 SSI data. -/
structure InEdge where
  input : Nat
  /-- Pin time, ns of MTIME. -/
  pin : Nat
  level : Bool
  deriving DecidableEq, Repr

/-- What the F-die front end holds of one source at a snapshot (R126): for a sin/cos source the two
converter codes and the index comparator (R130, R151), for a digital source the edges since the last snapshot. -/
structure SrcSnap where
  /-- `TYPE` and `CHAN` of R122. -/
  type : Nat
  chan : Nat
  sin : BitVec 16
  cos : BitVec 16
  index : Bool
  edges : List InEdge
  deriving DecidableEq, Repr

/-- A fabric packet without its type (R462, R463), which the row names: header fields and payload. -/
structure FabPkt where
  dst : Nat
  src : Nat
  /-- `PLEVEL`, `HOPS`, `PFLAGS`. -/
  level : Nat
  hops : Nat
  flags : Nat
  xtag : Nat
  xaux : U32
  payload : List Byte
  deriving DecidableEq, Repr

/-- What both channels of the safety island read in a safety tick (R421, R427): reads of `SAFE_IN0` … `SAFE_IN7`
and of the two safe-link inputs (eight per tick, true = high), the `EDM` levels, the STO wires (`STO0_A`, `STO0_B`,
`STO1_A`, `STO1_B`) and safe-link out wires read back (true = high), coil currents in mA, `SAFE_24V` in mV, the
difference of the oscillators in per cent, an internal rail out of range, a difference between the channels. -/
structure SafeReads where
  ins : List (List Bool)
  edm : List Bool
  wires : List (List Bool)
  brkMa : List Nat
  supplyMv : Nat
  oscDiff : Nat
  railBad : Bool
  channelsDiffer : Bool
  deriving DecidableEq, Repr

/-- The rows of the opcode table. -/
inductive Instr where
  /-- Command that does nothing and answers OK; used as a round-trip probe and as a carrier for FENCE (R95). -/
  | nop (p : Pkt)
  /-- Command that resets this die or the whole package at its tick, after committing the journal (R587). -/
  | sysReset (p : Pkt)
  /-- Command that returns the package serial, die count, stepping, levels, life-cycle state and node (R587). -/
  | sysIdentify (p : Pkt)
  /-- Command that creates an object of a class in a free created slot, with its initial parameters (R90). -/
  | objectCreate (p : Pkt)
  /-- Command that destroys a created object and advances the generation of its slot (R91). -/
  | objectDestroy (p : Pkt)
  /-- Command that moves an object from CREATED or DISABLED to ENABLED (R30). -/
  | objectEnable (p : Pkt)
  /-- Command that moves an ENABLED object to DRAINING toward its clean boundary (R31). -/
  | objectDisable (p : Pkt)
  /-- Command that reads one parameter value in force during its tick (R92). -/
  | paramGet (p : Pkt)
  /-- Command that writes one parameter entry (R93). -/
  | paramSet (p : Pkt)
  /-- Command that writes up to 62 parameters of one object together at one tick, or none (R94). -/
  | paramSetMulti (p : Pkt)
  /-- Command that cancels an undispatched task, optionally with cascade to its successors (R117). -/
  | taskCancel (p : Pkt)
  /-- Command that lowers a task's dependence count by a decrement (R120). -/
  | taskSignal (p : Pkt)
  /-- Task-only command that does nothing when it takes effect and carries modes EVENT and IDLE (R120). -/
  | taskWait (p : Pkt)
  /-- Command that cancels every undispatched task of a client on the die (R120). -/
  | taskCancelAll (p : Pkt)
  /-- The Turnstile dispatches a ready task's command as the Turnstile client once an action slot is free (R112). -/
  | taskDispatch
  /-- A completion for a successor arrives from another node as a command-class packet and lowers its count once (R116). -/
  | taskCompletionReceived (succ : U32) (node token : Nat)
  /-- No acknowledgement of a remote completion within SYSTEM.CMD_TIMEOUT; the completion is given up (R116). -/
  | taskSuccAckTimeout (token : Nat)
  /-- Command that sets the channel state of a feedback channel, returning it to SERVICE only when no fault is present (R147). -/
  | fbkSetState (p : Pkt)
  /-- Command that sets the offset so the published position equals the given value at its tick (R153). -/
  | fbkSetPos (p : Pkt)
  /-- Command that arms a reference to set the offset at the next index crossed in the permitted direction (R153). -/
  | fbkRefIndex (p : Pkt)
  /-- Command that disarms an armed index reference (R160). -/
  | fbkRefCancel (p : Pkt)
  /-- Command that returns the position, fraction and status of the sample of its tick (R160). -/
  | fbkGetSample (p : Pkt)
  /-- Command that plans a time-optimal move to rest at an absolute target (R171). -/
  | moveAbs (p : Pkt)
  /-- Command that moves by a signed distance from the last target or the set-point (R172). -/
  | moveRel (p : Pkt)
  /-- Command that ramps the axis to a signed target velocity (R173). -/
  | moveVel (p : Pkt)
  /-- Command that ends any ramp and holds the velocity reached (R174). -/
  | moveHold (p : Pkt)
  /-- Command that stops an axis or path group along its normal ramp (R182). -/
  | stop (p : Pkt)
  /-- Command that stops an axis or path group along its quick ramp (R182). -/
  | stopQuick (p : Pkt)
  /-- Command that returns the set-point position, epoch and mode of its tick (R200). -/
  | axisGetSample (p : Pkt)
  /-- Command that appends a line segment to a path group (R190). -/
  | pathLine (p : Pkt)
  /-- Command that appends an arc or helix segment to a path group (R191). -/
  | pathArc (p : Pkt)
  /-- Command that discards held path segments that have not begun (R195). -/
  | pathFlush (p : Pkt)
  /-- Command that arms a new gear ratio at a master position, stepped or blended (R236). -/
  | gearRatio (p : Pkt)
  /-- Command that arms a change of cam table at the next cycle boundary (R244). -/
  | gearCamSwitch (p : Pkt)
  /-- Command that shifts the slave phase by a distance spread over master travel (R237). -/
  | gearShift (p : Pkt)
  /-- Command that arms a compare event at a position with repeat interval and count (R247). -/
  | evtArm (p : Pkt)
  /-- Command that disarms a compare event and returns the fires left (R269). -/
  | evtDisarm (p : Pkt)
  /-- Command that rearms a single-mode capture channel (R253). -/
  | captArm (p : Pkt)
  /-- Command that sets the line origin and count of a Calliope output and restarts numbering (R256). -/
  | lclkArm (p : Pkt)
  /-- Command that sets a new position delay and time delay of a Calliope output, stepped or slewed (R259). -/
  | lclkReg (p : Pkt)
  /-- Command that writes part of a loop group's coefficient bank (R286). -/
  | lgrpCoefWrite (p : Pkt)
  /-- Command that exchanges a loop group's active and standby banks at its tick, bumplessly if set (R287). -/
  | lgrpBankSwap (p : Pkt)
  /-- Command that sets a loop group's states or integrators to zero at its tick (R289). -/
  | lgrpResetState (p : Pkt)
  /-- Command that reads and clears the sticky saturation flags of a loop group (R295). -/
  | lgrpTakeFlags (p : Pkt)
  /-- Command that writes part of a host step list of a loop group section (R326). -/
  | lgrpStepWrite (p : Pkt)
  /-- Command that returns two step words of a section's list (R334). -/
  | lgrpStepRead (p : Pkt)
  /-- Command that clears the trace index and trigger and starts recording at its tick (R331). -/
  | traceArm (p : Pkt)
  /-- Command that stops trace recording and returns the records written (R334). -/
  | traceStop (p : Pkt)
  /-- Command that returns 16 bytes of a held trace record (R334). -/
  | traceRead (p : Pkt)
  /-- Command that writes shadow on and off times, optionally the period, and optionally raises LOAD_ALL (R361). -/
  | pwmWrite (p : Pkt)
  /-- Command that raises LOAD_ALL so the shadow set transfers at the next armed boundary (R345). -/
  | pwmLoadAll (p : Pkt)
  /-- Debug command that forces or releases a pattern on PWM pairs (R361). -/
  | pwmForce (p : Pkt)
  /-- Command that sends FAULT_RESET bits for slots in the downlink frame of its tick (R392). -/
  | dlaneStageReset (p : Pkt)
  /-- Command that returns a slot of the last accepted uplink frame (R392). -/
  | dlaneGetUplink (p : Pkt)
  /-- Command that switches the levels of several host-driven outputs at one tick (R416). -/
  | fioWriteMask (p : Pkt)
  /-- Command that clears a latched overload and diagnostic bits whose condition has ended (R408). -/
  | fioReset (p : Pkt)
  /-- Command that returns all published input levels, commanded outputs and diagnostic summary (R416). -/
  | fioReadAll (p : Pkt)
  /-- Command that returns one entry of the safety island's log as rebuilt by the M die (R446). -/
  | safeReadLog (p : Pkt)
  /-- Command that sets the commit level of the whole fabric with a switch time (R475). -/
  | fabricCommit (p : Pkt)
  /-- Command that drops a port's link without disabling it and trains again (R479). -/
  | portRetrain (p : Pkt)
  /-- Command that returns the route entry for a node (R479). -/
  | fabricRouteGet (p : Pkt)
  /-- Command that accepts a refused time step by its ID and steps MTIME (R493). -/
  | timeAcceptStep (p : Pkt)
  /-- Command that sets the grandmaster's seconds at its next whole second (R499). -/
  | timeSet (p : Pkt)
  /-- Command that returns the MTIME of its tick start and the time state (R499). -/
  | timeGet (p : Pkt)
  /-- Command that starts a DMA channel at a first descriptor (R518). -/
  | dmaStart (p : Pkt)
  /-- Command that fetches a waiting descriptor again (R508). -/
  | dmaResume (p : Pkt)
  /-- Command that ends a DMA chain at the end of the burst in progress (R515). -/
  | dmaAbort (p : Pkt)
  /-- Command that submits a CAN frame record to a transmit buffer (R535). -/
  | canTx (p : Pkt)
  /-- Command that cancels a pending transmit buffer (R537). -/
  | canTxCancel (p : Pkt)
  /-- Command that checks and loads a standby filter list and makes it the list in force at its tick (R529). -/
  | canFiltSwitch (p : Pkt)
  /-- Command that returns 16 bytes of a mailbox record, optionally taking it (R534). -/
  | canmbRead (p : Pkt)
  /-- Command that writes part of an Almanac slot and marks it WRITTEN (R554). -/
  | profWrite (p : Pkt)
  /-- Command that checks an Almanac slot and marks it VALID or INVALID (R554). -/
  | profCommit (p : Pkt)
  /-- Command that makes an Almanac slot EMPTY (R572). -/
  | profErase (p : Pkt)
  /-- Command that selects a valid Almanac slot for the next boot only (R553). -/
  | profSelectNext (p : Pkt)
  /-- Command that replies once all earlier journal records are committed (R557). -/
  | journalSync (p : Pkt)
  /-- Command that starts a new journal, empty or with a snapshot, recording the present slot and base (R572). -/
  | journalClear (p : Pkt)
  /-- Command that claims a shared-area granule for host structures (R548). -/
  | memClaim (p : Pkt)
  /-- Command that returns a claimed granule to the allocator (R548). -/
  | memRelease (p : Pkt)
  /-- Command that writes data into claimed SRAM, the QSPI window or a disabled cam table (R572). -/
  | memWrite (p : Pkt)
  /-- Command that returns 16 bytes of the shared area or QSPI window (R572). -/
  | memRead (p : Pkt)
  /-- Command that writes part of the firmware bank not running and marks it UNVERIFIED (R564). -/
  | fwWrite (p : Pkt)
  /-- Command that checks the header, hash, signatures and security version of a bank (R564). -/
  | fwVerify (p : Pkt)
  /-- Command that selects a verified bank for the next reset (R564). -/
  | fwActivate (p : Pkt)
  /-- Command that returns a 16-byte random life-cycle challenge (R568). -/
  | lcChallenge (p : Pkt)
  /-- Command that advances the life-cycle state, wipes MRAM and resets the package (R567). -/
  | lcAdvance (p : Pkt)
  /-- Debug command that requests a halt of a Loop Engine (R598). -/
  | dbgHalt (p : Pkt)
  /-- Debug command that resumes a halted Loop Engine at the next gate (R599). -/
  | dbgResume (p : Pkt)
  /-- Debug command that runs a section for a number of steps and halts again (R599). -/
  | dbgStep (p : Pkt)
  /-- Debug command that reads a register or status of an engine context (R598). -/
  | dbgCtxRead (p : Pkt)
  /-- The halt of an engine takes effect at a step boundary once every result is readable (R330). -/
  | engineHaltTakesEffect (engine : Nat)
  /-- Host write of a queue's command-ring tail doorbell (R62). -/
  | dbCmdTail (client : HostPort) (queue : Nat) (value : U32)
  /-- Host write of a queue's reply-ring head doorbell, freeing reply records (R63). -/
  | dbRplHead (client : HostPort) (queue : Nat) (value : U32)
  /-- Host write of an event-ring head, freeing records and clearing the outstanding mark (R80). -/
  | evrHead (client : HostPort) (ring : Nat) (value : U32)
  /-- Host write of an event-ring size, configuring the ring and setting head and tail to 0 (R593). -/
  | evrSize (client : HostPort) (ring : Nat) (value : U32)
  /-- Host write of the HOST_CTRL bit that enables queue 0 (R592). -/
  | q0En (client : HostPort) (enable : Bool)
  /-- Host write of the HOST_CTRL bit that resets queue 0 head and tail and ends its halt (R592). -/
  | q0Restart (client : HostPort)
  /-- Host write of any host-window register that has no row of its own (R592). -/
  | hostWindowWrite (client : HostPort) (offset : Nat) (bytes : List Byte)
  /-- QSPI write transaction into the host window or ring window (R594). -/
  | qspiWrite (addr : U32) (bytes : List Byte)
  /-- QSPI read transaction from the host window or ring window (R594). -/
  | qspiRead (addr : U32) (len : Nat)
  /-- QSPI status instruction returning READY, IRQ and ERR, which it clears (R594). -/
  | qspiStatus
  /-- The lead die fetches a whole packet from a queue once it lies between head and tail and reply records are free, then checks, executes or forwards it (R62). -/
  | packetFetch (client : HostPort) (queue : Nat) (ring : RingRead)
  /-- A packet held for want of an action slot is checked again and accepted when a slot frees (R85). -/
  | heldPacketAccept
  /-- A pending stamped command reaches its tick and takes effect (R49). -/
  | stampReached
  /-- No reply to a forwarded command within SYSTEM.CMD_TIMEOUT; a TIMEOUT reply is written (R86). -/
  | cmdTimeoutExpiry (pid : Nat)
  /-- A draining object reaches its clean boundary and enters DISABLED (R31). -/
  | cleanBoundaryReached (slot : Nat)
  /-- A sample tick begins: stream records, commands that take effect and per-object tick work are applied (R42). -/
  | sampleTick
  /-- An SS1 request wire change is seen at a class 0 tick and selected axes stop on the quick ramp (R184). -/
  | ss1WireChangeSeen
  /-- At 1 µs after a group tick, inputs are latched and the loop group's sections run and hand outputs on (R282). -/
  | loopGate (slot : Nat)
  /-- A following-error counter reaches FE_TIME and the group faults (R290). -/
  | feTimeReached (slot axis : Nat)
  /-- All axes have been at rest for LGRP.SETTLE ticks; standstill applied and group disabled (R291). -/
  | settleReached (slot : Nat)
  /-- The F-die front end snapshots every source at each 500 ns multiple and the Vernier counts and checks it (R126). -/
  | fbkSnapshot (t : Nat) (srcs : List SrcSnap)
  /-- The amplitude has lain outside or inside the window for FBK.AMP_FILT conversions (R134). -/
  | ampFiltCount (slot : Nat)
  /-- An index is crossed; it is checked against the previous one and may complete a reference (R151). -/
  | indexCrossing (slot : Nat)
  /-- The Vernier starts an SSI frame read ahead of its tick (R138). -/
  | ssiReadStart (slot : Nat) (dataHigh : Bool)
  /-- An SSI frame has been read and is decoded, unwrapped or rejected (R139). -/
  | ssiReadComplete (slot : Nat) (frame : BitVec 48)
  /-- No count change for FBK.SPEED_TIMEOUT; the speed is forced to zero (R157). -/
  | speedTimeoutExpiry (slot : Nat)
  /-- The pair link to the F die goes down while the M die runs (R148). -/
  | pairLinkLoss
  /-- A STREAM packet of sample and retraction records arrives and is held for the next class 0 tick (R217). -/
  | streamPacket (port : Nat) (p : FabPkt)
  /-- More than AXIS.PRED_LIMIT samples committed from prediction; the derived axis faults (R224). -/
  | predLimitReached (slot : Nat)
  /-- A Calliope output has placed edges from prediction for LCLK.PRED_LIMIT ticks and faults (R261). -/
  | lclkPredLimit (slot : Nat)
  /-- A bind or unbind request arrives and the master adds or removes a stream receiver (R231). -/
  | bindPacket (port : Nat) (p : FabPkt)
  /-- A compare event's edge leaves its ball at its pin time and the next position is armed (R248). -/
  | evtFire (slot : Nat)
  /-- A capture input edge records source positions at its pin time (R253). -/
  | capInEdge (ball pin : Nat) (rising : Bool) (width : Nat)
  /-- A Calliope line-clock edge is emitted at its pin time (R257). -/
  | lclkEdge (slot : Nat)
  /-- A carrier boundary arrives; an armed shadow set transfers to the active set (R344). -/
  | pwmBoundary (slot : Nat)
  /-- A PWM trigger fires on its selected carrier event and divider (R348). -/
  | pwmTriggerFire (slot trig : Nat)
  /-- A selected fault input stays low past its filter and pairs take the safe pattern (R349). -/
  | pwmFaultInputLow (input clocks : Nat)
  /-- Every selected fault input returns high; cycle-by-cycle release follows at the next boundary (R350). -/
  | pwmFaultInputHigh (input : Nat)
  /-- A sinc3 result is formed, free-running or at a trigger (R356). -/
  | sdinResult (input : Nat) (bits : List Bool)
  /-- A drive lane has received 64 valid IDLE sets and enters SYNC (R366). -/
  | laneTrained (lane : Nat)
  /-- An uplink frame is received and accepted or rejected; delay measured (R377). -/
  | uplinkFrame (lane : Nat) (code : Bool) (sofNs eofNs : Nat) (bytes : List Byte)
  /-- A lane has not reached UP within DLANE.TRAIN_TIMEOUT and faults (R366). -/
  | dlaneTrainTimeout (lane : Nat)
  /-- A slot has been stale for DLANE.STALE_LIMIT ticks and is reported stale (R379). -/
  | staleLimitReached (lane : Nat)
  /-- No uplink accepted for DLANE.LOSS_LIMIT ticks; the lane faults (R379). -/
  | lossLimitReached (lane : Nat)
  /-- A microstep axis has been at rest for HOLD_DELAY frames and takes its hold amplitude (R385). -/
  | holdDelayReached (lane axisSlot : Nat)
  /-- A field channel's sample instant classifies the input or readback (R396). -/
  | fioSample (chan t : Nat) (mv : Int) (ua ma : Nat)
  /-- Agreeing samples have held for FIO.FILTER and the new level is taken (R397). -/
  | fioFilterExpiry (chan : Nat)
  /-- Once per second an on output is switched off for 300 µs and read back (R404). -/
  | fioOffTestPulse (chan : Nat)
  /-- An output in current limit shuts down thermally (R405). -/
  | fioThermalShutdown (chan : Nat)
  /-- The retry interval expires and the switch turns on again (R405). -/
  | fioRetryExpiry (chan : Nat)
  /-- Total output current exceeds 4 A for 5 ms; outputs are switched off (R406). -/
  | fioTotalCurrentLimit (mas : List Nat)
  /-- FIELD_24V falls below its undervoltage threshold (R409). -/
  | fieldUndervoltage (mv : Nat)
  /-- FIELD_24V rises 1 V above the threshold (R409). -/
  | fieldSupplyRestored (mv : Nat)
  /-- The F-die regulator restarts and the M die reloads channel settings (R409). -/
  | fieldRegulatorRestart
  /-- The F die deems the logic side silent and holds or falls back (R410). -/
  | logicSideSilent
  /-- A held output reaches FIO.HOLD_TIMEOUT and takes its fallback (R410). -/
  | fioHoldTimeout (chan : Nat)
  /-- The logic side returns and held outputs keep their levels (R411). -/
  | logicSideReturn
  /-- The safety island evaluates inputs, demands, functions and cross-compare each 0.5 ms tick (R427). -/
  | safetyTick (reads : SafeReads)
  /-- A test-pulse supply drops for 250 µs and contact inputs are judged (R428). -/
  | safeTestPulse (supplyB : Bool) (low : List Bool)
  /-- A pair's discrepancy counter reaches N and the pair faults (R430). -/
  | discrepancy (pair : Nat)
  /-- The SS1 time of a function elapses and STO follows (R432). -/
  | ss1TimeElapsed (fn : Nat)
  /-- A valid manual reset edge restarts ready functions (R433). -/
  | safeResetFall (us : Nat)
  /-- SAFE_RESET high for more than 3 s; ignored and logged (R433). -/
  | resetStuck
  /-- An STO or safe-link wire is switched off for 300 µs and read back (R435). -/
  | stoTestPulse (high : List Bool)
  /-- Every 2 s each switch of an energised brake is tested alone for 400 µs (R436). -/
  | sbcSwitchTest (fn : Nat) (passed : Bool)
  /-- A BRK_PASS pulse records a holding-torque test pass or BRK_PASS_INVALID (R437). -/
  | brkPassPulse (fn ms : Nat)
  /-- The holding-torque test interval elapses without a pass (R437). -/
  | brakeTestInterval (fn : Nat)
  /-- An EDM has not changed within the EDM time after its output switched (R438). -/
  | edmTimeExpiry (edm : Nat)
  /-- Every 64 safety ticks both channels reread the configuration balls (R426). -/
  | configReread (ohmsA ohmsB : List Nat)
  /-- SAFE_24V below 17 V for 2 ticks; outputs off and functions to STO (R441). -/
  | supplyLow
  /-- Power-on of SAFE_24V: the island reads its configuration and self-tests within 250 ms (R442). -/
  | safePowerOn (mv : Nat)
  /-- The M die takes a safety status frame into account at a class 0 tick (R444). -/
  | safeStatusFrame
  /-- No status frame for 8 ms; SAFE.STATE reads UNKNOWN (R444). -/
  | safeStatusTimeout
  /-- A TRAIN control block is received, carrying readiness, withdrawal, preset and credits (R451). -/
  | trainBlock (port valid : Nat) (eqOk : Bool) (bytes : List Byte)
  /-- A lane has not reached UP within PORT.TRAIN_TIMEOUT (R452). -/
  | portTrainTimeout (port : Nat)
  /-- Every 100 ms an untrained enabled lane starts training again (R452). -/
  | portRetrainTimer (port : Nat)
  /-- 16 consecutive invalid sync headers; the port leaves UP and re-routes (R457). -/
  | blockLockLost (port : Nat)
  /-- One frame sent 8 times without ACK; the port leaves UP (R457). -/
  | replayLimit (port : Nat)
  /-- A link frame is received and checked for CRC and sequence (R455). -/
  | linkFrame (port lseq cls : Nat) (crcOk : Bool) (bytes hostData : List Byte)
  /-- An ACK frees acknowledged frames from the replay buffer (R455). -/
  | ackBlock (port lseq : Nat)
  /-- A NAK causes every frame from the named sequence to be sent again (R455). -/
  | nakBlock (port lseq : Nat)
  /-- A CREDIT block returns receive credits for traffic classes (R456). -/
  | creditBlock (port classA unitsA classB unitsB : Nat)
  /-- The receiver sends an ACK at least every 1 µs (R455). -/
  | ackTimer (port : Nat)
  /-- A 10 µs bulk round starts and client bulk budgets renew (R460). -/
  | bulkRound
  /-- A CMD fabric packet arrives and is checked and accepted for its remote client (R464). -/
  | cmdPacket (port : Nat) (p : FabPkt)
  /-- A REPLY fabric packet arrives and its records are written to the origin's reply ring (R464). -/
  | replyPacket (port : Nat) (p : FabPkt)
  /-- An EVENT fabric packet arrives and its records are written to the named ring or dropped (R81). -/
  | eventPacket (port : Nat) (p : FabPkt)
  /-- An E2E_CREDIT packet returns command window places (R461). -/
  | e2eCreditPacket (port : Nat) (p : FabPkt)
  /-- A DISC packet updates the election candidate and heartbeat (R467). -/
  | discPacket (port : Nat) (p : FabPkt)
  /-- Every 100 µs a die sends DISC and its own candidate raises its heartbeat (R467). -/
  | discTimer
  /-- No new heartbeat of the candidate for 1 ms; the die takes its own key (R467). -/
  | candidateStale
  /-- A die has held one candidate for DISC_SETTLE and sends its TOPO report (R468). -/
  | discSettleExpiry
  /-- A TOPO report reaches the candidate, which may become root and assign bases and routes (R468). -/
  | topoPacket (port : Nat) (p : FabPkt)
  /-- A ROUTE segment arrives and updates the die's route table (R468). -/
  | routePacket (port : Nat) (p : FabPkt)
  /-- No lane UP within TRAIN_TIMEOUT plus DISC_SETTLE after boot; the package forms its own fabric (R471). -/
  | ownFabricTimeout
  /-- A LEVEL packet sets the switch time for a new commit level (R475). -/
  | levelPacket (port : Nat) (p : FabPkt)
  /-- The switch time arrives and the node applies the new commit level (R475). -/
  | levelSwitchTime
  /-- A BULK_WRITE packet writes data to an allowed address and may be acknowledged (R504). -/
  | bulkWritePacket (port : Nat) (p : FabPkt)
  /-- A BULK_ACK acknowledges a remote write for a DMA fence (R510). -/
  | bulkAckPacket (port : Nat) (p : FabPkt)
  /-- A BULK_READ packet requests data from an allowed address (R504). -/
  | bulkReadPacket (port : Nat) (p : FabPkt) (hostData : List Byte)
  /-- A BULK_DATA packet returns read data to a DMA channel (R463). -/
  | bulkDataPacket (port : Nat) (p : FabPkt)
  /-- A SYNC time message is accepted, its offset computed and forwarded (R487). -/
  | syncMessage (port arrival : Nat) (bytes : List Byte)
  /-- An ANNOUNCE message updates the grandmaster candidate (R483). -/
  | announceMessage (port arrival : Nat) (bytes : List Byte)
  /-- A PDELAY_REQ is answered with a PDELAY_RESP carrying the turnaround (R488). -/
  | pdelayReqMessage (port arrival : Nat)
  /-- A PDELAY_RESP yields a link delay sample (R488). -/
  | pdelayRespMessage (port arrival : Nat) (bytes : List Byte)
  /-- The grandmaster sends SYNC on every UP port each sync interval (R486). -/
  | syncIntervalTimer
  /-- Each PDELAY_INTERVAL a lane sends PDELAY_REQ (R488). -/
  | pdelayTimer
  /-- Every 1 ms ANNOUNCE is sent on every UP port (R483). -/
  | announceTimer
  /-- No new grandmaster heartbeat for 4 ms; the candidate is dropped (R483). -/
  | gmCandidateStale
  /-- No accepted SYNC for SYNC_LOSS intervals; the die enters HOLDOVER (R490). -/
  | syncLossTimeout
  /-- A PPS_IN rising edge is timestamped and may discipline the grandmaster (R495). -/
  | ppsInEdge (pin : Nat)
  /-- No PPS_IN edge for 2 s; a disciplined grandmaster reads LOCKING (R490). -/
  | ppsSilence
  /-- A pulse request adds one to a channel's pending count (R512). -/
  | dmaRequestPulse (slot : Nat)
  /-- A descriptor fetch completes; it is run, waits or is a descriptor error (R508). -/
  | descFetchComplete (slot : Nat) (hostData : List Byte)
  /-- A descriptor's last write leaves the engine or is acknowledged; write-back and next fetch follow (R510). -/
  | descComplete (slot : Nat)
  /-- A DMA access has no answer within DMAC.BUS_TIMEOUT; bus error (R513). -/
  | dmaBusTimeout (slot : Nat)
  /-- A CAN frame is accepted and filtered to a FIFO, mailbox or rejection (R527). -/
  | canFrameReceived (ctrl cid dlc : Nat) (data : List Byte) (sof tec rxc : Nat)
  /-- A pending frame is sent successfully (R536). -/
  | canTxComplete (ctrl sof : Nat) (tdc : Option Nat) (tec rxc : Nat)
  /-- A frame loses arbitration or meets an error; it is retried or ended (R536). -/
  | canTxAttemptFailed (ctrl sof lec tec rxc : Nat)
  /-- TEC exceeds 255; the controller goes bus off (R525). -/
  | canBusOff (ctrl lec : Nat)
  /-- 128 occurrences of 11 recessive bits end bus off (R525). -/
  | canBusoffRecovery (ctrl : Nat)
  /-- 11 consecutive recessive bits end the integrating state (R524). -/
  | canIntegrationDone (ctrl : Nat)
  /-- A DMA record read from the receive window removes the oldest FIFO record (R531). -/
  | canWindowRead (window : Nat)
  /-- A DMA record written to the transmit window is submitted as CAN_TX would (R531). -/
  | canWindowWrite (window : Nat) (bytes : List Byte)
  /-- A read or the scrubber finds a corrected or uncorrectable memory error (R545). -/
  | memoryErrorDetected (mem addr : Nat) (uncorrectable reader : Bool) (slot area : Nat)
  /-- The active journal half is full and is compacted into the other half (R558). -/
  | journalCompaction
  /-- A life-cycle challenge expires after 60 s (R568). -/
  | challengeExpiry
  /-- The life-cycle wipe completes, the new state is written and the package resets (R568). -/
  | lifecycleWipeComplete
  /-- RESET_N low for at least 1 µs resets the package (R577). -/
  | resetNLow
  /-- The rising edge of RESET_N starts boot (R583). -/
  | resetNRise
  /-- A logic supply falls below its threshold and every die enters reset (R576). -/
  | supplyDip (rail : Nat)
  /-- Every supply has risen above its rising threshold for 1 ms; the dies leave reset (R576). -/
  | supplyRestored
  /-- A PLL loses lock and its die enters internal reset (R21). -/
  | pllUnlock (die : Nat)
  /-- A Ringmaster core has not served its watchdog for 100 ms; the die resets (R578). -/
  | watchdog (die : Nat)
  /-- A boot stage completes and the next begins (R583). -/
  | bootStageComplete (die profPins cause us : Nat)
  /-- Boot has not reached stage 5 within 5 s; a failed boot and reset (R565). -/
  | bootTimeout
  /-- The lead die opens its host queues when every die is ready or 5 s have passed (R584). -/
  | hostQueuesOpen (us : Nat)
  /-- PCIE_PERST_N low resets the PCI Express host-window registers and halts its queues (R591). -/
  | pciePerstLow
  /-- A link-down event resets the PCI Express client state (R591). -/
  | pcieLinkDown
  /-- A function-level reset resets the PCI Express client state (R591). -/
  | pcieFlr
  /-- The data link layer reports DL_Up while PCIE_PERST_N is high (R624). -/
  | pcieLinkUp
  /-- TAP instruction selecting the IDCODE register (R596). -/
  | idcode
  /-- TAP instruction selecting the bypass register (R596). -/
  | bypass
  /-- TAP instruction sampling or preloading the boundary register (R596). -/
  | samplePreload (boundary : List Bool)
  /-- TAP instruction driving balls from the boundary register, dies held in reset (R597). -/
  | extest
  /-- TAP instruction clamping outputs, dies held in reset (R597). -/
  | clamp
  /-- TAP instruction placing outputs in high impedance, dies held in reset (R597). -/
  | highz
  /-- A compare pulse, field output pulse or line-clock pulse ends after its width and its output returns to the inactive level (R251). -/
  | pulseEnd (slot : Nat)
  /-- A DMA burst completes; channels re-arbitrate, a pending DMA_ABORT ends the chain and the next request is taken (R502). -/
  | dmaBurstEnd (slot : Nat) (hostData : List Byte)
  /-- An error answer from PCI Express or a remote die arrives for a DMA access and the channel faults with a bus error (R513). -/
  | errorAnswer (slot : Nat)
  /-- A bus error detected while receiving raises REC and may move the controller to error passive or across the warning level (R524). -/
  | canErrorDetected (ctrl lec tec rxc : Nat)
  /-- The successor's die acknowledges a remote completion and the predecessor's die stops holding and timing it (R116). -/
  | taskCompletionAck (token : Nat)
  /-- A cascaded cancellation for a successor task arrives from another node and cancels that task with its own successors (R114). -/
  | successorCancelReceived (succ : U32) (node token : Nat)
  /-- The journal records of a command finish being written to MRAM, up to 100 µs after it took effect, and a waiting JOURNAL_SYNC replies (R557). -/
  | journalRecordsCommitted
  /-- Journal compaction finishes writing the snapshot and the new header, and the other half becomes active (R558). -/
  | compactionComplete
  /-- FIELD_24V falls so far that the F-die regulator stops, every output switches off and channel settings are lost (R409). -/
  | fieldRegulatorStop
  /-- SAFE_24V falls below about 12 V and the safety island stops with every output off, losing all its state (R441). -/
  | islandStop
  /-- The island finishes its start-up tests within 250 ms and enters OPERATE, or FAULT on a class 3 fault (R442). -/
  | islandStartComplete (ohmsA ohmsB : List Nat) (test : Nat)
  /-- The pair link between an M die and its F die comes up again while the M die runs, so sources and field channels can be enabled again (R148). -/
  | pairLinkRestored
  /-- An on-package port completes its fixed deskew within 20 µs and enters UP (R451). -/
  | deskewComplete (port : Nat)
  deriving DecidableEq, Repr

end Sys2Proof
end

