-- ==== Sys2Proof/Decode.lean ====
section
/-! DEFINITION. The command a word of the opcode table spells. The table gives no row any bits. -/

namespace Sys2Proof

/-- The command that a word spells by the table's bits: none, since no row has any. A packet's own layout is decoded by
`Machine.pktDecode` (R66 … R68), a fabric packet's by `Machine.parsePacket` (R462). -/
def decodeTableWord (_nbits _w : Nat) : Option Instr := none

end Sys2Proof
end

