-- ==== Sys2Proof/Machine/ObjTypes.lean ====
section
/-! DEFINITION. The types every chapter shares: object classes and life states (R23, R30), status
codes (R71), device time (R41), event and reply records (R73, R77), and what leaves the die. -/

namespace Sys2Proof.Machine

open Sys2Proof

/-- The object classes of R23, codes 1 … 25 in order; code 0 (NONE) and 26 … 31 name no class. -/
inductive Class where
  | system | axis | fbk | path | gear | cam | evt | capt | lclk | lgrp | trace | pwmg | dlane
  | sdin | fio | safe | port | time | dmac | canc | canmb | task | queue | prof | probe
  deriving DecidableEq, Repr

/-- The life states of R30 that an existing object can have; DESTROYED is the free slot.
The codes are those of `OBJECT.STATE` (R97). -/
inductive Life where
  | created | enabled | draining | disabled
  deriving DecidableEq, Repr

/-- The status codes of R71. -/
inductive Status where
  | ok | okLate | queued
  | badOpcode | badLength | badHandle | staleHandle | wrongClass | badParam | outOfRange
  | wrongState | infeasible | noResource | overQuota | locked | denied | levelUnsupported
  | busy | unreachable | faulted | cancelled | timeout
  deriving DecidableEq, Repr

/-- Device time MTIME (R41, glossary): whole nanoseconds since second 0, and the 16-bit fraction
of a nanosecond. The seconds of the manual are `ns / 10^9`. -/
structure MTime where
  /-- Seconds times 10⁹ plus nanoseconds. -/
  ns : Nat
  /-- Fraction of a nanosecond, 16 bits. -/
  frac : BitVec 16
  deriving DecidableEq, Repr

/-- The two result words of a reply (R73). -/
structure Result where
  r0 : U64
  r1 : U64
  deriving DecidableEq, Repr

/-- Where the replies of a packet go: the client and queue that issued it, the origin code a remote
node gave (R97, R463), its `SEQ` and `OPCODE`, its `ACK_REQ`, and for a packet fetched here the
number under which its reservations are kept (R64). -/
structure ReplyTo where
  client : U16
  origin : Nat
  queue : Nat
  seq : U32
  opcode : U16
  ackReq : Bool
  pid : Option Nat
  deriving DecidableEq, Repr

/-- An event the die's blocks have posted, before routing (R77, R78, R81). `ring` names a client and
ring that the event goes to whatever `OBJECT.EVT_ROUTE` holds (R100, R121). -/
structure EvRec where
  src : U32
  code : Nat
  fault : Bool
  cleared : Bool
  pinTime : Bool
  /-- Time of the stamp in ns: the start of the tick at which it arose, or its pin time (R50). -/
  ns : Nat
  data : List Byte
  ring : Option (U16 × Nat)
  deriving DecidableEq, Repr

end Sys2Proof.Machine
end

