-- ==== Sys2Proof/Machine/OpTypes.lean ====
section
/-! DEFINITION. The opcodes of command packets (R69, R88 and the opcode tables of the chapters). -/

namespace Sys2Proof.Machine

/-- One constructor per opcode. -/
inductive Op where
  | nop
  | objectCreate
  | objectDestroy
  | objectEnable
  | objectDisable
  | paramGet
  | paramSet
  | paramSetMulti
  | taskCancel
  | taskSignal
  | taskWait
  | taskCancelAll
  | fbkSetState
  | fbkSetPos
  | fbkRefIndex
  | fbkRefCancel
  | fbkGetSample
  | moveAbs
  | moveRel
  | moveVel
  | moveHold
  | stop
  | stopQuick
  | axisGetSample
  | pathLine
  | pathArc
  | pathFlush
  | gearRatio
  | gearCamSwitch
  | gearShift
  | evtArm
  | evtDisarm
  | captArm
  | lclkArm
  | lclkReg
  | lgrpCoefWrite
  | lgrpBankSwap
  | lgrpResetState
  | lgrpTakeFlags
  | lgrpStepWrite
  | lgrpStepRead
  | traceArm
  | traceStop
  | traceRead
  | pwmWrite
  | pwmLoadAll
  | pwmForce
  | dlaneStageReset
  | dlaneGetUplink
  | fioWriteMask
  | fioReset
  | fioReadAll
  | safeReadLog
  | fabricCommit
  | portRetrain
  | fabricRouteGet
  | timeAcceptStep
  | timeSet
  | timeGet
  | dmaStart
  | dmaResume
  | dmaAbort
  | canTx
  | canTxCancel
  | canFiltSwitch
  | canmbRead
  | profWrite
  | profCommit
  | profErase
  | profSelectNext
  | journalSync
  | journalClear
  | memClaim
  | memRelease
  | memWrite
  | memRead
  | fwWrite
  | fwVerify
  | fwActivate
  | lcChallenge
  | lcAdvance
  | sysReset
  | sysIdentify
  | dbgHalt
  | dbgResume
  | dbgStep
  | dbgCtxRead
  deriving DecidableEq, Repr

end Sys2Proof.Machine
end

