-- ==== Sys2Proof/Machine/RmTypes.lean ====
section
/-! DEFINITION. State of the Ringmaster, the Turnstile and the host windows
(chapters 03, 04 and 21): queues, rings, accepted commands, tasks. -/

namespace Sys2Proof.Machine

open Sys2Proof

/-- An accepted command that has not taken effect: one action slot (R53, R85). -/
structure Action where
  op : Op
  pkt : Pkt
  rt : ReplyTo
  /-- The client whose action slots it is charged to (R36, R85). -/
  charge : U16
  /-- MTIME of its acceptance (R46), and start of the tick at which it takes effect (R48, R49), ns. -/
  accepted : Nat
  effect : Nat
  /-- Its place in the order of acceptance (R32, R52). -/
  seq : Nat
  /-- The command carried a stamp (R53). -/
  stamped : Bool
  /-- The slot of the task it was dispatched for (R112). -/
  task : Option Nat
  /-- The created slot set aside for an `OBJECT_CREATE` (R90). -/
  newSlot : Option Nat
  /-- Its reply is written when its tick has begun (R74). -/
  late : Bool
  /-- Status of that reply. -/
  okLate : Bool
  /-- A `MOVE_REL` whose base is the target of an earlier one, not known at its acceptance (R172). -/
  chained : Bool
  deriving DecidableEq, Repr

/-- Where a task stands (R110, R112). -/
inductive TaskState where
  | waiting
  /-- Ready, with its place in the order in which tasks became ready (R111). -/
  | ready (order : Nat)
  /-- Dispatched; the tick at which its command takes or took effect, and the status it earned (R112, R113). -/
  | dispatched (effect status : Nat)
  deriving DecidableEq, Repr

/-- A Turnstile task (R102 … R106). -/
structure TaskRec where
  op : Op
  pkt : Pkt
  rt : ReplyTo
  /-- Dependence count (R110). -/
  deps : Nat
  /-- Successor handles in index order: `SUCC` entries, then the extension (R103). -/
  succs : List U32
  st : TaskState
  /-- Its place in the order of intake (R111). -/
  intake : Nat
  /-- A command that cancels it has been accepted: it is not dispatched any more (R117, R118). -/
  doomed : Bool
  deriving DecidableEq, Repr

/-- A completion or cancellation held for a successor on another node until it is acknowledged (R114, R116). -/
structure RemoteDone where
  token : Nat
  /-- Handle and `TAG` of the predecessor, and the submitting client. -/
  pred : U32
  tag : U16
  client : U16
  /-- Ring of the submitting client, with its origin (R121). -/
  ring : Nat
  succ : U32
  /-- A cancellation rather than a completion. -/
  cancel : Bool
  /-- Local time in ns at which it is given up: `SYSTEM.CMD_TIMEOUT` after the completion. -/
  deadline : Nat
  /-- The packet has been sent on a route that has not been lost since. -/
  sent : Bool
  deriving DecidableEq, Repr

/-- A fetched packet whose reservations are not both released (R64, R83, R86). -/
structure Flight where
  pid : Nat
  seq : U32
  opcode : U16
  /-- Acceptance or refusal on the owning die is known here (R83). -/
  settled : Bool
  /-- The reservation released at refusal, effect or end is still held. -/
  res1 : Bool
  /-- The reservation released with the last reply is still held. -/
  res2 : Bool
  /-- Forwarded: the node, and the local time at which it times out (R86). -/
  fwd : Option (Nat × Nat)
  /-- `ACK_REQ`; of a forwarded command, the tick its reply named, at which it has taken effect (R64, R75). -/
  ack : Bool
  due : Option Nat
  /-- Of a forwarded command that became a task there: its handle (R106, R119). -/
  task : U32
  deriving DecidableEq, Repr

/-- Does it hold anything: a reservation, or the queue's fence? -/
def Flight.holds (f : Flight) : Bool := f.res1 || f.res2 || !f.settled
/-- Is it kept: what it holds is not all released, or a `CANCELLED` of its die may be on its way (R76)? -/
def Flight.stays (f : Flight) : Bool := f.holds || f.due.isSome

/-- One command queue with its reply ring (R58 … R64, R87). -/
structure QueueRt where
  /-- Command-ring head and tail, 8-byte units. -/
  head : Nat
  tail : Nat
  /-- Reply-ring head and tail, records. -/
  rplHead : Nat
  rplTail : Nat
  /-- Packets fetched since the last enable (R98). -/
  fetched : U32
  halted : Bool
  /-- The packet at the head is known to lie only partly between head and tail (R62), or to wait for earlier packets by its `FENCE` (R83). -/
  partly : Bool
  behind : Bool
  flights : List Flight
  /-- The reply ring's message is outstanding (R80). -/
  msgOut : Bool
  deriving DecidableEq, Repr

/-- One event ring (R79, R593). -/
structure EvRing where
  base : U64
  size : Nat
  head : Nat
  tail : Nat
  idxAddr : U64
  /-- Lost count. -/
  lost : U32
  /-- A record was dropped since the last record written (R78). -/
  lostPending : Bool
  /-- The ring's message is outstanding (R80). -/
  msgOut : Bool
  /-- `VEC_EVRr`. -/
  vec : U32
  deriving DecidableEq, Repr

/-- The host window registers of one host port (R592). -/
structure HostRegs where
  q0En : Bool
  cmdBase : U64
  cmdSize : Nat
  rplBase : U64
  rplSize : Nat
  idxAddr : U64
  evr : List EvRing
  vecRpl : List U32
  /-- MSI-X table, 512 bytes, and the pending bits. -/
  msixTable : List Byte
  pba : U32
  /-- QSPI only: `ERR` of the status byte (R594). -/
  err : Bool
  deriving DecidableEq, Repr

/-- A packet that passed its checks and waits for an action slot or a task slot (R85, R109). -/
structure Held where
  op : Op
  pkt : Pkt
  rt : ReplyTo
  /-- It still stands at the head of its command ring; 1 by `PACKET_FETCH`, 2 as a row that stands for no bytes of the ring (log 40); 0: it has been taken. -/
  ring : Nat
  deriving DecidableEq, Repr

/-- The Ringmaster and the Turnstile of one M die. -/
structure Ringmaster where
  /-- Queues by key: 8 × port + queue number. -/
  queues : List (Nat × QueueRt)
  /-- Key of the queue last fetched from (R84). -/
  rrLast : Nat
  /-- Accepted commands in order of acceptance. -/
  actions : List Action
  nextSeq : Nat
  nextPid : Nat
  held : List Held
  /-- Order given to the next task that becomes ready; intake number of the task that stands first for want of an action slot (R112). -/
  nextReady : Nat
  stalled : Option Nat
  /-- Ends of dispatched tasks' commands not yet seen by the Turnstile: (task slot, cause of R121 or 0 for its effect, status). -/
  ended : List (Nat × Nat × Nat)
  remote : List RemoteDone
  nextToken : Nat
  /-- `JOURNAL_SYNC` commands waiting: what to reply to, last record to be committed, stamp (R557). -/
  syncs : List (ReplyTo × Nat × Nat)
  /-- Completions and cancellations taken from other nodes, by node and token (R116). -/
  taken : List (Nat × Nat)
  pcie : HostRegs
  qspi : HostRegs
  /-- `PCIE_PERST_N` high, and DL_Up (R624). -/
  perstN : Bool
  dlUp : Bool
  deriving DecidableEq, Repr

end Sys2Proof.Machine
end

