-- ==== Sys2Proof/Machine/Flags.lean ====
section
/-! DEFINITION. Flag bits: `FLAGS` of a command packet (R66) and of an event record (R78). -/

namespace Sys2Proof.Machine

open Sys2Proof

/-- `ACK_REQ`: a reply record is written for an OK status too (R75). -/
def ackFlag (p : Pkt) : Bool := p.flags.getLsbD 0

/-- `TASK`: a task block follows the header (R102). -/
def taskFlag (p : Pkt) : Bool := p.flags.getLsbD 1

/-- `STAMP`: a stamp block follows (R67). -/
def stampFlag (p : Pkt) : Bool := p.flags.getLsbD 2

/-- `FENCE`: the packet waits for the acceptance of all before it on its queue (R83). -/
def fenceFlag (p : Pkt) : Bool := p.flags.getLsbD 3

/-- The flags of an event record (R78): bit 1 `PIN_TIME`, bit 2 `FAULT`, bit 3 `CLEARED`. -/
def eventFlags (e : EvRec) : Nat := (if e.pinTime then 2 else 0) + (if e.fault then 4 else 0) + (if e.cleared then 8 else 0)

end Sys2Proof.Machine
end

