-- ==== Sys2Proof/Machine/Arith.lean ====
section
/-! DEFINITION. Integer helpers of the datapaths: little-endian fields (R3), sign extension (R89),
rounding and saturation, and association lists in one canonical form (keys strictly rising). -/

namespace Sys2Proof.Machine

open Sys2Proof

/-- The byte at an offset, 0 beyond the end. -/
def byteAt (b : List Byte) (i : Nat) : Byte := b.getD i 0

/-- Little-endian value of a byte list (R3). -/
def leNat : List Byte → Nat
  | [] => 0
  | x :: xs => x.toNat + 256 * leNat xs

/-- Little-endian unsigned field of n bytes at an offset. -/
def rdU (b : List Byte) (off n : Nat) : Nat := leNat ((b.drop off).take n)

/-- The two's-complement reading of the low `bits` bits of a number. -/
def asSigned (bits v : Nat) : Int :=
  let u := v % 2 ^ bits
  if u < 2 ^ (bits - 1) then (u : Int) else (u : Int) - 2 ^ bits

/-- Little-endian signed field of n bytes at an offset. -/
def rdI (b : List Byte) (off n : Nat) : Int := asSigned (8 * n) (rdU b off n)

/-- The n low bytes of a number, little-endian. -/
def leBytes : Nat → Nat → List Byte
  | 0, _ => []
  | n + 1, v => BitVec.ofNat 8 v :: leBytes n (v / 256)

/-- The n low bytes of an integer's two's-complement image. -/
def leInt (n : Nat) (v : Int) : List Byte := leBytes n (v % (2 ^ (8 * n) : Int)).toNat

/-- A byte list padded with zeros, or cut, to n bytes. -/
def fitBytes (n : Nat) (b : List Byte) : List Byte := b.take n ++ List.replicate (n - b.length) 0

/-- The 64-bit image of an integer (R89). -/
def image64 (v : Int) : U64 := BitVec.ofInt 64 v

/-- Bits [hi:lo] of a number. -/
def bitsOf (v hi lo : Nat) : Nat := v / 2 ^ lo % 2 ^ (hi + 1 - lo)

/-- Bit i of a number. -/
def bitOf (v i : Nat) : Bool := v.testBit i

/-- Clamp to an interval. -/
def clampI (lo hi v : Int) : Int := if v < lo then lo else if hi < v then hi else v

/-- Saturation to a signed field of the given width. -/
def satI (bits : Nat) (v : Int) : Int := clampI (-(2 ^ (bits - 1) : Int)) (2 ^ (bits - 1) - 1) v

/-- Integer division rounded to the nearest integer, ties to even; divisor positive. -/
def divNearestEven (a : Int) (d : Int) : Int :=
  let q := a / d
  let r := a % d
  if 2 * r < d then q else if d < 2 * r then q + 1 else if q % 2 = 0 then q else q + 1

/-- The sign of an integer. -/
def sgn (v : Int) : Int := if v < 0 then -1 else if v = 0 then 0 else 1

/-- Is the number a power of two? -/
def isPow2 (n : Nat) : Bool := n ≠ 0 && n &&& (n - 1) = 0

/-- One step of a bitwise square root. -/
def isqrtGo : Nat → Nat → Nat → Nat
  | 0, _, r => r
  | k + 1, n, r => let c := r + 2 ^ k; isqrtGo k n (if c * c ≤ n then c else r)

/-- Integer square root, by bits from the top. -/
def isqrt (n : Nat) : Nat := isqrtGo (n.log2 / 2 + 1) n 0

/-! Association lists with strictly rising keys: the one form in which the model keeps sparse tables. -/

/-- The entry of a key. -/
def alGet {α : Type} : List (Nat × α) → Nat → Option α
  | [], _ => none
  | (k, v) :: t, i => if k = i then some v else alGet t i

/-- Set the entry of a key, in order. -/
def alSet {α : Type} : List (Nat × α) → Nat → α → List (Nat × α)
  | [], i, w => [(i, w)]
  | (k, v) :: t, i, w =>
    if i < k then (i, w) :: (k, v) :: t
    else if k = i then (i, w) :: t
    else (k, v) :: alSet t i w

/-- Remove the entry of a key. -/
def alDel {α : Type} : List (Nat × α) → Nat → List (Nat × α)
  | [], _ => []
  | (k, v) :: t, i => if k = i then alDel t i else (k, v) :: alDel t i

/-- The canonical form: keys strictly rising. -/
def alSorted {α : Type} : List (Nat × α) → Bool
  | [] => true
  | [_] => true
  | (k, _) :: (k', v') :: t => decide (k < k') && alSorted ((k', v') :: t)

/-- Insert before the first element that does not go before it. -/
def insertBy {α : Type} (le : α → α → Bool) (x : α) : List α → List α
  | [] => [x]
  | y :: r => if le x y then x :: y :: r else y :: insertBy le x r

/-- Sort by an order, elements of equal rank left in theirs. -/
def sortBy {α : Type} (le : α → α → Bool) (l : List α) : List α := l.foldr (insertBy le) []

/-- Change the element at a position of a list. -/
def listMod {α : Type} (l : List α) (i : Nat) (f : α → α) : List α :=
  match l[i]? with
  | some v => l.set i (f v)
  | none => l

end Sys2Proof.Machine
end

