-- ==== Sys2Proof/Machine/ParamTable.lean ====
section
/-! DEFINITION. The parameter tables of the manual (R6, R89, R97 and the parameter table of each chapter):
identifier, class, width, index count, access, init, value after boot and range of every parameter. -/

namespace Sys2Proof.Machine

/-- The access codes of R6. -/
inductive Access where
  | rw | ro | wo | w1c | rwl
  deriving DecidableEq, Repr

/-- The Init codes of R6: kept (K), profile (P), fixed (Z). -/
inductive Init where
  | kept | profile | fixed
  deriving DecidableEq, Repr

/-- The Range column. `special` marks a range the Meaning or a rule gives; the class's own check holds it. -/
inductive Rng where
  | any
  | within (ivs : List (Int × Int))
  | pow2 (lo hi : Int)
  | step (m lo hi : Int)
  | handle (cs : List Class) (zero : Bool)
  | special
  deriving DecidableEq, Repr

/-- One row of a parameter table. `cls` is `none` for the `OBJECT` parameters every object has (R97);
`idx` is the number of elements of an indexed parameter and 0 for a parameter that is not indexed (R89). -/
structure ParamRow where
  id : Nat
  cls : Option Class
  signed : Bool
  bits : Nat
  idx : Nat
  access : Access
  init : Init
  dflt : Int
  rng : Rng
  deriving DecidableEq, Repr

/-- `OBJECT.STATE` (R97). -/
abbrev Par.objectState : Nat := 0x1000
/-- `OBJECT.OWNER` (R97). -/
abbrev Par.objectOwner : Nat := 0x1001
/-- `OBJECT.EVT_ROUTE` (R97). -/
abbrev Par.objectEvtRoute : Nat := 0x1002
/-- `OBJECT.EVT_MASK` (R97). -/
abbrev Par.objectEvtMask : Nat := 0x1003
/-- `QUEUE.INDEX` (R98). -/
abbrev Par.queueIndex : Nat := 0x1010
/-- `QUEUE.CMD_BASE` (R98). -/
abbrev Par.queueCmdBase : Nat := 0x1011
/-- `QUEUE.CMD_SIZE` (R98). -/
abbrev Par.queueCmdSize : Nat := 0x1012
/-- `QUEUE.RPL_BASE` (R98). -/
abbrev Par.queueRplBase : Nat := 0x1013
/-- `QUEUE.RPL_SIZE` (R98). -/
abbrev Par.queueRplSize : Nat := 0x1014
/-- `QUEUE.IDX_ADDR` (R98). -/
abbrev Par.queueIdxAddr : Nat := 0x1015
/-- `QUEUE.OWED` (R98). -/
abbrev Par.queueOwed : Nat := 0x1016
/-- `QUEUE.FETCHED` (R98). -/
abbrev Par.queueFetched : Nat := 0x1017
/-- `SYSTEM.QUOTA_HANDLES` (R99). -/
abbrev Par.systemQuotaHandles : Nat := 0x0100
/-- `SYSTEM.QUOTA_TASKS` (R99). -/
abbrev Par.systemQuotaTasks : Nat := 0x0101
/-- `SYSTEM.QUOTA_BULK` (R99). -/
abbrev Par.systemQuotaBulk : Nat := 0x0102
/-- `SYSTEM.USE_HANDLES` (R99). -/
abbrev Par.systemUseHandles : Nat := 0x0108
/-- `SYSTEM.USE_TASKS` (R99). -/
abbrev Par.systemUseTasks : Nat := 0x0109
/-- `SYSTEM.USE_ACTIONS` (R99). -/
abbrev Par.systemUseActions : Nat := 0x010A
/-- `SYSTEM.FREE_SLOTS` (R99). -/
abbrev Par.systemFreeSlots : Nat := 0x0110
/-- `SYSTEM.FREE_ACTIONS` (R99). -/
abbrev Par.systemFreeActions : Nat := 0x0111
/-- `SYSTEM.CMD_TIMEOUT` (R99). -/
abbrev Par.systemCmdTimeout : Nat := 0x0112
/-- `SYSTEM.LATE_REPLIES` (R99). -/
abbrev Par.systemLateReplies : Nat := 0x0113
/-- `SYSTEM.EVT_DROPPED` (R99). -/
abbrev Par.systemEvtDropped : Nat := 0x0114
/-- `FBK.TYPE` (R159). -/
abbrev Par.fbkType : Nat := 0x3000
/-- `FBK.CHAN` (R159). -/
abbrev Par.fbkChan : Nat := 0x3001
/-- `FBK.STATE` (R159). -/
abbrev Par.fbkState : Nat := 0x3002
/-- `FBK.START_STATE` (R159). -/
abbrev Par.fbkStartState : Nat := 0x3003
/-- `FBK.DIR` (R159). -/
abbrev Par.fbkDir : Nat := 0x3004
/-- `FBK.LINES` (R159). -/
abbrev Par.fbkLines : Nat := 0x3005
/-- `FBK.INTERP` (R159). -/
abbrev Par.fbkInterp : Nat := 0x3006
/-- `FBK.TERM` (R159). -/
abbrev Par.fbkTerm : Nat := 0x3007
/-- `FBK.EXTRAP` (R159). -/
abbrev Par.fbkExtrap : Nat := 0x3008
/-- `FBK.POSITION` (R159). -/
abbrev Par.fbkPosition : Nat := 0x3010
/-- `FBK.POS_FRAC` (R159). -/
abbrev Par.fbkPosFrac : Nat := 0x3011
/-- `FBK.SPEED` (R159). -/
abbrev Par.fbkSpeed : Nat := 0x3012
/-- `FBK.STATUS` (R159). -/
abbrev Par.fbkStatus : Nat := 0x3013
/-- `FBK.RAW_COUNT` (R159). -/
abbrev Par.fbkRawCount : Nat := 0x3014
/-- `FBK.SPEED_SWITCH` (R159). -/
abbrev Par.fbkSpeedSwitch : Nat := 0x3018
/-- `FBK.SPEED_TIMEOUT` (R159). -/
abbrev Par.fbkSpeedTimeout : Nat := 0x3019
/-- `FBK.STILL_BAND` (R159). -/
abbrev Par.fbkStillBand : Nat := 0x301A
/-- `FBK.SPEED_AVG` (R159). -/
abbrev Par.fbkSpeedAvg : Nat := 0x301B
/-- `FBK.SIN_OFFSET` (R159). -/
abbrev Par.fbkSinOffset : Nat := 0x3020
/-- `FBK.COS_OFFSET` (R159). -/
abbrev Par.fbkCosOffset : Nat := 0x3021
/-- `FBK.COS_GAIN` (R159). -/
abbrev Par.fbkCosGain : Nat := 0x3022
/-- `FBK.PHASE_CORR` (R159). -/
abbrev Par.fbkPhaseCorr : Nat := 0x3023
/-- `FBK.AMP_LOW` (R159). -/
abbrev Par.fbkAmpLow : Nat := 0x3024
/-- `FBK.AMP_HIGH` (R159). -/
abbrev Par.fbkAmpHigh : Nat := 0x3025
/-- `FBK.AMP_FILT` (R159). -/
abbrev Par.fbkAmpFilt : Nat := 0x3026
/-- `FBK.AMP_NOW` (R159). -/
abbrev Par.fbkAmpNow : Nat := 0x3027
/-- `FBK.AMP_MIN` (R159). -/
abbrev Par.fbkAmpMin : Nat := 0x3028
/-- `FBK.AMP_MAX` (R159). -/
abbrev Par.fbkAmpMax : Nat := 0x3029
/-- `FBK.EXTREMES` (R159). -/
abbrev Par.fbkExtremes : Nat := 0x302A
/-- `FBK.STATS_RESET` (R159). -/
abbrev Par.fbkStatsReset : Nat := 0x302B
/-- `FBK.EDGE_MIN` (R159). -/
abbrev Par.fbkEdgeMin : Nat := 0x3030
/-- `FBK.EDGE_FAST_COUNT` (R159). -/
abbrev Par.fbkEdgeFastCount : Nat := 0x3031
/-- `FBK.HALL_ORDER` (R159). -/
abbrev Par.fbkHallOrder : Nat := 0x3032
/-- `FBK.HALL_CODE` (R159). -/
abbrev Par.fbkHallCode : Nat := 0x3033
/-- `FBK.HALL_BAD_COUNT` (R159). -/
abbrev Par.fbkHallBadCount : Nat := 0x3034
/-- `FBK.INDEX_TOL` (R159). -/
abbrev Par.fbkIndexTol : Nat := 0x3038
/-- `FBK.INDEX_ACTION` (R159). -/
abbrev Par.fbkIndexAction : Nat := 0x3039
/-- `FBK.INDEX_GATE` (R159). -/
abbrev Par.fbkIndexGate : Nat := 0x303A
/-- `FBK.INDEX_POS` (R159). -/
abbrev Par.fbkIndexPos : Nat := 0x303B
/-- `FBK.INDEX_DELTA` (R159). -/
abbrev Par.fbkIndexDelta : Nat := 0x303C
/-- `FBK.SSI_BITS` (R159). -/
abbrev Par.fbkSsiBits : Nat := 0x3040
/-- `FBK.SSI_POS_LSB` (R159). -/
abbrev Par.fbkSsiPosLsb : Nat := 0x3041
/-- `FBK.SSI_POS_WIDTH` (R159). -/
abbrev Par.fbkSsiPosWidth : Nat := 0x3042
/-- `FBK.SSI_ERR_BIT` (R159). -/
abbrev Par.fbkSsiErrBit : Nat := 0x3043
/-- `FBK.SSI_CODE` (R159). -/
abbrev Par.fbkSsiCode : Nat := 0x3044
/-- `FBK.SSI_CLOCK` (R159). -/
abbrev Par.fbkSsiClock : Nat := 0x3045
/-- `FBK.SSI_PERIOD` (R159). -/
abbrev Par.fbkSsiPeriod : Nat := 0x3046
/-- `FBK.SSI_MONO` (R159). -/
abbrev Par.fbkSsiMono : Nat := 0x3047
/-- `FBK.SSI_JUMP` (R159). -/
abbrev Par.fbkSsiJump : Nat := 0x3048
/-- `AXIS.RATE_CLASS` (R198). -/
abbrev Par.axisRateClass : Nat := 0x4000
/-- `AXIS.FBK` (R198). -/
abbrev Par.axisFbk : Nat := 0x4001
/-- `AXIS.LGRP` (R198). -/
abbrev Par.axisLgrp : Nat := 0x4002
/-- `AXIS.LGRP_INDEX` (R198). -/
abbrev Par.axisLgrpIndex : Nat := 0x4003
/-- `AXIS.STANDSTILL` (R198). -/
abbrev Par.axisStandstill : Nat := 0x4004
/-- `AXIS.SS1_SOURCE` (R198). -/
abbrev Par.axisSs1Source : Nat := 0x4005
/-- `AXIS.FBK_ACTION` (R198). -/
abbrev Par.axisFbkAction : Nat := 0x4006
/-- `AXIS.PROF_VEL` (R198). -/
abbrev Par.axisProfVel : Nat := 0x4010
/-- `AXIS.VEL_LIMIT` (R198). -/
abbrev Par.axisVelLimit : Nat := 0x4011
/-- `AXIS.ACCEL` (R198). -/
abbrev Par.axisAccel : Nat := 0x4012
/-- `AXIS.DECEL` (R198). -/
abbrev Par.axisDecel : Nat := 0x4013
/-- `AXIS.JERK` (R198). -/
abbrev Par.axisJerk : Nat := 0x4014
/-- `AXIS.QUICK_DECEL` (R198). -/
abbrev Par.axisQuickDecel : Nat := 0x4015
/-- `AXIS.QUICK_JERK` (R198). -/
abbrev Par.axisQuickJerk : Nat := 0x4016
/-- `AXIS.SOFT_MIN` (R198). -/
abbrev Par.axisSoftMin : Nat := 0x4018
/-- `AXIS.SOFT_MAX` (R198). -/
abbrev Par.axisSoftMax : Nat := 0x4019
/-- `AXIS.SOFT_EN` (R198). -/
abbrev Par.axisSoftEn : Nat := 0x401A
/-- `AXIS.INPOS_WINDOW` (R198). -/
abbrev Par.axisInposWindow : Nat := 0x401B
/-- `AXIS.INPOS_TIME` (R198). -/
abbrev Par.axisInposTime : Nat := 0x401C
/-- `AXIS.MODE` (R198). -/
abbrev Par.axisMode : Nat := 0x4020
/-- `AXIS.SET_POS` (R198). -/
abbrev Par.axisSetPos : Nat := 0x4021
/-- `AXIS.SET_FRAC` (R198). -/
abbrev Par.axisSetFrac : Nat := 0x4022
/-- `AXIS.SET_VEL` (R198). -/
abbrev Par.axisSetVel : Nat := 0x4023
/-- `AXIS.SET_ACC` (R198). -/
abbrev Par.axisSetAcc : Nat := 0x4024
/-- `AXIS.TARGET` (R198). -/
abbrev Par.axisTarget : Nat := 0x4025
/-- `AXIS.TARGET_FRAC` (R198). -/
abbrev Par.axisTargetFrac : Nat := 0x4026
/-- `AXIS.TARGET_VEL` (R198). -/
abbrev Par.axisTargetVel : Nat := 0x4027
/-- `AXIS.FLAGS` (R198). -/
abbrev Par.axisFlags : Nat := 0x4028
/-- `AXIS.STOP_CAUSE` (R198). -/
abbrev Par.axisStopCause : Nat := 0x4029
/-- `AXIS.PATH` (R198). -/
abbrev Par.axisPath : Nat := 0x402A
/-- `AXIS.EPOCH` (R198). -/
abbrev Par.axisEpoch : Nat := 0x402B
/-- `PATH.RATE_CLASS` (R199). -/
abbrev Par.pathRateClass : Nat := 0x4100
/-- `PATH.MEMBER` (R199). -/
abbrev Par.pathMember : Nat := 0x4101
/-- `PATH.SCALE` (R199). -/
abbrev Par.pathScale : Nat := 0x4102
/-- `PATH.VEL` (R199). -/
abbrev Par.pathVel : Nat := 0x4103
/-- `PATH.ACCEL` (R199). -/
abbrev Par.pathAccel : Nat := 0x4104
/-- `PATH.DECEL` (R199). -/
abbrev Par.pathDecel : Nat := 0x4105
/-- `PATH.JERK` (R199). -/
abbrev Par.pathJerk : Nat := 0x4106
/-- `PATH.QUICK_DECEL` (R199). -/
abbrev Par.pathQuickDecel : Nat := 0x4107
/-- `PATH.BLEND_TOL` (R199). -/
abbrev Par.pathBlendTol : Nat := 0x4108
/-- `PATH.LOOKAHEAD` (R199). -/
abbrev Par.pathLookahead : Nat := 0x4109
/-- `PATH.FEED_SCALE` (R199). -/
abbrev Par.pathFeedScale : Nat := 0x410A
/-- `PATH.ARC_TOL` (R199). -/
abbrev Par.pathArcTol : Nat := 0x410B
/-- `PATH.MODE` (R199). -/
abbrev Par.pathMode : Nat := 0x4110
/-- `PATH.QUEUED` (R199). -/
abbrev Par.pathQueued : Nat := 0x4111
/-- `PATH.SEG_ID` (R199). -/
abbrev Par.pathSegId : Nat := 0x4112
/-- `PATH.SEG_DONE` (R199). -/
abbrev Par.pathSegDone : Nat := 0x4113
/-- `PATH.SPEED` (R199). -/
abbrev Par.pathSpeed : Nat := 0x4114
/-- `AXIS.HORIZON` (R225). -/
abbrev Par.axisHorizon : Nat := 0x4040
/-- `AXIS.COMMIT_DIST` (R225). -/
abbrev Par.axisCommitDist : Nat := 0x4041
/-- `AXIS.COMMIT_NOW` (R225). -/
abbrev Par.axisCommitNow : Nat := 0x4042
/-- `AXIS.MASTER_TOL` (R225). -/
abbrev Par.axisMasterTol : Nat := 0x4043
/-- `AXIS.PRED_LIMIT` (R225). -/
abbrev Par.axisPredLimit : Nat := 0x4044
/-- `AXIS.CATCHUP_VEL` (R225). -/
abbrev Par.axisCatchupVel : Nat := 0x4045
/-- `AXIS.CATCHUP_ACC` (R225). -/
abbrev Par.axisCatchupAcc : Nat := 0x4046
/-- `AXIS.RA_FLAGS` (R225). -/
abbrev Par.axisRaFlags : Nat := 0x4048
/-- `AXIS.EPOCH_COUNT` (R225). -/
abbrev Par.axisEpochCount : Nat := 0x4049
/-- `AXIS.EPOCH_CAUSE` (R225). -/
abbrev Par.axisEpochCause : Nat := 0x404A
/-- `AXIS.LATE_COUNT` (R225). -/
abbrev Par.axisLateCount : Nat := 0x404B
/-- `AXIS.REFINE_COUNT` (R225). -/
abbrev Par.axisRefineCount : Nat := 0x404C
/-- `AXIS.STALE_RECORDS` (R225). -/
abbrev Par.axisStaleRecords : Nat := 0x404D
/-- `GEAR.MASTER` (R264). -/
abbrev Par.gearMaster : Nat := 0x5000
/-- `GEAR.SLAVE` (R264). -/
abbrev Par.gearSlave : Nat := 0x5001
/-- `GEAR.NUM` (R264). -/
abbrev Par.gearNum : Nat := 0x5002
/-- `GEAR.DEN` (R264). -/
abbrev Par.gearDen : Nat := 0x5003
/-- `GEAR.CAM` (R264). -/
abbrev Par.gearCam : Nat := 0x5004
/-- `GEAR.ENGAGE` (R264). -/
abbrev Par.gearEngage : Nat := 0x5005
/-- `GEAR.MASTER_REF` (R264). -/
abbrev Par.gearMasterRef : Nat := 0x5006
/-- `GEAR.SLAVE_REF` (R264). -/
abbrev Par.gearSlaveRef : Nat := 0x5007
/-- `GEAR.NUM_NOW` (R264). -/
abbrev Par.gearNumNow : Nat := 0x5010
/-- `GEAR.DEN_NOW` (R264). -/
abbrev Par.gearDenNow : Nat := 0x5011
/-- `GEAR.STATE` (R264). -/
abbrev Par.gearState : Nat := 0x5012
/-- `GEAR.ARMED` (R264). -/
abbrev Par.gearArmed : Nat := 0x5013
/-- `GEAR.CAM_NOW` (R264). -/
abbrev Par.gearCamNow : Nat := 0x5014
/-- `GEAR.CYCLES` (R264). -/
abbrev Par.gearCycles : Nat := 0x5015
/-- `CAM.POINTS` (R265). -/
abbrev Par.camPoints : Nat := 0x5100
/-- `CAM.ADDR` (R265). -/
abbrev Par.camAddr : Nat := 0x5101
/-- `CAM.BYTES` (R265). -/
abbrev Par.camBytes : Nat := 0x5102
/-- `CAM.POOL_FREE` (R265). -/
abbrev Par.camPoolFree : Nat := 0x5103
/-- `CAM.WRITE_REJECTS` (R265). -/
abbrev Par.camWriteRejects : Nat := 0x5104
/-- `EVT.SOURCE` (R266). -/
abbrev Par.evtSource : Nat := 0x5200
/-- `EVT.DIR` (R266). -/
abbrev Par.evtDir : Nat := 0x5201
/-- `EVT.LATE_POLICY` (R266). -/
abbrev Par.evtLatePolicy : Nat := 0x5202
/-- `EVT.DEST` (R266). -/
abbrev Par.evtDest : Nat := 0x5203
/-- `EVT.ACTION` (R266). -/
abbrev Par.evtAction : Nat := 0x5204
/-- `EVT.PULSE_NS` (R266). -/
abbrev Par.evtPulseNs : Nat := 0x5205
/-- `EVT.LEAD_NS` (R266). -/
abbrev Par.evtLeadNs : Nat := 0x5206
/-- `EVT.NOTIFY` (R266). -/
abbrev Par.evtNotify : Nat := 0x5207
/-- `EVT.STATE` (R266). -/
abbrev Par.evtState : Nat := 0x5210
/-- `EVT.NEXT_POS` (R266). -/
abbrev Par.evtNextPos : Nat := 0x5211
/-- `EVT.REMAIN` (R266). -/
abbrev Par.evtRemain : Nat := 0x5212
/-- `EVT.FIRE_COUNT` (R266). -/
abbrev Par.evtFireCount : Nat := 0x5213
/-- `EVT.MISSED_COUNT` (R266). -/
abbrev Par.evtMissedCount : Nat := 0x5214
/-- `EVT.FLAGS` (R266). -/
abbrev Par.evtFlags : Nat := 0x5215
/-- `CAPT.TRIGGER` (R267). -/
abbrev Par.captTrigger : Nat := 0x5300
/-- `CAPT.EDGE` (R267). -/
abbrev Par.captEdge : Nat := 0x5301
/-- `CAPT.SOURCE` (R267). -/
abbrev Par.captSource : Nat := 0x5302
/-- `CAPT.MODE` (R267). -/
abbrev Par.captMode : Nat := 0x5303
/-- `CAPT.FILTER_NS` (R267). -/
abbrev Par.captFilterNs : Nat := 0x5304
/-- `CAPT.HOLDOFF_NS` (R267). -/
abbrev Par.captHoldoffNs : Nat := 0x5305
/-- `CAPT.WIN_MIN` (R267). -/
abbrev Par.captWinMin : Nat := 0x5306
/-- `CAPT.WIN_MAX` (R267). -/
abbrev Par.captWinMax : Nat := 0x5307
/-- `CAPT.LAST_POS` (R267). -/
abbrev Par.captLastPos : Nat := 0x5310
/-- `CAPT.LAST_TIME` (R267). -/
abbrev Par.captLastTime : Nat := 0x5311
/-- `CAPT.COUNT` (R267). -/
abbrev Par.captCount : Nat := 0x5312
/-- `CAPT.ARMED` (R267). -/
abbrev Par.captArmed : Nat := 0x5313
/-- `LCLK.OUTPUT` (R268). -/
abbrev Par.lclkOutput : Nat := 0x5400
/-- `LCLK.SOURCE` (R268). -/
abbrev Par.lclkSource : Nat := 0x5401
/-- `LCLK.PITCH_NUM` (R268). -/
abbrev Par.lclkPitchNum : Nat := 0x5402
/-- `LCLK.PITCH_DEN` (R268). -/
abbrev Par.lclkPitchDen : Nat := 0x5403
/-- `LCLK.DIR` (R268). -/
abbrev Par.lclkDir : Nat := 0x5404
/-- `LCLK.POS_DELAY` (R268). -/
abbrev Par.lclkPosDelay : Nat := 0x5405
/-- `LCLK.POS_DELAY_FRAC` (R268). -/
abbrev Par.lclkPosDelayFrac : Nat := 0x5406
/-- `LCLK.TIME_DELAY` (R268). -/
abbrev Par.lclkTimeDelay : Nat := 0x5407
/-- `LCLK.WIDTH` (R268). -/
abbrev Par.lclkWidth : Nat := 0x5408
/-- `LCLK.POLARITY` (R268). -/
abbrev Par.lclkPolarity : Nat := 0x5409
/-- `LCLK.REG_SLEW` (R268). -/
abbrev Par.lclkRegSlew : Nat := 0x540A
/-- `LCLK.MIN_SPACING` (R268). -/
abbrev Par.lclkMinSpacing : Nat := 0x540B
/-- `LCLK.PRED_LIMIT` (R268). -/
abbrev Par.lclkPredLimit : Nat := 0x540C
/-- `LCLK.LINE_INDEX` (R268). -/
abbrev Par.lclkLineIndex : Nat := 0x5410
/-- `LCLK.LINES_LEFT` (R268). -/
abbrev Par.lclkLinesLeft : Nat := 0x5411
/-- `LCLK.DROPPED` (R268). -/
abbrev Par.lclkDropped : Nat := 0x5412
/-- `LCLK.FLAGS` (R268). -/
abbrev Par.lclkFlags : Nat := 0x5413
/-- `LCLK.ORIGIN` (R268). -/
abbrev Par.lclkOrigin : Nat := 0x5414
/-- `LCLK.POS_DELAY_NOW` (R268). -/
abbrev Par.lclkPosDelayNow : Nat := 0x5415
/-- `LGRP.RATE_CLASS` (R294). -/
abbrev Par.lgrpRateClass : Nat := 0x6000
/-- `LGRP.ENGINE` (R294). -/
abbrev Par.lgrpEngine : Nat := 0x6001
/-- `LGRP.DIMS` (R294). -/
abbrev Par.lgrpDims : Nat := 0x6002
/-- `LGRP.OUTER_DIMS` (R294). -/
abbrev Par.lgrpOuterDims : Nat := 0x6003
/-- `LGRP.OUTER_DIV` (R294). -/
abbrev Par.lgrpOuterDiv : Nat := 0x6004
/-- `LGRP.AXES` (R294). -/
abbrev Par.lgrpAxes : Nat := 0x6005
/-- `LGRP.CYCLES` (R294). -/
abbrev Par.lgrpCycles : Nat := 0x6006
/-- `LGRP.ENGINE_LOAD` (R294). -/
abbrev Par.lgrpEngineLoad : Nat := 0x6007
/-- `LGRP.BANK_BYTES` (R294). -/
abbrev Par.lgrpBankBytes : Nat := 0x6008
/-- `LGRP.Y_SRC` (R294). -/
abbrev Par.lgrpYSrc : Nat := 0x6010
/-- `LGRP.Y_GAIN` (R294). -/
abbrev Par.lgrpYGain : Nat := 0x6011
/-- `LGRP.Y_SHIFT` (R294). -/
abbrev Par.lgrpYShift : Nat := 0x6012
/-- `LGRP.Z_SRC` (R294). -/
abbrev Par.lgrpZSrc : Nat := 0x6013
/-- `LGRP.Z_GAIN` (R294). -/
abbrev Par.lgrpZGain : Nat := 0x6014
/-- `LGRP.Z_SHIFT` (R294). -/
abbrev Par.lgrpZShift : Nat := 0x6015
/-- `LGRP.U_DST` (R294). -/
abbrev Par.lgrpUDst : Nat := 0x6016
/-- `LGRP.U_GAIN` (R294). -/
abbrev Par.lgrpUGain : Nat := 0x6017
/-- `LGRP.U_OFFSET` (R294). -/
abbrev Par.lgrpUOffset : Nat := 0x6018
/-- `LGRP.REF` (R294). -/
abbrev Par.lgrpRef : Nat := 0x6019
/-- `LGRP.BUMPLESS` (R294). -/
abbrev Par.lgrpBumpless : Nat := 0x6020
/-- `LGRP.ACTIVE_BANK` (R294). -/
abbrev Par.lgrpActiveBank : Nat := 0x6021
/-- `LGRP.SWAP_PENDING` (R294). -/
abbrev Par.lgrpSwapPending : Nat := 0x6022
/-- `LGRP.BANK_STATUS` (R294). -/
abbrev Par.lgrpBankStatus : Nat := 0x6023
/-- `LGRP.FE_LIMIT` (R294). -/
abbrev Par.lgrpFeLimit : Nat := 0x6028
/-- `LGRP.FE_TIME` (R294). -/
abbrev Par.lgrpFeTime : Nat := 0x6029
/-- `LGRP.FE_ACTION` (R294). -/
abbrev Par.lgrpFeAction : Nat := 0x602A
/-- `LGRP.FE_NOW` (R294). -/
abbrev Par.lgrpFeNow : Nat := 0x602B
/-- `LGRP.SETTLE` (R294). -/
abbrev Par.lgrpSettle : Nat := 0x602C
/-- `LGRP.SAT_FLAGS` (R294). -/
abbrev Par.lgrpSatFlags : Nat := 0x6030
/-- `LGRP.XSAT_ACTION` (R294). -/
abbrev Par.lgrpXsatAction : Nat := 0x6031
/-- `LGRP.SAT_COUNT` (R294). -/
abbrev Par.lgrpSatCount : Nat := 0x6032
/-- `LGRP.STATE` (R294). -/
abbrev Par.lgrpState : Nat := 0x6038
/-- `LGRP.U_NOW` (R294). -/
abbrev Par.lgrpUNow : Nat := 0x6039
/-- `LGRP.Y_NOW` (R294). -/
abbrev Par.lgrpYNow : Nat := 0x603A
/-- `LGRP.Q_NOW` (R294). -/
abbrev Par.lgrpQNow : Nat := 0x603B
/-- `LGRP.LIST_MODE` (R332). -/
abbrev Par.lgrpListMode : Nat := 0x6040
/-- `LGRP.HOST_BANK_BYTES` (R332). -/
abbrev Par.lgrpHostBankBytes : Nat := 0x6041
/-- `LGRP.DATA_BYTES` (R332). -/
abbrev Par.lgrpDataBytes : Nat := 0x6042
/-- `LGRP.LIST_STEPS` (R332). -/
abbrev Par.lgrpListSteps : Nat := 0x6043
/-- `LGRP.LIST_CHECK` (R332). -/
abbrev Par.lgrpListCheck : Nat := 0x6044
/-- `LGRP.PARK_COUNT` (R332). -/
abbrev Par.lgrpParkCount : Nat := 0x6045
/-- `LGRP.START_DELAY_MAX` (R332). -/
abbrev Par.lgrpStartDelayMax : Nat := 0x6046
/-- `TRACE.GROUP` (R333). -/
abbrev Par.traceGroup : Nat := 0x6100
/-- `TRACE.SELECT` (R333). -/
abbrev Par.traceSelect : Nat := 0x6101
/-- `TRACE.DEPTH` (R333). -/
abbrev Par.traceDepth : Nat := 0x6102
/-- `TRACE.DECIM` (R333). -/
abbrev Par.traceDecim : Nat := 0x6103
/-- `TRACE.MODE` (R333). -/
abbrev Par.traceMode : Nat := 0x6104
/-- `TRACE.TRIG_FLAGS` (R333). -/
abbrev Par.traceTrigFlags : Nat := 0x6105
/-- `TRACE.POST` (R333). -/
abbrev Par.tracePost : Nat := 0x6106
/-- `TRACE.ADDR` (R333). -/
abbrev Par.traceAddr : Nat := 0x6107
/-- `TRACE.REC_BYTES` (R333). -/
abbrev Par.traceRecBytes : Nat := 0x6108
/-- `TRACE.WRITE_IDX` (R333). -/
abbrev Par.traceWriteIdx : Nat := 0x6109
/-- `TRACE.STATE` (R333). -/
abbrev Par.traceState : Nat := 0x610A
/-- `TRACE.TRIG_IDX` (R333). -/
abbrev Par.traceTrigIdx : Nat := 0x610B
/-- `TRACE.DROPPED` (R333). -/
abbrev Par.traceDropped : Nat := 0x610C
/-- `PWMG.PAIRS` (R359). -/
abbrev Par.pwmgPairs : Nat := 0x7000
/-- `PWMG.MODE` (R359). -/
abbrev Par.pwmgMode : Nat := 0x7001
/-- `PWMG.PRESCALE` (R359). -/
abbrev Par.pwmgPrescale : Nat := 0x7002
/-- `PWMG.PERIOD` (R359). -/
abbrev Par.pwmgPeriod : Nat := 0x7003
/-- `PWMG.PHASE` (R359). -/
abbrev Par.pwmgPhase : Nat := 0x7004
/-- `PWMG.ON` (R359). -/
abbrev Par.pwmgOn : Nat := 0x7005
/-- `PWMG.OFF` (R359). -/
abbrev Par.pwmgOff : Nat := 0x7006
/-- `PWMG.DEAD` (R359). -/
abbrev Par.pwmgDead : Nat := 0x7007
/-- `PWMG.MIN_PULSE` (R359). -/
abbrev Par.pwmgMinPulse : Nat := 0x7008
/-- `PWMG.SAFE` (R359). -/
abbrev Par.pwmgSafe : Nat := 0x7009
/-- `PWMG.POLARITY` (R359). -/
abbrev Par.pwmgPolarity : Nat := 0x700A
/-- `PWMG.FAULT_SEL` (R359). -/
abbrev Par.pwmgFaultSel : Nat := 0x700B
/-- `PWMG.FAULT_MODE` (R359). -/
abbrev Par.pwmgFaultMode : Nat := 0x700C
/-- `PWMG.FAULT_FILT` (R359). -/
abbrev Par.pwmgFaultFilt : Nat := 0x700D
/-- `PWMG.TRIG_SRC` (R359). -/
abbrev Par.pwmgTrigSrc : Nat := 0x700E
/-- `PWMG.TRIG_DIV` (R359). -/
abbrev Par.pwmgTrigDiv : Nat := 0x700F
/-- `PWMG.CMPA` (R359). -/
abbrev Par.pwmgCmpa : Nat := 0x7010
/-- `PWMG.CMPB` (R359). -/
abbrev Par.pwmgCmpb : Nat := 0x7011
/-- `PWMG.LOAD_PENDING` (R359). -/
abbrev Par.pwmgLoadPending : Nat := 0x7020
/-- `PWMG.FLAGS` (R359). -/
abbrev Par.pwmgFlags : Nat := 0x7021
/-- `PWMG.PERIOD_NOW` (R359). -/
abbrev Par.pwmgPeriodNow : Nat := 0x7022
/-- `PWMG.ON_NOW` (R359). -/
abbrev Par.pwmgOnNow : Nat := 0x7023
/-- `PWMG.FAULT_IN` (R359). -/
abbrev Par.pwmgFaultIn : Nat := 0x7024
/-- `PWMG.STRETCH_COUNT` (R359). -/
abbrev Par.pwmgStretchCount : Nat := 0x7025
/-- `PWMG.CYCLE_FAULTS` (R359). -/
abbrev Par.pwmgCycleFaults : Nat := 0x7026
/-- `SDIN.DECIM` (R360). -/
abbrev Par.sdinDecim : Nat := 0x7080
/-- `SDIN.MODE` (R360). -/
abbrev Par.sdinMode : Nat := 0x7081
/-- `SDIN.TRIG_GROUP` (R360). -/
abbrev Par.sdinTrigGroup : Nat := 0x7082
/-- `SDIN.TRIG` (R360). -/
abbrev Par.sdinTrig : Nat := 0x7083
/-- `SDIN.SAMPLE_PHASE` (R360). -/
abbrev Par.sdinSamplePhase : Nat := 0x7084
/-- `SDIN.CLIP_LIMIT` (R360). -/
abbrev Par.sdinClipLimit : Nat := 0x7085
/-- `SDIN.RESULT` (R360). -/
abbrev Par.sdinResult : Nat := 0x7090
/-- `SDIN.RESULT_TIME` (R360). -/
abbrev Par.sdinResultTime : Nat := 0x7091
/-- `SDIN.FLAGS` (R360). -/
abbrev Par.sdinFlags : Nat := 0x7092
/-- `DLANE.AXES` (R391). -/
abbrev Par.dlaneAxes : Nat := 0x7100
/-- `DLANE.SLOT_MODE` (R391). -/
abbrev Par.dlaneSlotMode : Nat := 0x7101
/-- `DLANE.SLOT_AXIS` (R391). -/
abbrev Par.dlaneSlotAxis : Nat := 0x7102
/-- `DLANE.APPLY_AT` (R391). -/
abbrev Par.dlaneApplyAt : Nat := 0x7103
/-- `DLANE.SAMPLE_LEAD` (R391). -/
abbrev Par.dlaneSampleLead : Nat := 0x7104
/-- `DLANE.STALE_LIMIT` (R391). -/
abbrev Par.dlaneStaleLimit : Nat := 0x7105
/-- `DLANE.LOSS_LIMIT` (R391). -/
abbrev Par.dlaneLossLimit : Nat := 0x7106
/-- `DLANE.TRAIN_TIMEOUT` (R391). -/
abbrev Par.dlaneTrainTimeout : Nat := 0x7107
/-- `DLANE.STAGE_FAULT_ACTION` (R391). -/
abbrev Par.dlaneStageFaultAction : Nat := 0x7108
/-- `DLANE.DRAIN_FRAMES` (R391). -/
abbrev Par.dlaneDrainFrames : Nat := 0x7109
/-- `DLANE.INDEX_EN` (R391). -/
abbrev Par.dlaneIndexEn : Nat := 0x710A
/-- `DLANE.ECYCLE` (R391). -/
abbrev Par.dlaneEcycle : Nat := 0x7110
/-- `DLANE.ZERO` (R391). -/
abbrev Par.dlaneZero : Nat := 0x7111
/-- `DLANE.A_RUN` (R391). -/
abbrev Par.dlaneARun : Nat := 0x7112
/-- `DLANE.A_HOLD` (R391). -/
abbrev Par.dlaneAHold : Nat := 0x7113
/-- `DLANE.HOLD_DELAY` (R391). -/
abbrev Par.dlaneHoldDelay : Nat := 0x7114
/-- `DLANE.TAU_NS` (R391). -/
abbrev Par.dlaneTauNs : Nat := 0x7115
/-- `DLANE.K_BEMF` (R391). -/
abbrev Par.dlaneKBemf : Nat := 0x7116
/-- `DLANE.A_MAX` (R391). -/
abbrev Par.dlaneAMax : Nat := 0x7117
/-- `DLANE.LINK_STATE` (R391). -/
abbrev Par.dlaneLinkState : Nat := 0x7120
/-- `DLANE.DELAY_NS` (R391). -/
abbrev Par.dlaneDelayNs : Nat := 0x7121
/-- `DLANE.TURN_NS` (R391). -/
abbrev Par.dlaneTurnNs : Nat := 0x7122
/-- `DLANE.UL_STALE` (R391). -/
abbrev Par.dlaneUlStale : Nat := 0x7123
/-- `DLANE.UL_CRC_ERRORS` (R391). -/
abbrev Par.dlaneUlCrcErrors : Nat := 0x7124
/-- `DLANE.UL_LATE` (R391). -/
abbrev Par.dlaneUlLate : Nat := 0x7125
/-- `DLANE.SSTAT` (R391). -/
abbrev Par.dlaneSstat : Nat := 0x7126
/-- `DLANE.USTAT` (R391). -/
abbrev Par.dlaneUstat : Nat := 0x7127
/-- `DLANE.VBUS` (R391). -/
abbrev Par.dlaneVbus : Nat := 0x7128
/-- `DLANE.FLAGS` (R391). -/
abbrev Par.dlaneFlags : Nat := 0x7129
/-- `FIO.CONFIG` (R414). -/
abbrev Par.fioConfig : Nat := 0x8000
/-- `FIO.SAMPLE_PERIOD` (R414). -/
abbrev Par.fioSamplePeriod : Nat := 0x8001
/-- `FIO.FILTER` (R414). -/
abbrev Par.fioFilter : Nat := 0x8002
/-- `FIO.INVERT` (R414). -/
abbrev Par.fioInvert : Nat := 0x8003
/-- `FIO.OPEN_WIRE_EN` (R414). -/
abbrev Par.fioOpenWireEn : Nat := 0x8004
/-- `FIO.NOTIFY` (R414). -/
abbrev Par.fioNotify : Nat := 0x8005
/-- `FIO.DRIVER` (R414). -/
abbrev Par.fioDriver : Nat := 0x8008
/-- `FIO.OUT` (R414). -/
abbrev Par.fioOut : Nat := 0x8009
/-- `FIO.OVL_MODE` (R414). -/
abbrev Par.fioOvlMode : Nat := 0x800A
/-- `FIO.RETRY_MS` (R414). -/
abbrev Par.fioRetryMs : Nat := 0x800B
/-- `FIO.OUT_TEST` (R414). -/
abbrev Par.fioOutTest : Nat := 0x800C
/-- `FIO.OPEN_LOAD_EN` (R414). -/
abbrev Par.fioOpenLoadEn : Nat := 0x800D
/-- `FIO.BLANK` (R414). -/
abbrev Par.fioBlank : Nat := 0x800E
/-- `FIO.HOLD_MODE` (R414). -/
abbrev Par.fioHoldMode : Nat := 0x8010
/-- `FIO.HOLD_TIMEOUT` (R414). -/
abbrev Par.fioHoldTimeout : Nat := 0x8011
/-- `FIO.FALLBACK` (R414). -/
abbrev Par.fioFallback : Nat := 0x8012
/-- `FIO.IN` (R414). -/
abbrev Par.fioIn : Nat := 0x8018
/-- `FIO.STATUS` (R414). -/
abbrev Par.fioStatus : Nat := 0x8019
/-- `FIO.READBACK` (R414). -/
abbrev Par.fioReadback : Nat := 0x801A
/-- `FIO.CURRENT` (R414). -/
abbrev Par.fioCurrent : Nat := 0x801B
/-- `FIO.OVL_COUNT` (R414). -/
abbrev Par.fioOvlCount : Nat := 0x801C
/-- `FIO.LAST_EDGE` (R414). -/
abbrev Par.fioLastEdge : Nat := 0x801D
/-- `FIO.EDGE_COUNT` (R414). -/
abbrev Par.fioEdgeCount : Nat := 0x801E
/-- `SYSTEM.FIELD_MV` (R415). -/
abbrev Par.systemFieldMv : Nat := 0x8100
/-- `SYSTEM.FIELD_MA` (R415). -/
abbrev Par.systemFieldMa : Nat := 0x8101
/-- `SAFE.STATE` (R445). -/
abbrev Par.safeState : Nat := 0x9000
/-- `SAFE.CFG_CODES` (R445). -/
abbrev Par.safeCfgCodes : Nat := 0x9001
/-- `SAFE.UPTIME` (R445). -/
abbrev Par.safeUptime : Nat := 0x9002
/-- `SAFE.SUPPLY_MV` (R445). -/
abbrev Par.safeSupplyMv : Nat := 0x9003
/-- `SAFE.LOG_COUNT` (R445). -/
abbrev Par.safeLogCount : Nat := 0x9004
/-- `SAFE.PAIR_MODE` (R445). -/
abbrev Par.safePairMode : Nat := 0x9010
/-- `SAFE.PAIR_LEVEL` (R445). -/
abbrev Par.safePairLevel : Nat := 0x9011
/-- `SAFE.PAIR_FAULT` (R445). -/
abbrev Par.safePairFault : Nat := 0x9012
/-- `SAFE.DEMANDS` (R445). -/
abbrev Par.safeDemands : Nat := 0x9013
/-- `SAFE.FN_STATE` (R445). -/
abbrev Par.safeFnState : Nat := 0x9020
/-- `SAFE.FN_FAULT` (R445). -/
abbrev Par.safeFnFault : Nat := 0x9021
/-- `SAFE.OUT_LEVEL` (R445). -/
abbrev Par.safeOutLevel : Nat := 0x9022
/-- `SAFE.BRK_STATE` (R445). -/
abbrev Par.safeBrkState : Nat := 0x9030
/-- `SAFE.BRK_MA` (R445). -/
abbrev Par.safeBrkMa : Nat := 0x9031
/-- `SAFE.BRK_FAULT` (R445). -/
abbrev Par.safeBrkFault : Nat := 0x9032
/-- `SAFE.BRK_TEST_AGE` (R445). -/
abbrev Par.safeBrkTestAge : Nat := 0x9033
/-- `SAFE.BRK_TEST_DUE` (R445). -/
abbrev Par.safeBrkTestDue : Nat := 0x9034
/-- `SAFE.EDM_LEVEL` (R445). -/
abbrev Par.safeEdmLevel : Nat := 0x9040
/-- `SAFE.EDM_FAULT` (R445). -/
abbrev Par.safeEdmFault : Nat := 0x9041
/-- `PORT.KIND` (R477). -/
abbrev Par.portKind : Nat := 0xA000
/-- `PORT.LINK_STATE` (R477). -/
abbrev Par.portLinkState : Nat := 0xA001
/-- `PORT.AUTO_ENABLE` (R477). -/
abbrev Par.portAutoEnable : Nat := 0xA002
/-- `PORT.COST` (R477). -/
abbrev Par.portCost : Nat := 0xA003
/-- `PORT.BULK_MIN` (R477). -/
abbrev Par.portBulkMin : Nat := 0xA004
/-- `PORT.TRAIN_TIMEOUT` (R477). -/
abbrev Par.portTrainTimeout : Nat := 0xA005
/-- `PORT.TX_PRESET` (R477). -/
abbrev Par.portTxPreset : Nat := 0xA006
/-- `PORT.PEER_NODE` (R477). -/
abbrev Par.portPeerNode : Nat := 0xA010
/-- `PORT.PEER_SERIAL` (R477). -/
abbrev Par.portPeerSerial : Nat := 0xA011
/-- `PORT.CRC_ERRORS` (R477). -/
abbrev Par.portCrcErrors : Nat := 0xA012
/-- `PORT.REPLAYS` (R477). -/
abbrev Par.portReplays : Nat := 0xA013
/-- `PORT.DOWN_COUNT` (R477). -/
abbrev Par.portDownCount : Nat := 0xA014
/-- `PORT.DROPPED` (R477). -/
abbrev Par.portDropped : Nat := 0xA015
/-- `PORT.UTIL` (R477). -/
abbrev Par.portUtil : Nat := 0xA016
/-- `PORT.EYE_MARGIN` (R477). -/
abbrev Par.portEyeMargin : Nat := 0xA017
/-- `SYSTEM.FABRIC_PRIO` (R478). -/
abbrev Par.systemFabricPrio : Nat := 0xA100
/-- `SYSTEM.NODE_BASE_REQ` (R478). -/
abbrev Par.systemNodeBaseReq : Nat := 0xA101
/-- `SYSTEM.NODE_ID` (R478). -/
abbrev Par.systemNodeId : Nat := 0xA102
/-- `SYSTEM.ROOT_NODE` (R478). -/
abbrev Par.systemRootNode : Nat := 0xA103
/-- `SYSTEM.FABRIC_STATE` (R478). -/
abbrev Par.systemFabricState : Nat := 0xA104
/-- `SYSTEM.FABRIC_NODES` (R478). -/
abbrev Par.systemFabricNodes : Nat := 0xA105
/-- `SYSTEM.LEVELS` (R478). -/
abbrev Par.systemLevels : Nat := 0xA106
/-- `SYSTEM.COMMIT_LEVEL` (R478). -/
abbrev Par.systemCommitLevel : Nat := 0xA107
/-- `SYSTEM.FABRIC_MIN_LEVEL` (R478). -/
abbrev Par.systemFabricMinLevel : Nat := 0xA108
/-- `SYSTEM.PEER_LEVEL` (R478). -/
abbrev Par.systemPeerLevel : Nat := 0xA109
/-- `SYSTEM.ROUTE_VERSION` (R478). -/
abbrev Par.systemRouteVersion : Nat := 0xA10A
/-- `SYSTEM.DISC_SETTLE` (R478). -/
abbrev Par.systemDiscSettle : Nat := 0xA10B
/-- `SYSTEM.E2E_WINDOW` (R478). -/
abbrev Par.systemE2eWindow : Nat := 0xA10C
/-- `TIME.STATE` (R498). -/
abbrev Par.timeState : Nat := 0xB000
/-- `TIME.IS_GM` (R498). -/
abbrev Par.timeIsGm : Nat := 0xB001
/-- `TIME.GM_NODE` (R498). -/
abbrev Par.timeGmNode : Nat := 0xB002
/-- `TIME.GM_PRIO` (R498). -/
abbrev Par.timeGmPrio : Nat := 0xB003
/-- `TIME.SYNC_INTERVAL` (R498). -/
abbrev Par.timeSyncInterval : Nat := 0xB004
/-- `TIME.PDELAY_INTERVAL` (R498). -/
abbrev Par.timePdelayInterval : Nat := 0xB005
/-- `TIME.JUMP_LIMIT` (R498). -/
abbrev Par.timeJumpLimit : Nat := 0xB006
/-- `TIME.LOCK_WINDOW` (R498). -/
abbrev Par.timeLockWindow : Nat := 0xB007
/-- `TIME.SLEW_MAX` (R498). -/
abbrev Par.timeSlewMax : Nat := 0xB008
/-- `TIME.SERVO_BW` (R498). -/
abbrev Par.timeServoBw : Nat := 0xB009
/-- `TIME.SYNC_LOSS` (R498). -/
abbrev Par.timeSyncLoss : Nat := 0xB00A
/-- `TIME.ASYM` (R498). -/
abbrev Par.timeAsym : Nat := 0xB00B
/-- `TIME.PPS_MODE` (R498). -/
abbrev Par.timePpsMode : Nat := 0xB00C
/-- `TIME.PPS_OUT_EN` (R498). -/
abbrev Par.timePpsOutEn : Nat := 0xB00D
/-- `TIME.PPS_OUT_WIDTH` (R498). -/
abbrev Par.timePpsOutWidth : Nat := 0xB00E
/-- `TIME.OFFSET` (R498). -/
abbrev Par.timeOffset : Nat := 0xB010
/-- `TIME.FREQ_ADJ` (R498). -/
abbrev Par.timeFreqAdj : Nat := 0xB011
/-- `TIME.PEER_DELAY` (R498). -/
abbrev Par.timePeerDelay : Nat := 0xB012
/-- `TIME.HOPS` (R498). -/
abbrev Par.timeHops : Nat := 0xB013
/-- `TIME.STEP_PENDING` (R498). -/
abbrev Par.timeStepPending : Nat := 0xB014
/-- `TIME.STEP_ID` (R498). -/
abbrev Par.timeStepId : Nat := 0xB015
/-- `TIME.PPS_IN_LAST` (R498). -/
abbrev Par.timePpsInLast : Nat := 0xB016
/-- `TIME.HOLDOVER_MS` (R498). -/
abbrev Par.timeHoldoverMs : Nat := 0xB017
/-- `DMAC.CHANNEL` (R517). -/
abbrev Par.dmacChannel : Nat := 0xC000
/-- `DMAC.PRIO` (R517). -/
abbrev Par.dmacPrio : Nat := 0xC001
/-- `DMAC.REQ_SRC` (R517). -/
abbrev Par.dmacReqSrc : Nat := 0xC002
/-- `DMAC.REQ_OBJ` (R517). -/
abbrev Par.dmacReqObj : Nat := 0xC003
/-- `DMAC.HOP_LIMIT` (R517). -/
abbrev Par.dmacHopLimit : Nat := 0xC004
/-- `DMAC.BUS_TIMEOUT` (R517). -/
abbrev Par.dmacBusTimeout : Nat := 0xC005
/-- `DMAC.STATE` (R517). -/
abbrev Par.dmacState : Nat := 0xC010
/-- `DMAC.CUR_DESC` (R517). -/
abbrev Par.dmacCurDesc : Nat := 0xC011
/-- `DMAC.REMAIN` (R517). -/
abbrev Par.dmacRemain : Nat := 0xC012
/-- `DMAC.DESC_COUNT` (R517). -/
abbrev Par.dmacDescCount : Nat := 0xC013
/-- `DMAC.BYTES` (R517). -/
abbrev Par.dmacBytes : Nat := 0xC014
/-- `DMAC.PENDING` (R517). -/
abbrev Par.dmacPending : Nat := 0xC015
/-- `DMAC.ERR_ADDR` (R517). -/
abbrev Par.dmacErrAddr : Nat := 0xC018
/-- `DMAC.ERR_INFO` (R517). -/
abbrev Par.dmacErrInfo : Nat := 0xC019
/-- `DMAC.FLAGS` (R517). -/
abbrev Par.dmacFlags : Nat := 0xC01A
/-- `CANC.MODE` (R539). -/
abbrev Par.cancMode : Nat := 0xD000
/-- `CANC.FD_EN` (R539). -/
abbrev Par.cancFdEn : Nat := 0xD001
/-- `CANC.NBT` (R539). -/
abbrev Par.cancNbt : Nat := 0xD002
/-- `CANC.DBT` (R539). -/
abbrev Par.cancDbt : Nat := 0xD003
/-- `CANC.TDC` (R539). -/
abbrev Par.cancTdc : Nat := 0xD004
/-- `CANC.PEX` (R539). -/
abbrev Par.cancPex : Nat := 0xD005
/-- `CANC.BUSOFF_MODE` (R539). -/
abbrev Par.cancBusoffMode : Nat := 0xD006
/-- `CANC.TX_ORDER` (R539). -/
abbrev Par.cancTxOrder : Nat := 0xD007
/-- `CANC.ONE_SHOT` (R539). -/
abbrev Par.cancOneShot : Nat := 0xD008
/-- `CANC.FIFO_DEPTH` (R539). -/
abbrev Par.cancFifoDepth : Nat := 0xD009
/-- `CANC.FIFO_FULL` (R539). -/
abbrev Par.cancFifoFull : Nat := 0xD00A
/-- `CANC.DEFAULT_ACT` (R539). -/
abbrev Par.cancDefaultAct : Nat := 0xD00B
/-- `CANC.FILT_ADDR` (R539). -/
abbrev Par.cancFiltAddr : Nat := 0xD00C
/-- `CANC.FILT_COUNT` (R539). -/
abbrev Par.cancFiltCount : Nat := 0xD00D
/-- `CANC.STATE` (R539). -/
abbrev Par.cancState : Nat := 0xD010
/-- `CANC.TEC` (R539). -/
abbrev Par.cancTec : Nat := 0xD011
/-- `CANC.REC` (R539). -/
abbrev Par.cancRec : Nat := 0xD012
/-- `CANC.LEC` (R539). -/
abbrev Par.cancLec : Nat := 0xD013
/-- `CANC.TDC_MEAS` (R539). -/
abbrev Par.cancTdcMeas : Nat := 0xD014
/-- `CANC.FIFO_FILL` (R539). -/
abbrev Par.cancFifoFill : Nat := 0xD015
/-- `CANC.TX_FREE` (R539). -/
abbrev Par.cancTxFree : Nat := 0xD016
/-- `CANC.RX_COUNT` (R539). -/
abbrev Par.cancRxCount : Nat := 0xD017
/-- `CANC.TX_COUNT` (R539). -/
abbrev Par.cancTxCount : Nat := 0xD018
/-- `CANC.MB_MISS` (R539). -/
abbrev Par.cancMbMiss : Nat := 0xD019
/-- `CANC.FLAGS` (R539). -/
abbrev Par.cancFlags : Nat := 0xD01A
/-- `CANMB.CONTROLLER` (R540). -/
abbrev Par.canmbController : Nat := 0xD100
/-- `CANMB.INDEX` (R540). -/
abbrev Par.canmbIndex : Nat := 0xD101
/-- `CANMB.NOTIFY` (R540). -/
abbrev Par.canmbNotify : Nat := 0xD102
/-- `CANMB.RCNT` (R540). -/
abbrev Par.canmbRcnt : Nat := 0xD103
/-- `CANMB.LOST_COUNT` (R540). -/
abbrev Par.canmbLostCount : Nat := 0xD104
/-- `CANMB.FLAGS` (R540). -/
abbrev Par.canmbFlags : Nat := 0xD105
/-- `PROF.STATE` (R570). -/
abbrev Par.profState : Nat := 0xE000
/-- `PROF.RECORDS` (R570). -/
abbrev Par.profRecords : Nat := 0xE001
/-- `PROF.TAG` (R570). -/
abbrev Par.profTag : Nat := 0xE002
/-- `PROF.IN_USE` (R570). -/
abbrev Par.profInUse : Nat := 0xE003
/-- `SYSTEM.BOOT_SLOT` (R571). -/
abbrev Par.systemBootSlot : Nat := 0xE100
/-- `SYSTEM.PROF_PINS` (R571). -/
abbrev Par.systemProfPins : Nat := 0xE101
/-- `SYSTEM.NEXT_SLOT` (R571). -/
abbrev Par.systemNextSlot : Nat := 0xE102
/-- `SYSTEM.JOURNAL_STATE` (R571). -/
abbrev Par.systemJournalState : Nat := 0xE103
/-- `SYSTEM.JOURNAL_CAUSE` (R571). -/
abbrev Par.systemJournalCause : Nat := 0xE104
/-- `SYSTEM.JOURNAL_SEQ` (R571). -/
abbrev Par.systemJournalSeq : Nat := 0xE105
/-- `SYSTEM.JOURNAL_USED` (R571). -/
abbrev Par.systemJournalUsed : Nat := 0xE106
/-- `SYSTEM.MEM_CE` (R571). -/
abbrev Par.systemMemCe : Nat := 0xE108
/-- `SYSTEM.MEM_UE` (R571). -/
abbrev Par.systemMemUe : Nat := 0xE109
/-- `SYSTEM.MEM_LAST_ADDR` (R571). -/
abbrev Par.systemMemLastAddr : Nat := 0xE10A
/-- `SYSTEM.MEM_CLAIMED` (R571). -/
abbrev Par.systemMemClaimed : Nat := 0xE10B
/-- `SYSTEM.FW_BANK` (R571). -/
abbrev Par.systemFwBank : Nat := 0xE110
/-- `SYSTEM.FW_STATE` (R571). -/
abbrev Par.systemFwState : Nat := 0xE111
/-- `SYSTEM.FW_SVN` (R571). -/
abbrev Par.systemFwSvn : Nat := 0xE112
/-- `SYSTEM.FW_NEXT` (R571). -/
abbrev Par.systemFwNext : Nat := 0xE113
/-- `SYSTEM.FW_FAILS` (R571). -/
abbrev Par.systemFwFails : Nat := 0xE114
/-- `SYSTEM.FW_MIN_SVN` (R571). -/
abbrev Par.systemFwMinSvn : Nat := 0xE115
/-- `SYSTEM.LIFECYCLE` (R571). -/
abbrev Par.systemLifecycle : Nat := 0xE118
/-- `SYSTEM.BOOT_STAGE` (R588). -/
abbrev Par.systemBootStage : Nat := 0x0000
/-- `SYSTEM.RESET_CAUSE` (R588). -/
abbrev Par.systemResetCause : Nat := 0x0001
/-- `SYSTEM.RESET_COUNT` (R588). -/
abbrev Par.systemResetCount : Nat := 0x0002
/-- `SYSTEM.BOOT_TIME` (R588). -/
abbrev Par.systemBootTime : Nat := 0x0003
/-- `SYSTEM.DIE_INDEX` (R588). -/
abbrev Par.systemDieIndex : Nat := 0x0004
/-- `SYSTEM.SERIAL` (R588). -/
abbrev Par.systemSerial : Nat := 0x0005
/-- `SYSTEM.SUPPLY_MV` (R588). -/
abbrev Par.systemSupplyMv : Nat := 0x0006
/-- `SYSTEM.DIE_TEMP` (R588). -/
abbrev Par.systemDieTemp : Nat := 0x0007
/-- `PROBE.POINT` (R602). -/
abbrev Par.probePoint : Nat := 0xF000
/-- `PROBE.INVERT` (R602). -/
abbrev Par.probeInvert : Nat := 0xF001

/-- Parameters of group 0x0. -/
def paramsSystem : List ParamRow := [
  ⟨Par.systemQuotaHandles, some .system, false, 16, 4099, .rw, .profile, 0, .within [(0, 3840)]⟩,
  ⟨Par.systemQuotaTasks, some .system, false, 16, 4099, .rw, .profile, 0, .within [(0, 1024)]⟩,
  ⟨Par.systemQuotaBulk, some .system, false, 16, 4099, .rw, .profile, 0, .within [(0, 256)]⟩,
  ⟨Par.systemUseHandles, some .system, false, 16, 4099, .ro, .fixed, 0, .any⟩,
  ⟨Par.systemUseTasks, some .system, false, 16, 4099, .ro, .fixed, 0, .any⟩,
  ⟨Par.systemUseActions, some .system, false, 16, 4099, .ro, .fixed, 0, .any⟩,
  ⟨Par.systemFreeSlots, some .system, false, 16, 0, .ro, .fixed, 0, .any⟩,
  ⟨Par.systemFreeActions, some .system, false, 16, 0, .ro, .fixed, 0, .any⟩,
  ⟨Par.systemCmdTimeout, some .system, false, 32, 0, .rw, .profile, 10000, .within [(100, 1000000)]⟩,
  ⟨Par.systemLateReplies, some .system, false, 32, 0, .w1c, .fixed, 0, .any⟩,
  ⟨Par.systemEvtDropped, some .system, false, 32, 0, .w1c, .fixed, 0, .any⟩,
  ⟨Par.systemBootStage, some .system, false, 8, 0, .ro, .fixed, 0, .any⟩,
  ⟨Par.systemResetCause, some .system, false, 8, 0, .ro, .fixed, 0, .any⟩,
  ⟨Par.systemResetCount, some .system, false, 32, 0, .ro, .fixed, 0, .any⟩,
  ⟨Par.systemBootTime, some .system, false, 32, 0, .ro, .fixed, 0, .any⟩,
  ⟨Par.systemDieIndex, some .system, false, 8, 0, .ro, .fixed, 0, .any⟩,
  ⟨Par.systemSerial, some .system, false, 64, 0, .ro, .fixed, 0, .any⟩,
  ⟨Par.systemSupplyMv, some .system, false, 16, 4, .ro, .fixed, 0, .any⟩,
  ⟨Par.systemDieTemp, some .system, true, 16, 0, .ro, .fixed, 0, .any⟩]

/-- Parameters of group 0x1. -/
def paramsObject : List ParamRow := [
  ⟨Par.objectState, none, false, 8, 0, .ro, .fixed, 0, .any⟩,
  ⟨Par.objectOwner, none, false, 16, 0, .ro, .fixed, 0, .any⟩,
  ⟨Par.objectEvtRoute, none, false, 32, 0, .rw, .kept, 0, .special⟩,
  ⟨Par.objectEvtMask, none, false, 64, 0, .rw, .kept, 0, .any⟩,
  ⟨Par.queueIndex, some .queue, false, 8, 0, .ro, .fixed, 0, .any⟩,
  ⟨Par.queueCmdBase, some .queue, false, 64, 0, .rwl, .fixed, 0, .step 4096 0 18446744073709551615⟩,
  ⟨Par.queueCmdSize, some .queue, false, 32, 0, .rwl, .fixed, 4096, .pow2 4096 1048576⟩,
  ⟨Par.queueRplBase, some .queue, false, 64, 0, .rwl, .fixed, 0, .step 4096 0 18446744073709551615⟩,
  ⟨Par.queueRplSize, some .queue, false, 16, 0, .rwl, .fixed, 32, .pow2 32 32768⟩,
  ⟨Par.queueIdxAddr, some .queue, false, 64, 0, .rwl, .fixed, 0, .step 8 0 18446744073709551615⟩,
  ⟨Par.queueOwed, some .queue, false, 16, 0, .ro, .fixed, 0, .any⟩,
  ⟨Par.queueFetched, some .queue, false, 32, 0, .ro, .fixed, 0, .any⟩]

/-- Parameters of group 0x3. -/
def paramsVernier : List ParamRow := [
  ⟨Par.fbkType, some .fbk, false, 8, 0, .ro, .fixed, 0, .any⟩,
  ⟨Par.fbkChan, some .fbk, false, 8, 0, .ro, .fixed, 0, .any⟩,
  ⟨Par.fbkState, some .fbk, false, 8, 0, .ro, .fixed, 0, .any⟩,
  ⟨Par.fbkStartState, some .fbk, false, 8, 0, .rw, .kept, 0, .within [(0, 0), (1, 1)]⟩,
  ⟨Par.fbkDir, some .fbk, false, 8, 0, .rwl, .kept, 0, .within [(0, 0), (1, 1)]⟩,
  ⟨Par.fbkLines, some .fbk, false, 32, 0, .rwl, .kept, 0, .within [(0, 2147483648)]⟩,
  ⟨Par.fbkInterp, some .fbk, false, 32, 0, .rwl, .kept, 4, .special⟩,
  ⟨Par.fbkTerm, some .fbk, false, 8, 0, .rwl, .kept, 1, .within [(0, 0), (1, 1)]⟩,
  ⟨Par.fbkExtrap, some .fbk, false, 8, 0, .rw, .kept, 1, .within [(0, 0), (1, 1)]⟩,
  ⟨Par.fbkPosition, some .fbk, true, 64, 0, .ro, .fixed, 0, .any⟩,
  ⟨Par.fbkPosFrac, some .fbk, false, 32, 0, .ro, .fixed, 0, .any⟩,
  ⟨Par.fbkSpeed, some .fbk, true, 64, 0, .ro, .fixed, 0, .any⟩,
  ⟨Par.fbkStatus, some .fbk, false, 16, 0, .ro, .fixed, 0, .any⟩,
  ⟨Par.fbkRawCount, some .fbk, true, 64, 0, .ro, .fixed, 0, .any⟩,
  ⟨Par.fbkSpeedSwitch, some .fbk, false, 16, 0, .rw, .kept, 8, .within [(1, 4096)]⟩,
  ⟨Par.fbkSpeedTimeout, some .fbk, false, 32, 0, .rw, .kept, 20000, .within [(100, 10000000)]⟩,
  ⟨Par.fbkStillBand, some .fbk, false, 16, 0, .rw, .kept, 2, .within [(1, 256)]⟩,
  ⟨Par.fbkSpeedAvg, some .fbk, false, 8, 0, .rw, .kept, 0, .within [(0, 4)]⟩,
  ⟨Par.fbkSinOffset, some .fbk, true, 16, 0, .rw, .kept, 0, .within [(-4096, 4096)]⟩,
  ⟨Par.fbkCosOffset, some .fbk, true, 16, 0, .rw, .kept, 0, .within [(-4096, 4096)]⟩,
  ⟨Par.fbkCosGain, some .fbk, false, 16, 0, .rw, .kept, 16384, .within [(8192, 32767)]⟩,
  ⟨Par.fbkPhaseCorr, some .fbk, true, 16, 0, .rw, .kept, 0, .within [(-4096, 4096)]⟩,
  ⟨Par.fbkAmpLow, some .fbk, false, 16, 0, .rw, .kept, 1475, .within [(0, 65535)]⟩,
  ⟨Par.fbkAmpHigh, some .fbk, false, 16, 0, .rw, .kept, 6922, .within [(0, 65535)]⟩,
  ⟨Par.fbkAmpFilt, some .fbk, false, 16, 0, .rw, .kept, 16, .within [(1, 1024)]⟩,
  ⟨Par.fbkAmpNow, some .fbk, false, 16, 0, .ro, .fixed, 0, .any⟩,
  ⟨Par.fbkAmpMin, some .fbk, false, 16, 0, .ro, .fixed, 65535, .any⟩,
  ⟨Par.fbkAmpMax, some .fbk, false, 16, 0, .ro, .fixed, 0, .any⟩,
  ⟨Par.fbkExtremes, some .fbk, true, 16, 4, .ro, .fixed, 32767, .any⟩,
  ⟨Par.fbkStatsReset, some .fbk, false, 8, 0, .wo, .fixed, 0, .within [(1, 1)]⟩]

/-- Parameters of group 0x3, continued. -/
def paramsVernier1 : List ParamRow := [
  ⟨Par.fbkEdgeMin, some .fbk, false, 16, 0, .rw, .kept, 100, .within [(20, 65535)]⟩,
  ⟨Par.fbkEdgeFastCount, some .fbk, false, 32, 0, .ro, .fixed, 0, .any⟩,
  ⟨Par.fbkHallOrder, some .fbk, false, 8, 0, .rwl, .kept, 0, .within [(0, 0), (1, 1)]⟩,
  ⟨Par.fbkHallCode, some .fbk, false, 8, 0, .ro, .fixed, 0, .any⟩,
  ⟨Par.fbkHallBadCount, some .fbk, false, 32, 0, .ro, .fixed, 0, .any⟩,
  ⟨Par.fbkIndexTol, some .fbk, false, 16, 0, .rw, .kept, 4, .within [(0, 65535)]⟩,
  ⟨Par.fbkIndexAction, some .fbk, false, 8, 0, .rw, .kept, 0, .within [(0, 0), (1, 1)]⟩,
  ⟨Par.fbkIndexGate, some .fbk, false, 8, 0, .rwl, .kept, 0, .within [(0, 4)]⟩,
  ⟨Par.fbkIndexPos, some .fbk, true, 64, 0, .ro, .fixed, 0, .any⟩,
  ⟨Par.fbkIndexDelta, some .fbk, true, 64, 0, .ro, .fixed, 0, .any⟩,
  ⟨Par.fbkSsiBits, some .fbk, false, 8, 0, .rwl, .kept, 25, .within [(8, 48)]⟩,
  ⟨Par.fbkSsiPosLsb, some .fbk, false, 8, 0, .rwl, .kept, 0, .within [(0, 40)]⟩,
  ⟨Par.fbkSsiPosWidth, some .fbk, false, 8, 0, .rwl, .kept, 25, .within [(8, 40)]⟩,
  ⟨Par.fbkSsiErrBit, some .fbk, false, 8, 0, .rwl, .kept, 255, .within [(0, 47), (255, 255)]⟩,
  ⟨Par.fbkSsiCode, some .fbk, false, 8, 0, .rwl, .kept, 1, .within [(0, 0), (1, 1)]⟩,
  ⟨Par.fbkSsiClock, some .fbk, false, 32, 0, .rwl, .kept, 1000000, .within [(100000, 10000000)]⟩,
  ⟨Par.fbkSsiPeriod, some .fbk, false, 8, 0, .rwl, .kept, 4, .within [(1, 16)]⟩,
  ⟨Par.fbkSsiMono, some .fbk, false, 16, 0, .rwl, .kept, 20, .within [(1, 1000)]⟩,
  ⟨Par.fbkSsiJump, some .fbk, false, 32, 0, .rw, .kept, 0, .within [(0, 2147483648)]⟩]

/-- Parameters of group 0x4. -/
def paramsEphemeris : List ParamRow := [
  ⟨Par.axisRateClass, some .axis, false, 8, 0, .rwl, .kept, 1, .within [(0, 4)]⟩,
  ⟨Par.axisFbk, some .axis, false, 32, 0, .rwl, .kept, 0, .handle [.fbk] true⟩,
  ⟨Par.axisLgrp, some .axis, false, 32, 0, .rwl, .kept, 0, .handle [.lgrp] true⟩,
  ⟨Par.axisLgrpIndex, some .axis, false, 8, 0, .rwl, .kept, 0, .within [(0, 3)]⟩,
  ⟨Par.axisStandstill, some .axis, false, 8, 0, .rw, .kept, 0, .within [(0, 0), (1, 1)]⟩,
  ⟨Par.axisSs1Source, some .axis, false, 8, 0, .rw, .kept, 3, .within [(0, 3)]⟩,
  ⟨Par.axisFbkAction, some .axis, false, 8, 0, .rw, .kept, 1, .within [(0, 2)]⟩,
  ⟨Par.axisProfVel, some .axis, true, 64, 0, .rw, .kept, 0, .within [(0, 9223372036854775807)]⟩,
  ⟨Par.axisVelLimit, some .axis, true, 64, 0, .rw, .kept, 0, .within [(0, 9223372036854775807)]⟩,
  ⟨Par.axisAccel, some .axis, false, 64, 0, .rw, .kept, 0, .any⟩,
  ⟨Par.axisDecel, some .axis, false, 64, 0, .rw, .kept, 0, .any⟩,
  ⟨Par.axisJerk, some .axis, false, 64, 0, .rw, .kept, 0, .any⟩,
  ⟨Par.axisQuickDecel, some .axis, false, 64, 0, .rw, .kept, 0, .any⟩,
  ⟨Par.axisQuickJerk, some .axis, false, 64, 0, .rw, .kept, 0, .any⟩,
  ⟨Par.axisSoftMin, some .axis, true, 64, 0, .rw, .kept, -9223372036854775808, .any⟩,
  ⟨Par.axisSoftMax, some .axis, true, 64, 0, .rw, .kept, 9223372036854775807, .any⟩,
  ⟨Par.axisSoftEn, some .axis, false, 8, 0, .rw, .kept, 0, .within [(0, 0), (1, 1)]⟩,
  ⟨Par.axisInposWindow, some .axis, false, 32, 0, .rw, .kept, 16, .within [(0, 2147483648)]⟩,
  ⟨Par.axisInposTime, some .axis, false, 16, 0, .rw, .kept, 4, .within [(1, 65535)]⟩,
  ⟨Par.axisMode, some .axis, false, 8, 0, .ro, .fixed, 0, .any⟩,
  ⟨Par.axisSetPos, some .axis, true, 64, 0, .ro, .fixed, 0, .any⟩,
  ⟨Par.axisSetFrac, some .axis, false, 32, 0, .ro, .fixed, 0, .any⟩,
  ⟨Par.axisSetVel, some .axis, true, 64, 0, .ro, .fixed, 0, .any⟩,
  ⟨Par.axisSetAcc, some .axis, true, 64, 0, .ro, .fixed, 0, .any⟩,
  ⟨Par.axisTarget, some .axis, true, 64, 0, .ro, .fixed, 0, .any⟩,
  ⟨Par.axisTargetFrac, some .axis, false, 32, 0, .ro, .fixed, 0, .any⟩,
  ⟨Par.axisTargetVel, some .axis, true, 64, 0, .ro, .fixed, 0, .any⟩,
  ⟨Par.axisFlags, some .axis, false, 8, 0, .w1c, .fixed, 0, .any⟩,
  ⟨Par.axisStopCause, some .axis, false, 8, 0, .ro, .fixed, 0, .any⟩,
  ⟨Par.axisPath, some .axis, false, 32, 0, .ro, .fixed, 0, .any⟩]

/-- Parameters of group 0x4, continued. -/
def paramsEphemeris1 : List ParamRow := [
  ⟨Par.axisEpoch, some .axis, false, 16, 0, .ro, .fixed, 0, .any⟩,
  ⟨Par.pathRateClass, some .path, false, 8, 0, .rwl, .kept, 1, .within [(0, 4)]⟩,
  ⟨Par.pathMember, some .path, false, 32, 8, .rwl, .kept, 0, .handle [.axis] true⟩,
  ⟨Par.pathScale, some .path, false, 64, 8, .rwl, .kept, 4294967296, .within [(1, 18446744073709551615)]⟩,
  ⟨Par.pathVel, some .path, true, 64, 0, .rw, .kept, 0, .within [(0, 9223372036854775807)]⟩,
  ⟨Par.pathAccel, some .path, false, 64, 0, .rw, .kept, 0, .any⟩,
  ⟨Par.pathDecel, some .path, false, 64, 0, .rw, .kept, 0, .any⟩,
  ⟨Par.pathJerk, some .path, false, 64, 0, .rw, .kept, 0, .any⟩,
  ⟨Par.pathQuickDecel, some .path, false, 64, 0, .rw, .kept, 0, .any⟩,
  ⟨Par.pathBlendTol, some .path, false, 32, 0, .rw, .kept, 0, .any⟩,
  ⟨Par.pathLookahead, some .path, false, 8, 0, .rw, .kept, 16, .within [(2, 32)]⟩,
  ⟨Par.pathFeedScale, some .path, false, 16, 0, .rw, .kept, 1000, .within [(0, 2000)]⟩,
  ⟨Par.pathArcTol, some .path, false, 32, 0, .rw, .kept, 10, .any⟩,
  ⟨Par.pathMode, some .path, false, 8, 0, .ro, .fixed, 0, .any⟩,
  ⟨Par.pathQueued, some .path, false, 8, 0, .ro, .fixed, 0, .any⟩,
  ⟨Par.pathSegId, some .path, false, 16, 0, .ro, .fixed, 0, .any⟩,
  ⟨Par.pathSegDone, some .path, false, 32, 0, .ro, .fixed, 0, .any⟩,
  ⟨Par.pathSpeed, some .path, true, 64, 0, .ro, .fixed, 0, .any⟩,
  ⟨Par.axisHorizon, some .axis, false, 16, 0, .rwl, .kept, 64, .within [(4, 512)]⟩,
  ⟨Par.axisCommitDist, some .axis, false, 16, 0, .rwl, .kept, 32, .within [(4, 512)]⟩,
  ⟨Par.axisCommitNow, some .axis, false, 16, 0, .ro, .fixed, 0, .any⟩,
  ⟨Par.axisMasterTol, some .axis, false, 32, 0, .rw, .kept, 64, .within [(0, 2147483648)]⟩,
  ⟨Par.axisPredLimit, some .axis, false, 16, 0, .rw, .kept, 16, .within [(1, 512)]⟩,
  ⟨Par.axisCatchupVel, some .axis, true, 64, 0, .rw, .kept, 0, .within [(0, 9223372036854775807)]⟩,
  ⟨Par.axisCatchupAcc, some .axis, false, 64, 0, .rw, .kept, 0, .any⟩,
  ⟨Par.axisRaFlags, some .axis, false, 8, 0, .w1c, .fixed, 0, .any⟩,
  ⟨Par.axisEpochCount, some .axis, false, 32, 0, .ro, .fixed, 0, .any⟩,
  ⟨Par.axisEpochCause, some .axis, false, 8, 0, .ro, .fixed, 0, .any⟩,
  ⟨Par.axisLateCount, some .axis, false, 32, 0, .ro, .fixed, 0, .any⟩,
  ⟨Par.axisRefineCount, some .axis, false, 32, 0, .ro, .fixed, 0, .any⟩]

/-- Parameters of group 0x4, continued. -/
def paramsEphemeris2 : List ParamRow := [
  ⟨Par.axisStaleRecords, some .axis, false, 32, 0, .ro, .fixed, 0, .any⟩]

/-- Parameters of group 0x5. -/
def paramsOrrery : List ParamRow := [
  ⟨Par.gearMaster, some .gear, false, 32, 0, .rwl, .kept, 0, .handle [.axis, .fbk] true⟩,
  ⟨Par.gearSlave, some .gear, false, 32, 0, .rwl, .kept, 0, .handle [.axis] true⟩,
  ⟨Par.gearNum, some .gear, true, 32, 0, .rwl, .kept, 1, .any⟩,
  ⟨Par.gearDen, some .gear, false, 32, 0, .rwl, .kept, 1, .within [(1, 4294967295)]⟩,
  ⟨Par.gearCam, some .gear, false, 32, 0, .rwl, .kept, 0, .handle [.cam] true⟩,
  ⟨Par.gearEngage, some .gear, false, 8, 0, .rwl, .kept, 0, .within [(0, 0), (1, 1)]⟩,
  ⟨Par.gearMasterRef, some .gear, true, 64, 0, .rwl, .kept, 0, .any⟩,
  ⟨Par.gearSlaveRef, some .gear, true, 64, 0, .rwl, .kept, 0, .any⟩,
  ⟨Par.gearNumNow, some .gear, true, 32, 0, .ro, .fixed, 0, .any⟩,
  ⟨Par.gearDenNow, some .gear, false, 32, 0, .ro, .fixed, 0, .any⟩,
  ⟨Par.gearState, some .gear, false, 8, 0, .ro, .fixed, 0, .any⟩,
  ⟨Par.gearArmed, some .gear, false, 8, 0, .ro, .fixed, 0, .any⟩,
  ⟨Par.gearCamNow, some .gear, false, 32, 0, .ro, .fixed, 0, .any⟩,
  ⟨Par.gearCycles, some .gear, true, 64, 0, .ro, .fixed, 0, .any⟩,
  ⟨Par.camPoints, some .cam, false, 16, 0, .ro, .fixed, 0, .any⟩,
  ⟨Par.camAddr, some .cam, false, 32, 0, .ro, .fixed, 0, .any⟩,
  ⟨Par.camBytes, some .cam, false, 32, 0, .ro, .fixed, 0, .any⟩,
  ⟨Par.camPoolFree, some .cam, false, 32, 0, .ro, .fixed, 0, .any⟩,
  ⟨Par.camWriteRejects, some .cam, false, 32, 0, .w1c, .fixed, 0, .any⟩,
  ⟨Par.evtSource, some .evt, false, 32, 0, .rwl, .kept, 0, .handle [.axis, .fbk] false⟩,
  ⟨Par.evtDir, some .evt, false, 8, 0, .rw, .kept, 0, .within [(0, 2)]⟩,
  ⟨Par.evtLatePolicy, some .evt, false, 8, 0, .rw, .kept, 0, .within [(0, 0), (1, 1)]⟩,
  ⟨Par.evtDest, some .evt, false, 16, 0, .rwl, .kept, 0, .special⟩,
  ⟨Par.evtAction, some .evt, false, 8, 0, .rw, .kept, 0, .within [(0, 3)]⟩,
  ⟨Par.evtPulseNs, some .evt, false, 32, 0, .rw, .kept, 1000, .within [(20, 10000000)]⟩,
  ⟨Par.evtLeadNs, some .evt, true, 32, 0, .rw, .kept, 0, .within [(-1000000, 1000000)]⟩,
  ⟨Par.evtNotify, some .evt, false, 8, 0, .rw, .kept, 1, .within [(0, 0), (1, 1)]⟩,
  ⟨Par.evtState, some .evt, false, 8, 0, .ro, .fixed, 0, .any⟩,
  ⟨Par.evtNextPos, some .evt, true, 64, 0, .ro, .fixed, 0, .any⟩,
  ⟨Par.evtRemain, some .evt, false, 32, 0, .ro, .fixed, 0, .any⟩]

/-- Parameters of group 0x5, continued. -/
def paramsOrrery1 : List ParamRow := [
  ⟨Par.evtFireCount, some .evt, false, 32, 0, .ro, .fixed, 0, .any⟩,
  ⟨Par.evtMissedCount, some .evt, false, 32, 0, .ro, .fixed, 0, .any⟩,
  ⟨Par.evtFlags, some .evt, false, 8, 0, .w1c, .fixed, 0, .any⟩,
  ⟨Par.captTrigger, some .capt, false, 16, 0, .rwl, .kept, 0, .special⟩,
  ⟨Par.captEdge, some .capt, false, 8, 0, .rw, .kept, 1, .within [(1, 3)]⟩,
  ⟨Par.captSource, some .capt, false, 32, 2, .rwl, .kept, 0, .handle [.axis, .fbk] true⟩,
  ⟨Par.captMode, some .capt, false, 8, 0, .rw, .kept, 1, .within [(0, 0), (1, 1)]⟩,
  ⟨Par.captFilterNs, some .capt, false, 16, 0, .rw, .kept, 0, .within [(0, 65535)]⟩,
  ⟨Par.captHoldoffNs, some .capt, false, 32, 0, .rw, .kept, 1000, .within [(1000, 1000000000)]⟩,
  ⟨Par.captWinMin, some .capt, true, 64, 0, .rw, .kept, -9223372036854775808, .any⟩,
  ⟨Par.captWinMax, some .capt, true, 64, 0, .rw, .kept, 9223372036854775807, .any⟩,
  ⟨Par.captLastPos, some .capt, true, 64, 2, .ro, .fixed, 0, .any⟩,
  ⟨Par.captLastTime, some .capt, false, 64, 0, .ro, .fixed, 0, .any⟩,
  ⟨Par.captCount, some .capt, false, 32, 0, .ro, .fixed, 0, .any⟩,
  ⟨Par.captArmed, some .capt, false, 8, 0, .ro, .fixed, 0, .any⟩,
  ⟨Par.lclkOutput, some .lclk, false, 8, 0, .ro, .fixed, 0, .any⟩,
  ⟨Par.lclkSource, some .lclk, false, 32, 0, .rwl, .kept, 0, .handle [.axis, .fbk] false⟩,
  ⟨Par.lclkPitchNum, some .lclk, false, 64, 0, .rwl, .kept, 1, .within [(1, 281474976710656)]⟩,
  ⟨Par.lclkPitchDen, some .lclk, false, 32, 0, .rwl, .kept, 1, .within [(1, 4294967295)]⟩,
  ⟨Par.lclkDir, some .lclk, false, 8, 0, .rwl, .kept, 1, .within [(1, 1), (2, 2)]⟩,
  ⟨Par.lclkPosDelay, some .lclk, true, 64, 0, .rw, .kept, 0, .any⟩,
  ⟨Par.lclkPosDelayFrac, some .lclk, false, 32, 0, .rw, .kept, 0, .any⟩,
  ⟨Par.lclkTimeDelay, some .lclk, true, 32, 0, .rw, .kept, 0, .within [(-50000, 50000)]⟩,
  ⟨Par.lclkWidth, some .lclk, false, 16, 0, .rw, .kept, 200, .within [(20, 65535)]⟩,
  ⟨Par.lclkPolarity, some .lclk, false, 8, 0, .rwl, .kept, 0, .within [(0, 0), (1, 1)]⟩,
  ⟨Par.lclkRegSlew, some .lclk, false, 32, 0, .rw, .kept, 0, .any⟩,
  ⟨Par.lclkMinSpacing, some .lclk, false, 16, 0, .rw, .kept, 500, .within [(500, 65535)]⟩,
  ⟨Par.lclkPredLimit, some .lclk, false, 16, 0, .rw, .kept, 16, .within [(1, 512)]⟩,
  ⟨Par.lclkLineIndex, some .lclk, true, 64, 0, .ro, .fixed, 0, .any⟩,
  ⟨Par.lclkLinesLeft, some .lclk, false, 32, 0, .ro, .fixed, 0, .any⟩]

/-- Parameters of group 0x5, continued. -/
def paramsOrrery2 : List ParamRow := [
  ⟨Par.lclkDropped, some .lclk, false, 32, 0, .w1c, .fixed, 0, .any⟩,
  ⟨Par.lclkFlags, some .lclk, false, 8, 0, .w1c, .fixed, 0, .any⟩,
  ⟨Par.lclkOrigin, some .lclk, true, 64, 0, .ro, .fixed, 0, .any⟩,
  ⟨Par.lclkPosDelayNow, some .lclk, true, 64, 0, .ro, .fixed, 0, .any⟩]

/-- Parameters of group 0x6. -/
def paramsLoop : List ParamRow := [
  ⟨Par.lgrpRateClass, some .lgrp, false, 8, 0, .rwl, .kept, 0, .within [(0, 4)]⟩,
  ⟨Par.lgrpEngine, some .lgrp, false, 8, 0, .ro, .fixed, 0, .any⟩,
  ⟨Par.lgrpDims, some .lgrp, false, 32, 0, .ro, .fixed, 0, .any⟩,
  ⟨Par.lgrpOuterDims, some .lgrp, false, 32, 0, .rwl, .kept, 0, .special⟩,
  ⟨Par.lgrpOuterDiv, some .lgrp, false, 8, 0, .rwl, .kept, 1, .within [(1, 1), (2, 2), (4, 4)]⟩,
  ⟨Par.lgrpAxes, some .lgrp, false, 8, 0, .ro, .fixed, 0, .any⟩,
  ⟨Par.lgrpCycles, some .lgrp, false, 32, 0, .ro, .fixed, 0, .any⟩,
  ⟨Par.lgrpEngineLoad, some .lgrp, false, 32, 0, .ro, .fixed, 0, .any⟩,
  ⟨Par.lgrpBankBytes, some .lgrp, false, 16, 0, .ro, .fixed, 0, .any⟩,
  ⟨Par.lgrpYSrc, some .lgrp, false, 32, 32, .rwl, .kept, 0, .special⟩,
  ⟨Par.lgrpYGain, some .lgrp, true, 32, 32, .rw, .kept, 0, .any⟩,
  ⟨Par.lgrpYShift, some .lgrp, false, 8, 32, .rw, .kept, 0, .within [(0, 63)]⟩,
  ⟨Par.lgrpZSrc, some .lgrp, false, 32, 32, .rwl, .kept, 0, .special⟩,
  ⟨Par.lgrpZGain, some .lgrp, true, 32, 32, .rw, .kept, 0, .any⟩,
  ⟨Par.lgrpZShift, some .lgrp, false, 8, 32, .rw, .kept, 0, .within [(0, 63)]⟩,
  ⟨Par.lgrpUDst, some .lgrp, false, 32, 32, .rwl, .kept, 0, .special⟩,
  ⟨Par.lgrpUGain, some .lgrp, true, 32, 32, .rw, .kept, 0, .any⟩,
  ⟨Par.lgrpUOffset, some .lgrp, true, 32, 32, .rw, .kept, 0, .any⟩,
  ⟨Par.lgrpRef, some .lgrp, true, 16, 16, .rw, .kept, 0, .any⟩,
  ⟨Par.lgrpBumpless, some .lgrp, false, 8, 0, .rw, .kept, 1, .within [(0, 0), (1, 1)]⟩,
  ⟨Par.lgrpActiveBank, some .lgrp, false, 8, 0, .ro, .fixed, 0, .any⟩,
  ⟨Par.lgrpSwapPending, some .lgrp, false, 8, 0, .ro, .fixed, 0, .any⟩,
  ⟨Par.lgrpBankStatus, some .lgrp, false, 8, 0, .ro, .fixed, 0, .any⟩,
  ⟨Par.lgrpFeLimit, some .lgrp, false, 32, 4, .rw, .kept, 0, .within [(0, 2147483648)]⟩,
  ⟨Par.lgrpFeTime, some .lgrp, false, 16, 4, .rw, .kept, 8, .within [(1, 65535)]⟩,
  ⟨Par.lgrpFeAction, some .lgrp, false, 8, 0, .rw, .kept, 0, .within [(0, 0), (1, 1)]⟩,
  ⟨Par.lgrpFeNow, some .lgrp, true, 64, 4, .ro, .fixed, 0, .any⟩,
  ⟨Par.lgrpSettle, some .lgrp, false, 16, 0, .rw, .kept, 16, .within [(1, 65535)]⟩,
  ⟨Par.lgrpSatFlags, some .lgrp, false, 16, 0, .ro, .fixed, 0, .any⟩,
  ⟨Par.lgrpXsatAction, some .lgrp, false, 8, 0, .rw, .kept, 0, .within [(0, 0), (1, 1)]⟩]

/-- Parameters of group 0x6, continued. -/
def paramsLoop1 : List ParamRow := [
  ⟨Par.lgrpSatCount, some .lgrp, false, 32, 0, .ro, .fixed, 0, .any⟩,
  ⟨Par.lgrpState, some .lgrp, true, 32, 32, .ro, .fixed, 0, .any⟩,
  ⟨Par.lgrpUNow, some .lgrp, true, 16, 32, .ro, .fixed, 0, .any⟩,
  ⟨Par.lgrpYNow, some .lgrp, true, 16, 32, .ro, .fixed, 0, .any⟩,
  ⟨Par.lgrpQNow, some .lgrp, true, 32, 32, .ro, .fixed, 0, .any⟩,
  ⟨Par.lgrpListMode, some .lgrp, false, 8, 0, .rwl, .kept, 0, .within [(0, 0), (1, 1)]⟩,
  ⟨Par.lgrpHostBankBytes, some .lgrp, false, 16, 0, .rwl, .kept, 40, .step 8 40 65528⟩,
  ⟨Par.lgrpDataBytes, some .lgrp, false, 16, 0, .rwl, .kept, 0, .step 8 0 32768⟩,
  ⟨Par.lgrpListSteps, some .lgrp, false, 16, 32, .ro, .fixed, 0, .any⟩,
  ⟨Par.lgrpListCheck, some .lgrp, false, 32, 0, .ro, .fixed, 0, .any⟩,
  ⟨Par.lgrpParkCount, some .lgrp, false, 32, 0, .ro, .fixed, 0, .any⟩,
  ⟨Par.lgrpStartDelayMax, some .lgrp, false, 16, 0, .ro, .fixed, 0, .any⟩,
  ⟨Par.traceGroup, some .trace, false, 32, 0, .rwl, .kept, 0, .handle [.lgrp] true⟩,
  ⟨Par.traceSelect, some .trace, false, 16, 16, .rwl, .kept, 0, .special⟩,
  ⟨Par.traceDepth, some .trace, false, 32, 0, .rwl, .kept, 1024, .pow2 16 65536⟩,
  ⟨Par.traceDecim, some .trace, false, 16, 0, .rw, .kept, 1, .within [(1, 65535)]⟩,
  ⟨Par.traceMode, some .trace, false, 8, 0, .rwl, .kept, 0, .within [(0, 2)]⟩,
  ⟨Par.traceTrigFlags, some .trace, false, 16, 0, .rw, .kept, 0, .special⟩,
  ⟨Par.tracePost, some .trace, false, 32, 0, .rw, .kept, 512, .special⟩,
  ⟨Par.traceAddr, some .trace, false, 32, 0, .ro, .fixed, 0, .any⟩,
  ⟨Par.traceRecBytes, some .trace, false, 16, 0, .ro, .fixed, 0, .any⟩,
  ⟨Par.traceWriteIdx, some .trace, false, 32, 0, .ro, .fixed, 0, .any⟩,
  ⟨Par.traceState, some .trace, false, 8, 0, .ro, .fixed, 0, .any⟩,
  ⟨Par.traceTrigIdx, some .trace, false, 32, 0, .ro, .fixed, 0, .any⟩,
  ⟨Par.traceDropped, some .trace, false, 32, 0, .w1c, .fixed, 0, .any⟩]

/-- Parameters of group 0x7. -/
def paramsPwm : List ParamRow := [
  ⟨Par.pwmgPairs, some .pwmg, false, 16, 0, .ro, .fixed, 0, .any⟩,
  ⟨Par.pwmgMode, some .pwmg, false, 8, 0, .rwl, .kept, 0, .within [(0, 2)]⟩,
  ⟨Par.pwmgPrescale, some .pwmg, false, 16, 0, .rwl, .kept, 1, .within [(1, 256)]⟩,
  ⟨Par.pwmgPeriod, some .pwmg, false, 16, 0, .rw, .kept, 6400, .within [(1, 65535)]⟩,
  ⟨Par.pwmgPhase, some .pwmg, false, 32, 0, .rwl, .kept, 0, .special⟩,
  ⟨Par.pwmgOn, some .pwmg, false, 16, 12, .rw, .kept, 0, .within [(0, 65535)]⟩,
  ⟨Par.pwmgOff, some .pwmg, false, 16, 12, .rw, .kept, 0, .within [(0, 65535)]⟩,
  ⟨Par.pwmgDead, some .pwmg, false, 16, 12, .rw, .kept, 80, .within [(0, 1023)]⟩,
  ⟨Par.pwmgMinPulse, some .pwmg, false, 16, 0, .rwl, .kept, 40, .within [(0, 1023)]⟩,
  ⟨Par.pwmgSafe, some .pwmg, false, 8, 12, .rwl, .kept, 0, .within [(0, 2)]⟩,
  ⟨Par.pwmgPolarity, some .pwmg, false, 32, 0, .rwl, .kept, 0, .special⟩,
  ⟨Par.pwmgFaultSel, some .pwmg, false, 8, 0, .rwl, .kept, 15, .within [(0, 15)]⟩,
  ⟨Par.pwmgFaultMode, some .pwmg, false, 8, 0, .rwl, .kept, 0, .within [(0, 0), (1, 1)]⟩,
  ⟨Par.pwmgFaultFilt, some .pwmg, false, 8, 0, .rwl, .kept, 0, .within [(0, 255)]⟩,
  ⟨Par.pwmgTrigSrc, some .pwmg, false, 8, 2, .rw, .kept, 0, .within [(0, 15)]⟩,
  ⟨Par.pwmgTrigDiv, some .pwmg, false, 8, 2, .rw, .kept, 1, .within [(1, 16)]⟩,
  ⟨Par.pwmgCmpa, some .pwmg, false, 16, 0, .rw, .kept, 0, .within [(0, 65535)]⟩,
  ⟨Par.pwmgCmpb, some .pwmg, false, 16, 0, .rw, .kept, 0, .within [(0, 65535)]⟩,
  ⟨Par.pwmgLoadPending, some .pwmg, false, 8, 0, .ro, .fixed, 0, .any⟩,
  ⟨Par.pwmgFlags, some .pwmg, false, 8, 0, .w1c, .fixed, 0, .any⟩,
  ⟨Par.pwmgPeriodNow, some .pwmg, false, 32, 0, .ro, .fixed, 0, .any⟩,
  ⟨Par.pwmgOnNow, some .pwmg, false, 16, 12, .ro, .fixed, 0, .any⟩,
  ⟨Par.pwmgFaultIn, some .pwmg, false, 8, 0, .ro, .fixed, 0, .any⟩,
  ⟨Par.pwmgStretchCount, some .pwmg, false, 32, 0, .ro, .fixed, 0, .any⟩,
  ⟨Par.pwmgCycleFaults, some .pwmg, false, 32, 0, .ro, .fixed, 0, .any⟩,
  ⟨Par.sdinDecim, some .sdin, false, 16, 0, .rwl, .kept, 64, .pow2 4 256⟩,
  ⟨Par.sdinMode, some .sdin, false, 8, 0, .rwl, .kept, 0, .within [(0, 0), (1, 1)]⟩,
  ⟨Par.sdinTrigGroup, some .sdin, false, 32, 0, .rwl, .kept, 0, .handle [.pwmg] true⟩,
  ⟨Par.sdinTrig, some .sdin, false, 8, 0, .rwl, .kept, 0, .within [(0, 0), (1, 1)]⟩,
  ⟨Par.sdinSamplePhase, some .sdin, false, 8, 0, .rwl, .kept, 10, .within [(0, 19)]⟩]

/-- Parameters of group 0x7, continued. -/
def paramsPwm1 : List ParamRow := [
  ⟨Par.sdinClipLimit, some .sdin, false, 16, 0, .rw, .kept, 16, .within [(1, 65535)]⟩,
  ⟨Par.sdinResult, some .sdin, true, 32, 0, .ro, .fixed, 0, .any⟩,
  ⟨Par.sdinResultTime, some .sdin, false, 64, 0, .ro, .fixed, 0, .any⟩,
  ⟨Par.sdinFlags, some .sdin, false, 8, 0, .w1c, .fixed, 0, .any⟩,
  ⟨Par.dlaneAxes, some .dlane, false, 8, 0, .rwl, .kept, 1, .within [(1, 4)]⟩,
  ⟨Par.dlaneSlotMode, some .dlane, false, 8, 4, .rwl, .kept, 0, .within [(0, 2)]⟩,
  ⟨Par.dlaneSlotAxis, some .dlane, false, 32, 4, .rwl, .kept, 0, .handle [.axis] true⟩,
  ⟨Par.dlaneApplyAt, some .dlane, false, 16, 0, .rwl, .kept, 3000, .within [(500, 15000)]⟩,
  ⟨Par.dlaneSampleLead, some .dlane, false, 16, 0, .rwl, .kept, 6000, .within [(1000, 15000)]⟩,
  ⟨Par.dlaneStaleLimit, some .dlane, false, 8, 0, .rw, .kept, 3, .within [(1, 255)]⟩,
  ⟨Par.dlaneLossLimit, some .dlane, false, 16, 0, .rw, .kept, 16, .within [(2, 65535)]⟩,
  ⟨Par.dlaneTrainTimeout, some .dlane, false, 16, 0, .rw, .kept, 10, .within [(1, 1000)]⟩,
  ⟨Par.dlaneStageFaultAction, some .dlane, false, 8, 0, .rw, .kept, 1, .within [(0, 0), (1, 1)]⟩,
  ⟨Par.dlaneDrainFrames, some .dlane, false, 8, 0, .rw, .kept, 8, .within [(1, 255)]⟩,
  ⟨Par.dlaneIndexEn, some .dlane, false, 8, 0, .rwl, .kept, 0, .within [(0, 15)]⟩,
  ⟨Par.dlaneEcycle, some .dlane, false, 32, 4, .rwl, .kept, 1024, .within [(4, 2147483648)]⟩,
  ⟨Par.dlaneZero, some .dlane, true, 64, 4, .rw, .kept, 0, .any⟩,
  ⟨Par.dlaneARun, some .dlane, false, 16, 4, .rw, .kept, 0, .within [(0, 4095)]⟩,
  ⟨Par.dlaneAHold, some .dlane, false, 16, 4, .rw, .kept, 0, .within [(0, 4095)]⟩,
  ⟨Par.dlaneHoldDelay, some .dlane, false, 16, 4, .rw, .kept, 6250, .within [(0, 65535)]⟩,
  ⟨Par.dlaneTauNs, some .dlane, false, 32, 4, .rw, .kept, 0, .within [(0, 100000000)]⟩,
  ⟨Par.dlaneKBemf, some .dlane, false, 32, 4, .rw, .kept, 0, .any⟩,
  ⟨Par.dlaneAMax, some .dlane, false, 16, 4, .rw, .kept, 4095, .within [(0, 4095)]⟩,
  ⟨Par.dlaneLinkState, some .dlane, false, 8, 0, .ro, .fixed, 0, .any⟩,
  ⟨Par.dlaneDelayNs, some .dlane, false, 16, 0, .ro, .fixed, 0, .any⟩,
  ⟨Par.dlaneTurnNs, some .dlane, false, 16, 0, .ro, .fixed, 0, .any⟩,
  ⟨Par.dlaneUlStale, some .dlane, false, 8, 0, .ro, .fixed, 0, .any⟩,
  ⟨Par.dlaneUlCrcErrors, some .dlane, false, 32, 0, .w1c, .fixed, 0, .any⟩,
  ⟨Par.dlaneUlLate, some .dlane, false, 32, 0, .w1c, .fixed, 0, .any⟩,
  ⟨Par.dlaneSstat, some .dlane, false, 16, 4, .ro, .fixed, 0, .any⟩]

/-- Parameters of group 0x7, continued. -/
def paramsPwm2 : List ParamRow := [
  ⟨Par.dlaneUstat, some .dlane, false, 16, 0, .ro, .fixed, 0, .any⟩,
  ⟨Par.dlaneVbus, some .dlane, true, 16, 0, .ro, .fixed, 0, .any⟩,
  ⟨Par.dlaneFlags, some .dlane, false, 8, 0, .w1c, .fixed, 0, .any⟩]

/-- Parameters of group 0x8. -/
def paramsFieldIo : List ParamRow := [
  ⟨Par.fioConfig, some .fio, false, 8, 0, .rwl, .kept, 0, .within [(0, 3)]⟩,
  ⟨Par.fioSamplePeriod, some .fio, false, 16, 0, .rwl, .kept, 1000, .within [(0, 0), (50, 50), (100, 100), (200, 200), (250, 250), (500, 500), (1000, 1000), (2000, 2000)]⟩,
  ⟨Par.fioFilter, some .fio, false, 32, 0, .rw, .kept, 0, .within [(0, 1000000)]⟩,
  ⟨Par.fioInvert, some .fio, false, 8, 0, .rw, .kept, 0, .within [(0, 0), (1, 1)]⟩,
  ⟨Par.fioOpenWireEn, some .fio, false, 8, 0, .rw, .kept, 0, .within [(0, 0), (1, 1)]⟩,
  ⟨Par.fioNotify, some .fio, false, 8, 0, .rw, .kept, 0, .within [(0, 3)]⟩,
  ⟨Par.fioDriver, some .fio, false, 8, 0, .rwl, .kept, 0, .within [(0, 0), (1, 1)]⟩,
  ⟨Par.fioOut, some .fio, false, 8, 0, .rw, .fixed, 0, .within [(0, 0), (1, 1)]⟩,
  ⟨Par.fioOvlMode, some .fio, false, 8, 0, .rw, .kept, 0, .within [(0, 0), (1, 1)]⟩,
  ⟨Par.fioRetryMs, some .fio, false, 16, 0, .rw, .kept, 100, .within [(10, 10000)]⟩,
  ⟨Par.fioOutTest, some .fio, false, 8, 0, .rw, .kept, 0, .within [(0, 0), (1, 1)]⟩,
  ⟨Par.fioOpenLoadEn, some .fio, false, 8, 0, .rw, .kept, 0, .within [(0, 0), (1, 1)]⟩,
  ⟨Par.fioBlank, some .fio, false, 16, 0, .rw, .kept, 500, .within [(50, 65535)]⟩,
  ⟨Par.fioHoldMode, some .fio, false, 8, 0, .rw, .kept, 0, .within [(0, 0), (1, 1)]⟩,
  ⟨Par.fioHoldTimeout, some .fio, false, 16, 0, .rw, .kept, 1000, .within [(1, 65535)]⟩,
  ⟨Par.fioFallback, some .fio, false, 8, 0, .rw, .kept, 0, .within [(0, 0), (1, 1)]⟩,
  ⟨Par.fioIn, some .fio, false, 8, 0, .ro, .fixed, 0, .any⟩,
  ⟨Par.fioStatus, some .fio, false, 16, 0, .ro, .fixed, 0, .any⟩,
  ⟨Par.fioReadback, some .fio, false, 8, 0, .ro, .fixed, 0, .any⟩,
  ⟨Par.fioCurrent, some .fio, false, 16, 0, .ro, .fixed, 0, .any⟩,
  ⟨Par.fioOvlCount, some .fio, false, 32, 0, .ro, .fixed, 0, .any⟩,
  ⟨Par.fioLastEdge, some .fio, false, 64, 0, .ro, .fixed, 0, .any⟩,
  ⟨Par.fioEdgeCount, some .fio, false, 32, 0, .ro, .fixed, 0, .any⟩,
  ⟨Par.systemFieldMv, some .system, false, 16, 0, .ro, .fixed, 0, .any⟩,
  ⟨Par.systemFieldMa, some .system, false, 16, 0, .ro, .fixed, 0, .any⟩]

/-- Parameters of group 0x9. -/
def paramsSafety : List ParamRow := [
  ⟨Par.safeState, some .safe, false, 8, 0, .ro, .fixed, 0, .any⟩,
  ⟨Par.safeCfgCodes, some .safe, false, 64, 0, .ro, .fixed, 0, .any⟩,
  ⟨Par.safeUptime, some .safe, false, 32, 0, .ro, .fixed, 0, .any⟩,
  ⟨Par.safeSupplyMv, some .safe, false, 16, 0, .ro, .fixed, 0, .any⟩,
  ⟨Par.safeLogCount, some .safe, false, 32, 0, .ro, .fixed, 0, .any⟩,
  ⟨Par.safePairMode, some .safe, false, 8, 0, .ro, .fixed, 0, .any⟩,
  ⟨Par.safePairLevel, some .safe, false, 8, 0, .ro, .fixed, 0, .any⟩,
  ⟨Par.safePairFault, some .safe, false, 8, 0, .ro, .fixed, 0, .any⟩,
  ⟨Par.safeDemands, some .safe, false, 32, 0, .ro, .fixed, 0, .any⟩,
  ⟨Par.safeFnState, some .safe, false, 8, 0, .ro, .fixed, 0, .any⟩,
  ⟨Par.safeFnFault, some .safe, false, 8, 0, .ro, .fixed, 0, .any⟩,
  ⟨Par.safeOutLevel, some .safe, false, 8, 0, .ro, .fixed, 0, .any⟩,
  ⟨Par.safeBrkState, some .safe, false, 8, 0, .ro, .fixed, 0, .any⟩,
  ⟨Par.safeBrkMa, some .safe, false, 16, 0, .ro, .fixed, 0, .any⟩,
  ⟨Par.safeBrkFault, some .safe, false, 8, 0, .ro, .fixed, 0, .any⟩,
  ⟨Par.safeBrkTestAge, some .safe, false, 32, 0, .ro, .fixed, 0, .any⟩,
  ⟨Par.safeBrkTestDue, some .safe, false, 8, 0, .ro, .fixed, 0, .any⟩,
  ⟨Par.safeEdmLevel, some .safe, false, 8, 0, .ro, .fixed, 0, .any⟩,
  ⟨Par.safeEdmFault, some .safe, false, 8, 0, .ro, .fixed, 0, .any⟩]

/-- Parameters of group 0xA. -/
def paramsUsric : List ParamRow := [
  ⟨Par.portKind, some .port, false, 8, 0, .ro, .fixed, 0, .any⟩,
  ⟨Par.portLinkState, some .port, false, 8, 0, .ro, .fixed, 0, .any⟩,
  ⟨Par.portAutoEnable, some .port, false, 8, 0, .rw, .profile, 1, .within [(0, 0), (1, 1)]⟩,
  ⟨Par.portCost, some .port, false, 8, 0, .rw, .kept, 10, .within [(1, 255)]⟩,
  ⟨Par.portBulkMin, some .port, false, 8, 0, .rw, .kept, 8, .within [(0, 32)]⟩,
  ⟨Par.portTrainTimeout, some .port, false, 16, 0, .rw, .kept, 50, .within [(1, 1000)]⟩,
  ⟨Par.portTxPreset, some .port, false, 8, 0, .rwl, .kept, 255, .within [(0, 11), (255, 255)]⟩,
  ⟨Par.portPeerNode, some .port, false, 16, 0, .ro, .fixed, 0, .any⟩,
  ⟨Par.portPeerSerial, some .port, false, 64, 0, .ro, .fixed, 0, .any⟩,
  ⟨Par.portCrcErrors, some .port, false, 32, 0, .w1c, .fixed, 0, .any⟩,
  ⟨Par.portReplays, some .port, false, 32, 0, .w1c, .fixed, 0, .any⟩,
  ⟨Par.portDownCount, some .port, false, 32, 0, .ro, .fixed, 0, .any⟩,
  ⟨Par.portDropped, some .port, false, 32, 0, .w1c, .fixed, 0, .any⟩,
  ⟨Par.portUtil, some .port, false, 16, 4, .ro, .fixed, 0, .any⟩,
  ⟨Par.portEyeMargin, some .port, false, 16, 0, .ro, .fixed, 0, .any⟩,
  ⟨Par.systemFabricPrio, some .system, false, 8, 0, .rw, .profile, 128, .within [(0, 255)]⟩,
  ⟨Par.systemNodeBaseReq, some .system, false, 16, 0, .rw, .profile, 65535, .within [(0, 4095), (65535, 65535)]⟩,
  ⟨Par.systemNodeId, some .system, false, 16, 0, .ro, .fixed, 0, .any⟩,
  ⟨Par.systemRootNode, some .system, false, 16, 0, .ro, .fixed, 0, .any⟩,
  ⟨Par.systemFabricState, some .system, false, 8, 0, .ro, .fixed, 0, .any⟩,
  ⟨Par.systemFabricNodes, some .system, false, 16, 0, .ro, .fixed, 0, .any⟩,
  ⟨Par.systemLevels, some .system, false, 16, 0, .ro, .fixed, 0, .any⟩,
  ⟨Par.systemCommitLevel, some .system, false, 8, 0, .ro, .kept, 1, .any⟩,
  ⟨Par.systemFabricMinLevel, some .system, false, 8, 0, .ro, .fixed, 0, .any⟩,
  ⟨Par.systemPeerLevel, some .system, false, 16, 4096, .ro, .fixed, 0, .any⟩,
  ⟨Par.systemRouteVersion, some .system, false, 32, 0, .ro, .fixed, 0, .any⟩,
  ⟨Par.systemDiscSettle, some .system, false, 16, 0, .rw, .profile, 2, .within [(1, 100)]⟩,
  ⟨Par.systemE2eWindow, some .system, false, 8, 0, .rw, .profile, 32, .within [(4, 64)]⟩]

/-- Parameters of group 0xB. -/
def paramsMeridian : List ParamRow := [
  ⟨Par.timeState, some .time, false, 8, 0, .ro, .fixed, 0, .any⟩,
  ⟨Par.timeIsGm, some .time, false, 8, 0, .ro, .fixed, 0, .any⟩,
  ⟨Par.timeGmNode, some .time, false, 16, 0, .ro, .fixed, 0, .any⟩,
  ⟨Par.timeGmPrio, some .time, false, 8, 0, .rw, .profile, 128, .within [(0, 255)]⟩,
  ⟨Par.timeSyncInterval, some .time, false, 16, 0, .rw, .profile, 250, .within [(125, 125), (250, 250), (500, 500), (1000, 1000)]⟩,
  ⟨Par.timePdelayInterval, some .time, false, 16, 0, .rw, .kept, 10, .within [(1, 1000)]⟩,
  ⟨Par.timeJumpLimit, some .time, false, 32, 0, .rw, .kept, 1000, .within [(100, 1000000000)]⟩,
  ⟨Par.timeLockWindow, some .time, false, 16, 0, .rw, .kept, 50, .within [(5, 10000)]⟩,
  ⟨Par.timeSlewMax, some .time, false, 16, 0, .rw, .kept, 100, .within [(1, 500)]⟩,
  ⟨Par.timeServoBw, some .time, false, 8, 0, .rw, .kept, 10, .within [(1, 100)]⟩,
  ⟨Par.timeSyncLoss, some .time, false, 8, 0, .rw, .kept, 8, .within [(2, 255)]⟩,
  ⟨Par.timeAsym, some .time, true, 32, 4, .rw, .kept, 0, .within [(-100000000, 100000000)]⟩,
  ⟨Par.timePpsMode, some .time, false, 8, 0, .rw, .kept, 1, .within [(0, 2)]⟩,
  ⟨Par.timePpsOutEn, some .time, false, 8, 0, .rw, .kept, 0, .within [(0, 0), (1, 1)]⟩,
  ⟨Par.timePpsOutWidth, some .time, false, 32, 0, .rw, .kept, 10000, .within [(1, 500000)]⟩,
  ⟨Par.timeOffset, some .time, true, 64, 0, .ro, .fixed, 0, .any⟩,
  ⟨Par.timeFreqAdj, some .time, true, 32, 0, .ro, .fixed, 0, .any⟩,
  ⟨Par.timePeerDelay, some .time, false, 32, 4, .ro, .fixed, 0, .any⟩,
  ⟨Par.timeHops, some .time, false, 8, 0, .ro, .fixed, 0, .any⟩,
  ⟨Par.timeStepPending, some .time, true, 64, 0, .ro, .fixed, 0, .any⟩,
  ⟨Par.timeStepId, some .time, false, 16, 0, .ro, .fixed, 0, .any⟩,
  ⟨Par.timePpsInLast, some .time, false, 64, 0, .ro, .fixed, 0, .any⟩,
  ⟨Par.timeHoldoverMs, some .time, false, 32, 0, .ro, .fixed, 0, .any⟩]

/-- Parameters of group 0xC. -/
def paramsDma : List ParamRow := [
  ⟨Par.dmacChannel, some .dmac, false, 8, 0, .ro, .fixed, 0, .any⟩,
  ⟨Par.dmacPrio, some .dmac, false, 8, 0, .rw, .kept, 1, .within [(0, 3)]⟩,
  ⟨Par.dmacReqSrc, some .dmac, false, 8, 0, .rwl, .kept, 0, .within [(0, 5)]⟩,
  ⟨Par.dmacReqObj, some .dmac, false, 32, 0, .rwl, .kept, 0, .special⟩,
  ⟨Par.dmacHopLimit, some .dmac, false, 16, 0, .rw, .kept, 256, .within [(1, 65535)]⟩,
  ⟨Par.dmacBusTimeout, some .dmac, false, 32, 0, .rw, .kept, 100, .within [(1, 100000)]⟩,
  ⟨Par.dmacState, some .dmac, false, 8, 0, .ro, .fixed, 0, .any⟩,
  ⟨Par.dmacCurDesc, some .dmac, false, 64, 0, .ro, .fixed, 0, .any⟩,
  ⟨Par.dmacRemain, some .dmac, false, 32, 0, .ro, .fixed, 0, .any⟩,
  ⟨Par.dmacDescCount, some .dmac, false, 32, 0, .ro, .fixed, 0, .any⟩,
  ⟨Par.dmacBytes, some .dmac, false, 64, 0, .ro, .fixed, 0, .any⟩,
  ⟨Par.dmacPending, some .dmac, false, 8, 0, .ro, .fixed, 0, .any⟩,
  ⟨Par.dmacErrAddr, some .dmac, false, 64, 0, .ro, .fixed, 0, .any⟩,
  ⟨Par.dmacErrInfo, some .dmac, false, 16, 0, .ro, .fixed, 0, .any⟩,
  ⟨Par.dmacFlags, some .dmac, false, 8, 0, .w1c, .fixed, 0, .any⟩]

/-- Parameters of group 0xD. -/
def paramsCan : List ParamRow := [
  ⟨Par.cancMode, some .canc, false, 8, 0, .rwl, .kept, 0, .within [(0, 3)]⟩,
  ⟨Par.cancFdEn, some .canc, false, 8, 0, .rwl, .kept, 1, .within [(0, 0), (1, 1)]⟩,
  ⟨Par.cancNbt, some .canc, false, 32, 0, .rwl, .kept, 252657153, .special⟩,
  ⟨Par.cancDbt, some .canc, false, 32, 0, .rwl, .kept, 50531840, .special⟩,
  ⟨Par.cancTdc, some .canc, false, 16, 0, .rwl, .kept, 4097, .special⟩,
  ⟨Par.cancPex, some .canc, false, 8, 0, .rwl, .kept, 0, .within [(0, 0), (1, 1)]⟩,
  ⟨Par.cancBusoffMode, some .canc, false, 8, 0, .rw, .kept, 0, .within [(0, 0), (1, 1)]⟩,
  ⟨Par.cancTxOrder, some .canc, false, 8, 0, .rwl, .kept, 0, .within [(0, 0), (1, 1)]⟩,
  ⟨Par.cancOneShot, some .canc, false, 8, 0, .rw, .kept, 0, .within [(0, 0), (1, 1)]⟩,
  ⟨Par.cancFifoDepth, some .canc, false, 8, 2, .rwl, .kept, 16, .within [(1, 64)]⟩,
  ⟨Par.cancFifoFull, some .canc, false, 8, 2, .rw, .kept, 0, .within [(0, 0), (1, 1)]⟩,
  ⟨Par.cancDefaultAct, some .canc, false, 8, 0, .rw, .kept, 0, .within [(0, 2)]⟩,
  ⟨Par.cancFiltAddr, some .canc, false, 32, 0, .rwl, .kept, 0, .step 16 0 4294967295⟩,
  ⟨Par.cancFiltCount, some .canc, false, 16, 0, .rwl, .kept, 0, .within [(0, 256)]⟩,
  ⟨Par.cancState, some .canc, false, 8, 0, .ro, .fixed, 0, .any⟩,
  ⟨Par.cancTec, some .canc, false, 16, 0, .ro, .fixed, 0, .any⟩,
  ⟨Par.cancRec, some .canc, false, 16, 0, .ro, .fixed, 0, .any⟩,
  ⟨Par.cancLec, some .canc, false, 8, 0, .ro, .fixed, 0, .any⟩,
  ⟨Par.cancTdcMeas, some .canc, false, 8, 0, .ro, .fixed, 0, .any⟩,
  ⟨Par.cancFifoFill, some .canc, false, 8, 2, .ro, .fixed, 0, .any⟩,
  ⟨Par.cancTxFree, some .canc, false, 8, 0, .ro, .fixed, 0, .any⟩,
  ⟨Par.cancRxCount, some .canc, false, 32, 0, .ro, .fixed, 0, .any⟩,
  ⟨Par.cancTxCount, some .canc, false, 32, 0, .ro, .fixed, 0, .any⟩,
  ⟨Par.cancMbMiss, some .canc, false, 32, 0, .w1c, .fixed, 0, .any⟩,
  ⟨Par.cancFlags, some .canc, false, 8, 0, .w1c, .fixed, 0, .any⟩,
  ⟨Par.canmbController, some .canmb, false, 8, 0, .ro, .fixed, 0, .any⟩,
  ⟨Par.canmbIndex, some .canmb, false, 8, 0, .ro, .fixed, 0, .any⟩,
  ⟨Par.canmbNotify, some .canmb, false, 8, 0, .rw, .kept, 0, .within [(0, 0), (1, 1)]⟩,
  ⟨Par.canmbRcnt, some .canmb, false, 8, 0, .ro, .fixed, 0, .any⟩,
  ⟨Par.canmbLostCount, some .canmb, false, 32, 0, .ro, .fixed, 0, .any⟩]

/-- Parameters of group 0xD, continued. -/
def paramsCan1 : List ParamRow := [
  ⟨Par.canmbFlags, some .canmb, false, 8, 0, .w1c, .fixed, 0, .any⟩]

/-- Parameters of group 0xE. -/
def paramsMemory : List ParamRow := [
  ⟨Par.profState, some .prof, false, 8, 0, .ro, .fixed, 0, .any⟩,
  ⟨Par.profRecords, some .prof, false, 32, 0, .ro, .fixed, 0, .any⟩,
  ⟨Par.profTag, some .prof, false, 32, 0, .ro, .fixed, 0, .any⟩,
  ⟨Par.profInUse, some .prof, false, 8, 0, .ro, .fixed, 0, .any⟩,
  ⟨Par.systemBootSlot, some .system, false, 8, 0, .ro, .fixed, 0, .any⟩,
  ⟨Par.systemProfPins, some .system, false, 8, 0, .ro, .fixed, 0, .any⟩,
  ⟨Par.systemNextSlot, some .system, false, 8, 0, .ro, .fixed, 0, .any⟩,
  ⟨Par.systemJournalState, some .system, false, 8, 0, .ro, .fixed, 0, .any⟩,
  ⟨Par.systemJournalCause, some .system, false, 8, 0, .ro, .fixed, 0, .any⟩,
  ⟨Par.systemJournalSeq, some .system, false, 32, 0, .ro, .fixed, 0, .any⟩,
  ⟨Par.systemJournalUsed, some .system, false, 32, 0, .ro, .fixed, 0, .any⟩,
  ⟨Par.systemMemCe, some .system, false, 32, 4, .w1c, .fixed, 0, .any⟩,
  ⟨Par.systemMemUe, some .system, false, 32, 4, .w1c, .fixed, 0, .any⟩,
  ⟨Par.systemMemLastAddr, some .system, false, 32, 0, .ro, .fixed, 0, .any⟩,
  ⟨Par.systemMemClaimed, some .system, false, 64, 0, .ro, .kept, 0, .any⟩,
  ⟨Par.systemFwBank, some .system, false, 8, 0, .ro, .fixed, 0, .any⟩,
  ⟨Par.systemFwState, some .system, false, 8, 2, .ro, .fixed, 0, .any⟩,
  ⟨Par.systemFwSvn, some .system, false, 32, 2, .ro, .fixed, 0, .any⟩,
  ⟨Par.systemFwNext, some .system, false, 8, 0, .ro, .fixed, 0, .any⟩,
  ⟨Par.systemFwFails, some .system, false, 8, 0, .ro, .fixed, 0, .any⟩,
  ⟨Par.systemFwMinSvn, some .system, false, 32, 0, .ro, .fixed, 0, .any⟩,
  ⟨Par.systemLifecycle, some .system, false, 8, 0, .ro, .fixed, 0, .any⟩]

/-- Parameters of group 0xF. -/
def paramsDebug : List ParamRow := [
  ⟨Par.probePoint, some .probe, false, 8, 0, .rwl, .fixed, 0, .within [(0, 63)]⟩,
  ⟨Par.probeInvert, some .probe, false, 8, 0, .rw, .fixed, 0, .within [(0, 0), (1, 1)]⟩]

/-- The parameter tables by group nibble (R69). -/
def paramGroup (g : Nat) : List ParamRow :=
  match g with
  | 0 => paramsSystem
  | 1 => paramsObject
  | 3 => paramsVernier ++ paramsVernier1
  | 4 => paramsEphemeris ++ paramsEphemeris1 ++ paramsEphemeris2
  | 5 => paramsOrrery ++ paramsOrrery1 ++ paramsOrrery2
  | 6 => paramsLoop ++ paramsLoop1
  | 7 => paramsPwm ++ paramsPwm1 ++ paramsPwm2
  | 8 => paramsFieldIo
  | 9 => paramsSafety
  | 10 => paramsUsric
  | 11 => paramsMeridian
  | 12 => paramsDma
  | 13 => paramsCan ++ paramsCan1
  | 14 => paramsMemory
  | 15 => paramsDebug
  | _ => []

/-- The row of a parameter identifier, if the manual has one. -/
def paramRow? (id : Nat) : Option ParamRow :=
  (paramGroup (id / 4096)).find? (fun r => r.id == id)

end Sys2Proof.Machine
end

