-- ==== Sys2Proof/Machine/Operands.lean ====
section
/-! DEFINITION. Operand access: fields of a packet body, parameter values with their value after boot,
handle fields (R22), and the event an object's own block raises. -/

namespace Sys2Proof.Machine

open Sys2Proof

/-! Handles (R22, R23). -/

/-- The class code of R23. -/
def Class.code : Class → Nat
  | .system => 1 | .axis => 2 | .fbk => 3 | .path => 4 | .gear => 5 | .cam => 6 | .evt => 7
  | .capt => 8 | .lclk => 9 | .lgrp => 10 | .trace => 11 | .pwmg => 12 | .dlane => 13 | .sdin => 14
  | .fio => 15 | .safe => 16 | .port => 17 | .time => 18 | .dmac => 19 | .canc => 20 | .canmb => 21
  | .task => 22 | .queue => 23 | .prof => 24 | .probe => 25

/-- The class a code names; none for 0 and 26 … 31. -/
def classOfCode (c : Nat) : Option Class :=
  [Class.system, .axis, .fbk, .path, .gear, .cam, .evt, .capt, .lclk, .lgrp, .trace, .pwmg, .dlane,
   .sdin, .fio, .safe, .port, .time, .dmac, .canc, .canmb, .task, .queue, .prof, .probe].find?
    (fun k => k.code == c)

/-- Handle fields of R22. -/
def hClass (h : U32) : Nat := bitsOf h.toNat 31 27
def hNode (h : U32) : Nat := bitsOf h.toNat 26 15
def hGen (h : U32) : Nat := bitsOf h.toNat 14 12
def hSlot (h : U32) : Nat := bitsOf h.toNat 11 0

/-- The handle with the given fields (R22). -/
def mkHandle (cls node gen slot : Nat) : U32 :=
  BitVec.ofNat 32 (cls * 2 ^ 27 + (node % 4096) * 2 ^ 15 + (gen % 8) * 2 ^ 12 + slot % 4096)

/-- The code of a life state (R97). -/
def Life.code : Life → Nat
  | .created => 0 | .enabled => 1 | .draining => 2 | .disabled => 3

/-- The 16-bit status code of R71. -/
def Status.code : Status → Nat
  | .ok => 0x0000 | .okLate => 0x0001 | .queued => 0x0002
  | .badOpcode => 0x0010 | .badLength => 0x0011 | .badHandle => 0x0012 | .staleHandle => 0x0013
  | .wrongClass => 0x0014 | .badParam => 0x0015 | .outOfRange => 0x0016 | .wrongState => 0x0017
  | .infeasible => 0x0018 | .noResource => 0x0019 | .overQuota => 0x001A | .locked => 0x001B
  | .denied => 0x001C | .levelUnsupported => 0x001D | .busy => 0x001E | .unreachable => 0x001F
  | .faulted => 0x0020 | .cancelled => 0x0030 | .timeout => 0x0031

/-- Client indices of R96. -/
def clientPcie : U16 := 0x1000
def clientQspi : U16 := 0x1001
def clientTurnstile : U16 := 0x1002
def noClient : U16 := 0xFFFF

/-- A client index that names a remote node (R96). -/
def isRemoteClient (c : U16) : Bool := c.toNat < 0x1000

/-! Parameters: values written so far; a parameter without an entry holds its value after boot. -/

/-- Values by key `id * 65536 + index`. -/
abbrev Params := List (Nat × U64)

/-- The key of a parameter element. -/
def paramKey (id ix : Nat) : Nat := id * 65536 + ix

/-- The value in force of a parameter element. -/
def Params.get (ps : Params) (id : Nat) (ix : Nat := 0) : U64 :=
  match alGet ps (paramKey id ix) with
  | some v => v
  | none => match paramRow? id with
    | some r => image64 r.dflt
    | none => 0

/-- The value of an unsigned parameter. -/
def Params.u (ps : Params) (id : Nat) (ix : Nat := 0) : Nat := (ps.get id ix).toNat

/-- The value of a signed parameter. -/
def Params.i (ps : Params) (id : Nat) (ix : Nat := 0) : Int := (ps.get id ix).toInt

/-- The value of a handle parameter. -/
def Params.h (ps : Params) (id : Nat) (ix : Nat := 0) : U32 := (ps.get id ix).setWidth 32

/-- Write a parameter element. -/
def Params.set (ps : Params) (id ix : Nat) (v : U64) : Params := alSet ps (paramKey id ix) v

/-- Write a parameter element from an integer. -/
def Params.setI (ps : Params) (id ix : Nat) (v : Int) : Params := ps.set id ix (image64 v)

/-! Events an object's block raises, before the die adds the source handle. -/

/-- An event without its source (R77, R78): code, flags, stamp and data. -/
structure Ev where
  code : Nat
  data : List Byte
  ns : Nat
  fault : Bool := false
  cleared : Bool := false
  pinTime : Bool := false
  deriving DecidableEq, Repr

/-- A report, a fault report, a pin-time report and the end of a reported condition (R50, R78). -/
def report (code ns : Nat) (data : List Byte) : Ev := { code := code, data := data, ns := ns }
def faultEv (code ns : Nat) (data : List Byte) : Ev := { code := code, data := data, ns := ns, fault := true }
def pinEv (code ns : Nat) (data : List Byte) : Ev := { code := code, data := data, ns := ns, pinTime := true }
def clearedEv (code ns : Nat) (data : List Byte) : Ev := { code := code, data := data, ns := ns, cleared := true }

/-- Fields of event data. -/
def d8 (v : Nat) : List Byte := leBytes 1 v
def d16 (v : Nat) : List Byte := leBytes 2 v
def d32 (v : Nat) : List Byte := leBytes 4 v
def d64 (v : Nat) : List Byte := leBytes 8 v
def di32 (v : Int) : List Byte := leInt 4 v
def di64 (v : Int) : List Byte := leInt 8 v

end Sys2Proof.Machine
end

