-- ==== Sys2Proof/Machine/ParamCheck.lean ====
section
/-! DEFINITION. The checks every parameter entry meets whatever its class (R4, R6, R25, R89): encoding, index, range; the fixed-slot map. -/

namespace Sys2Proof.Machine

open Sys2Proof

/-- The value of an image under a row's type (R89). -/
def ParamRow.value (r : ParamRow) (v : U64) : Int := if r.signed then v.toInt else (v.toNat : Int)

/-- Do the upper bits match the type's extension (R89)? -/
def ParamRow.fits (r : ParamRow) (v : U64) : Bool :=
  if r.signed then decide (-(2 ^ (r.bits - 1) : Int) ≤ v.toInt ∧ v.toInt < (2 ^ (r.bits - 1) : Int)) else decide (v.toNat < 2 ^ r.bits)

/-- Is a value in the Range column? -/
def Rng.holds (g : Rng) (v : Int) : Bool :=
  match g with
  | .any => true
  | .within ivs => ivs.any (fun i => decide (i.1 ≤ v ∧ v ≤ i.2))
  | .pow2 lo hi => decide (lo ≤ v ∧ v ≤ hi) && isPow2 v.toNat
  | .step m lo hi => decide (lo ≤ v ∧ v ≤ hi) && v % m = 0
  | .handle cs zero =>
    let h := v.toNat
    if h = 0 then zero else match classOfCode (bitsOf h 31 27) with
      | some c => cs.contains c || cs.isEmpty
      | none => false
  | .special => true

/-- Is the image in range for the row, by its type and Range column? -/
def ParamRow.inRange (r : ParamRow) (v : U64) : Bool := r.fits v && r.rng.holds (r.value v)

/-- The number of elements of a parameter: 0 for one that is not indexed. Client-indexed parameters take every client index (R96). -/
def ParamRow.indexOk (r : ParamRow) (ix : Nat) : Bool := if r.idx = 0 then ix = 0 else decide (ix < r.idx)

/-- The class of a fixed slot (R25). -/
def fixedClass (slot : Nat) : Option Class :=
  if slot = 0 then some .system
  else if slot = 1 then some .time
  else if slot ≤ 5 then some .prof
  else if slot ≤ 9 then some .port
  else if slot ≤ 11 then some .canc
  else if slot ≤ 19 then some .probe
  else if slot < 32 then none
  else if slot ≤ 63 then some .fio
  else if slot ≤ 71 then some .sdin
  else if slot ≤ 87 then some .dlane
  else if slot ≤ 101 then some .safe
  else none

/-- Does an object of a class have the parameter (R97 for the `OBJECT` parameters)? -/
def ParamRow.ofClass (r : ParamRow) (c : Class) : Bool :=
  match r.cls with
  | none => true
  | some k => k == c

end Sys2Proof.Machine
end

