-- ==== Sys2Proof/Config.lean ====
section
/-! DEFINITION. What the manual leaves open: constants without a body, so that nothing can be proved
of the value taken. Each is named in a row of the assumption log. -/

namespace Sys2Proof

/-- Whether a quotient whose rounding the manual does not state is rounded up, by place of use,
dividend and divisor (log 10). -/
opaque Config.roundUp : Nat → Int → Int → Bool

/-- Error of the interpolated phase in steps of θ, from its two corrected tracks; 2 means no error.
R131 bounds it to 2 LSB and gives no more (log 11). -/
opaque Config.thetaErr : Int → Int → Fin 5

/-- Whether a pulse of 5 … 10 ns on a digital input is passed, by pin time, source and input (R136, log 12). -/
opaque Config.pulsePassed : Nat → Nat → Nat → Bool

/-- A free value drawn from the die's counter of free values, as a number below the given bound (log 13). -/
opaque Config.free : Nat → Nat → Nat

/-- Steps of a generated list by section dimensions: their number, their words, and the bytes of data area it takes. R325 gives
the order of its operations, not its words (log 16). -/
opaque Config.genSteps : Nat → Nat
opaque Config.genStep : Nat → Nat → BitVec 64
opaque Config.genData : Nat → Nat

/-- A signal word that no rule gives, by place of use and the values it could depend on (log 156). -/
opaque Config.openSignal : Nat → List Int → BitVec 32

/-- Delay of an on-package port in ps, calibrated at test and stored in the die (R488, log 14). -/
opaque Config.packageDelay : Nat → Nat

/-- Delay of a probe point above 5 ns: fixed per point, at most 15 ns (R601, log 135). -/
opaque Config.probeDelay : Nat → Fin 16

/-- SHA-256 of a byte string (R563, R567): the manual names it and does not define it (log 15). -/
opaque Config.sha256 : List (BitVec 8) → List (BitVec 8)

/-- ECDSA P-256: does the signature of a digest hold under a key (R563, R567, log 15)? -/
opaque Config.ecdsaOk : List (BitVec 8) → List (BitVec 8) → List (BitVec 8) → Bool

/-- Rosdex's public key (R563, log 15). -/
opaque Config.rosdexKey : List (BitVec 8)

end Sys2Proof
end

