-- ==== Sys2Proof/Machine/EventTable.lean ====
section
/-! DEFINITION. Event codes (R69, R77): the group nibble and number of every event of the manual. -/

namespace Sys2Proof.Machine

/-- `QUEUE_FAULT` (R100). -/
abbrev Evt.queueFault : Nat := 0x0001
/-- `LATE_REPLY` (R100). -/
abbrev Evt.lateReply : Nat := 0x0002
/-- `OBJECT_IDLE` (R100). -/
abbrev Evt.objectIdle : Nat := 0x1001
/-- `QUOTA_EXCEEDED` (R100). -/
abbrev Evt.quotaExceeded : Nat := 0x1002
/-- `TASK_DONE` (R121). -/
abbrev Evt.taskDone : Nat := 0x2001
/-- `TASK_FAILED` (R121). -/
abbrev Evt.taskFailed : Nat := 0x2002
/-- `TASK_SUCC_LOST` (R121). -/
abbrev Evt.taskSuccLost : Nat := 0x2003
/-- `STATE_CHANGED` (R161). -/
abbrev Evt.stateChanged : Nat := 0x3001
/-- `SIGNAL_AMPLITUDE` (R161). -/
abbrev Evt.signalAmplitude : Nat := 0x3002
/-- `EDGE_TOO_FAST` (R161). -/
abbrev Evt.edgeTooFast : Nat := 0x3003
/-- `HALL_INVALID` (R161). -/
abbrev Evt.hallInvalid : Nat := 0x3004
/-- `INDEX_MISMATCH` (R161). -/
abbrev Evt.indexMismatch : Nat := 0x3005
/-- `REF_DONE` (R161). -/
abbrev Evt.refDone : Nat := 0x3006
/-- `QUAD_ERROR` (R161). -/
abbrev Evt.quadError : Nat := 0x3007
/-- `SSI_ERROR` (R161). -/
abbrev Evt.ssiError : Nat := 0x3008
/-- `SOURCE_LOST` (R161). -/
abbrev Evt.sourceLost : Nat := 0x3009
/-- `DL_STALE` (R161). -/
abbrev Evt.dlStale : Nat := 0x300A
/-- `MOVE_DONE` (R201). -/
abbrev Evt.moveDone : Nat := 0x4001
/-- `VEL_REACHED` (R201). -/
abbrev Evt.velReached : Nat := 0x4002
/-- `IN_POSITION` (R201). -/
abbrev Evt.inPosition : Nat := 0x4003
/-- `REVERSAL` (R201). -/
abbrev Evt.reversal : Nat := 0x4004
/-- `OVERSHOOT_PLANNED` (R201). -/
abbrev Evt.overshootPlanned : Nat := 0x4005
/-- `STOPPED` (R201). -/
abbrev Evt.stopped : Nat := 0x4006
/-- `SOFT_LIMIT` (R201). -/
abbrev Evt.softLimit : Nat := 0x4007
/-- `FEEDBACK_LOST` (R201). -/
abbrev Evt.feedbackLost : Nat := 0x4008
/-- `FBK_SUSPECT` (R201). -/
abbrev Evt.fbkSuspect : Nat := 0x4009
/-- `SEGMENT_DONE` (R201). -/
abbrev Evt.segmentDone : Nat := 0x4010
/-- `PATH_STARVED` (R201). -/
abbrev Evt.pathStarved : Nat := 0x4011
/-- `PATH_DONE` (R201). -/
abbrev Evt.pathDone : Nat := 0x4012
/-- `MEMBER_FAULT` (R201). -/
abbrev Evt.memberFault : Nat := 0x4013
/-- `LATE_RETRACT` (R226). -/
abbrev Evt.lateRetract : Nat := 0x4020
/-- `STREAM_LATE` (R226). -/
abbrev Evt.streamLate : Nat := 0x4021
/-- `MASTER_DEVIATION` (R226). -/
abbrev Evt.masterDeviation : Nat := 0x4022
/-- `STREAM_LOST` (R226). -/
abbrev Evt.streamLost : Nat := 0x4023
/-- `GEAR_SYNCED` (R270). -/
abbrev Evt.gearSynced : Nat := 0x5001
/-- `RATIO_APPLIED` (R270). -/
abbrev Evt.ratioApplied : Nat := 0x5002
/-- `SHIFT_DONE` (R270). -/
abbrev Evt.shiftDone : Nat := 0x5003
/-- `CAM_SWITCHED` (R270). -/
abbrev Evt.camSwitched : Nat := 0x5004
/-- `GEAR_RELEASED` (R270). -/
abbrev Evt.gearReleased : Nat := 0x5005
/-- `GEAR_OVERSPEED` (R270). -/
abbrev Evt.gearOverspeed : Nat := 0x5006
/-- `COMPARE_FIRED` (R270). -/
abbrev Evt.compareFired : Nat := 0x5010
/-- `COMPARE_MISSED` (R270). -/
abbrev Evt.compareMissed : Nat := 0x5011
/-- `CAPTURED` (R270). -/
abbrev Evt.captured : Nat := 0x5020
/-- `LINES_DONE` (R270). -/
abbrev Evt.linesDone : Nat := 0x5030
/-- `LINE_OVERRUN` (R270). -/
abbrev Evt.lineOverrun : Nat := 0x5031
/-- `EDGE_LATE` (R270). -/
abbrev Evt.edgeLate : Nat := 0x5032
/-- `REG_APPLIED` (R270). -/
abbrev Evt.regApplied : Nat := 0x5033
/-- `SATURATION` (R296). -/
abbrev Evt.saturation : Nat := 0x6001
/-- `FOLLOWING_ERROR` (R296). -/
abbrev Evt.followingError : Nat := 0x6002
/-- `BANK_SWAPPED` (R296). -/
abbrev Evt.bankSwapped : Nat := 0x6003
/-- `STATE_SATURATED` (R296). -/
abbrev Evt.stateSaturated : Nat := 0x6004
/-- `AXIS_FAULT` (R296). -/
abbrev Evt.axisFault : Nat := 0x6005
/-- `INPUT_LOST` (R296). -/
abbrev Evt.inputLost : Nat := 0x6006
/-- `CRAM_ERROR` (R335). -/
abbrev Evt.cramError : Nat := 0x6007
/-- `TRACE_TRIGGERED` (R335). -/
abbrev Evt.traceTriggered : Nat := 0x6010
/-- `TRACE_STOPPED` (R335). -/
abbrev Evt.traceStopped : Nat := 0x6011
/-- `PWM_FAULT` (R362). -/
abbrev Evt.pwmFault : Nat := 0x7001
/-- `PERIOD_STRETCH` (R362). -/
abbrev Evt.periodStretch : Nat := 0x7002
/-- `WRITE_WHILE_PENDING` (R362). -/
abbrev Evt.writeWhilePending : Nat := 0x7003
/-- `FAULT_CYCLE` (R362). -/
abbrev Evt.faultCycle : Nat := 0x7004
/-- `SD_CLIPPED` (R362). -/
abbrev Evt.sdClipped : Nat := 0x7010
/-- `LANE_UP` (R393). -/
abbrev Evt.laneUp : Nat := 0x7030
/-- `UL_STALE` (R393). -/
abbrev Evt.ulStale : Nat := 0x7031
/-- `LANE_LOST` (R393). -/
abbrev Evt.laneLost : Nat := 0x7032
/-- `STAGE_FAULT` (R393). -/
abbrev Evt.stageFault : Nat := 0x7033
/-- `DL_ERROR_REPORTED` (R393). -/
abbrev Evt.dlErrorReported : Nat := 0x7034
/-- `AMP_LIMITED` (R393). -/
abbrev Evt.ampLimited : Nat := 0x7035
/-- `FIO_CHANGED` (R417). -/
abbrev Evt.fioChanged : Nat := 0x8001
/-- `OPEN_WIRE` (R417). -/
abbrev Evt.openWire : Nat := 0x8002
/-- `EXT_HIGH` (R417). -/
abbrev Evt.extHigh : Nat := 0x8003
/-- `OPEN_LOAD` (R417). -/
abbrev Evt.openLoad : Nat := 0x8004
/-- `OVERLOAD` (R417). -/
abbrev Evt.overload : Nat := 0x8005
/-- `FIELD_SUPPLY` (R417). -/
abbrev Evt.fieldSupply : Nat := 0x8006
/-- `FIELD_HOLD` (R417). -/
abbrev Evt.fieldHold : Nat := 0x8007
/-- `FIO_LINK_LOST` (R417). -/
abbrev Evt.fioLinkLost : Nat := 0x8008
/-- `SAFE_FN_STATE` (R447). -/
abbrev Evt.safeFnState : Nat := 0x9001
/-- `SAFE_DEMAND` (R447). -/
abbrev Evt.safeDemand : Nat := 0x9002
/-- `SAFE_FAULT` (R447). -/
abbrev Evt.safeFault : Nat := 0x9003
/-- `BRAKE_TEST_DUE` (R447). -/
abbrev Evt.brakeTestDue : Nat := 0x9004
/-- `SAFE_STATUS_LOST` (R447). -/
abbrev Evt.safeStatusLost : Nat := 0x9005
/-- `PORT_UP` (R480). -/
abbrev Evt.portUp : Nat := 0xA001
/-- `PORT_DOWN` (R480). -/
abbrev Evt.portDown : Nat := 0xA002
/-- `ROUTE_CHANGED` (R480). -/
abbrev Evt.routeChanged : Nat := 0xA003
/-- `ROOT_CHANGED` (R480). -/
abbrev Evt.rootChanged : Nat := 0xA004
/-- `NODE_CONFLICT` (R480). -/
abbrev Evt.nodeConflict : Nat := 0xA005
/-- `TARGET_UNREACHABLE` (R480). -/
abbrev Evt.targetUnreachable : Nat := 0xA006
/-- `LEVEL_COMMITTED` (R480). -/
abbrev Evt.levelCommitted : Nat := 0xA007
/-- `LEVEL_MISMATCH` (R480). -/
abbrev Evt.levelMismatch : Nat := 0xA008
/-- `FABRIC_READY` (R480). -/
abbrev Evt.fabricReady : Nat := 0xA009
/-- `TIME_LOCKED` (R500). -/
abbrev Evt.timeLocked : Nat := 0xB001
/-- `TIME_HOLDOVER` (R500). -/
abbrev Evt.timeHoldover : Nat := 0xB002
/-- `TIME_JUMP_REFUSED` (R500). -/
abbrev Evt.timeJumpRefused : Nat := 0xB003
/-- `TIME_STEPPED` (R500). -/
abbrev Evt.timeStepped : Nat := 0xB004
/-- `GM_CHANGED` (R500). -/
abbrev Evt.gmChanged : Nat := 0xB005
/-- `PPS_CAPTURED` (R500). -/
abbrev Evt.ppsCaptured : Nat := 0xB006
/-- `DESC_DONE` (R519). -/
abbrev Evt.descDone : Nat := 0xC001
/-- `CHAIN_DONE` (R519). -/
abbrev Evt.chainDone : Nat := 0xC002
/-- `CHAIN_WAIT` (R519). -/
abbrev Evt.chainWait : Nat := 0xC003
/-- `CHAIN_ABORTED` (R519). -/
abbrev Evt.chainAborted : Nat := 0xC004
/-- `DMA_BUS_ERROR` (R519). -/
abbrev Evt.dmaBusError : Nat := 0xC005
/-- `LOOP_FAULT` (R519). -/
abbrev Evt.loopFault : Nat := 0xC006
/-- `DESC_ERROR` (R519). -/
abbrev Evt.descError : Nat := 0xC007
/-- `REQ_OVERRUN` (R519). -/
abbrev Evt.reqOverrun : Nat := 0xC008
/-- `TX_DONE` (R542). -/
abbrev Evt.txDone : Nat := 0xD001
/-- `TX_CANCELLED` (R542). -/
abbrev Evt.txCancelled : Nat := 0xD002
/-- `RX_OVERRUN` (R542). -/
abbrev Evt.rxOverrun : Nat := 0xD003
/-- `CAN_ERROR_STATE` (R542). -/
abbrev Evt.canErrorState : Nat := 0xD004
/-- `MB_RECEIVED` (R542). -/
abbrev Evt.mbReceived : Nat := 0xD010
/-- `MEM_CORRECTED` (R573). -/
abbrev Evt.memCorrected : Nat := 0xE001
/-- `MEM_UNCORRECTABLE` (R573). -/
abbrev Evt.memUncorrectable : Nat := 0xE002
/-- `JOURNAL_TORN` (R573). -/
abbrev Evt.journalTorn : Nat := 0xE003
/-- `JOURNAL_REFUSED` (R573). -/
abbrev Evt.journalRefused : Nat := 0xE004
/-- `JOURNAL_FULL` (R573). -/
abbrev Evt.journalFull : Nat := 0xE005
/-- `JOURNAL_REPLAY_ERROR` (R573). -/
abbrev Evt.journalReplayError : Nat := 0xE006
/-- `PROFILE_INVALID` (R573). -/
abbrev Evt.profileInvalid : Nat := 0xE007
/-- `FW_FALLBACK` (R573). -/
abbrev Evt.fwFallback : Nat := 0xE008
/-- `BOOT_DONE` (R589). -/
abbrev Evt.bootDone : Nat := 0x0010
/-- `DIE_RESET` (R589). -/
abbrev Evt.dieReset : Nat := 0x0011
/-- `ENGINE_HALTED` (R600). -/
abbrev Evt.engineHalted : Nat := 0xF001
/-- `ENGINE_RESUMED` (R600). -/
abbrev Evt.engineResumed : Nat := 0xF002

end Sys2Proof.Machine
end

