-- ==== Sys2Proof/Machine/KinTypes.lean ====
section
/-! DEFINITION. Plans (R163, R176): sequences of constant-jerk segments over whole nanoseconds, held
exactly. Positions are in counts, velocities in counts/s, accelerations in counts/s². -/

namespace Sys2Proof.Machine

open Sys2Proof

/-- One constant-jerk segment: its length in ns, the acceleration at its start, its jerk. -/
structure Seg where
  dur : Nat
  acc : Rat
  jerk : Rat
  deriving DecidableEq, Repr

/-- A motion state (p, v, a). -/
structure Kin where
  p : Rat
  v : Rat
  a : Rat
  deriving DecidableEq, Repr

/-- A plan: its start time (ns of MTIME), the state there, its segments; the last velocity is held
after the last segment. -/
structure Plan where
  t0 : Nat
  start : Kin
  segs : List Seg
  deriving DecidableEq, Repr

/-- The limits a profile keeps (R171, R173): velocity, acceleration while |v| rises and while it falls,
jerk (0 = unlimited). -/
structure Lims where
  vel : Rat
  acc : Rat
  dec : Rat
  jerk : Rat
  deriving DecidableEq, Repr

/-- What a plan is for (R171 … R174, R182). -/
inductive Goal where
  /-- Held at rest. -/
  | rest
  /-- Come to rest at a position, in 2⁻³² count. -/
  | position (target : Int)
  /-- Reach a signed velocity, as its Q40.24 image. -/
  | velocity (v : Int)
  /-- Reach a velocity outward while a soft limit allows it: come to rest at the limit, in counts (R186). -/
  | softLimit (v : Int) (limit : Int)
  /-- Bring the acceleration to 0 and keep the velocity reached (R174). -/
  | hold
  /-- Come to rest: the quick ramp or the normal one (R182). -/
  | stop (quick : Bool)
  deriving DecidableEq, Repr

end Sys2Proof.Machine
end

