-- ==== Sys2Proof/Machine/AxisTypes.lean ====
section
/-! DEFINITION. State of an axis (chapters 06 and 07): the plan and its goal, the run-ahead samples and
epochs, the stream records a die holds of a source axis. -/

namespace Sys2Proof.Machine

open Sys2Proof

/-- A sample in the formats of R162: position in 2⁻³² count, velocity Q40.24, acceleration Q48.16. -/
structure KSample where
  p : Int
  v : Int
  a : Int
  deriving DecidableEq, Repr

/-- The axis modes of R169, with the codes of `AXIS.MODE`. -/
inductive AxisMode where
  | idle | position | velocity | stopping | geared | path | blocked
  deriving DecidableEq, Repr

/-- A run-ahead sample (R163, R202): start of its tick, its values, its epoch, and whether it relies on
prediction (R215, R223). -/
structure HSample where
  tick : Nat
  s : KSample
  epoch : Nat
  pred : Bool
  deriving DecidableEq, Repr

/-- What the planner of an axis is doing (R169 … R186). -/
structure AxisCore where
  mode : AxisMode
  goal : Goal
  plan : Plan
  /-- `AXIS.TARGET` with fraction, 2⁻³² count, and `AXIS.TARGET_VEL`. -/
  target : Int
  targetVel : Int
  /-- The last accepted motion command since enable is a `MOVE_ABS` or a `MOVE_REL`, whose target is the base of the next (R172). -/
  lastIsTarget : Bool
  /-- `VEL_REACHED` has been posted for the goal in force. -/
  announced : Bool
  /-- `AXIS.STOP_CAUSE`, and the cause the stop in progress will report (R201). -/
  stopCause : Nat
  stopWhy : Nat
  /-- The stop in progress is on the quick ramp (R182). -/
  quick : Bool
  /-- Sign change ahead in the plan: its position in 2⁻³² count and the new sign (R180). -/
  reversal : Option (Int × Int)
  /-- Since `MOVE_DONE`: ticks, and consecutive ticks inside the window (R198). -/
  inPos : Option (Nat × Nat)
  /-- BLOCKED by an SS1 wire, by a channel in RECOVERY (R184, R185). -/
  blkSs1 : Bool
  blkFbk : Bool
  /-- Draining toward standstill (R170). -/
  draining : Bool
  deriving DecidableEq, Repr

/-- A correction toward a derived trajectory (R220): a plan in counts whose goal is 0. Where its velocity is reduced it stays behind the plan. -/
structure Correction where
  plan : Plan
  /-- Time in ns by which it lies behind the plan at the tick `seen`, and what the reduction of that tick adds. -/
  lag : Nat
  seen : Nat
  slow : Nat
  deriving DecidableEq, Repr

/-- The source state from which a committed sample was derived (R204, R219), and whether it was predicted (R223). -/
structure SrcKept where
  tick : Nat
  kin : Kin
  pred : Bool
  deriving DecidableEq, Repr

/-- Run-ahead part (R202 … R224). -/
structure AxisRa where
  /-- Samples of the ticks k … k + H, in tick order. -/
  hor : List HSample
  epoch : Nat
  epochCount : Nat
  epochCause : Nat
  /-- Tick at which the last epoch started (one per tick, R210). -/
  epochTick : Option Nat
  /-- Causes of replanning not yet seen in the samples, in order (R210). -/
  causes : List Nat
  commitNow : Nat
  lateCount : Nat
  refineCount : Nat
  staleRecords : Nat
  /-- Consecutive samples committed from prediction (R224), and whether the last commit used received data. -/
  predRun : Nat
  lastReceived : Bool
  /-- Corrections (R220): the one in force, and one that starts at a later tick. -/
  corrs : List Correction
  /-- Of a derived axis whose source lies on another node or is an `FBK`: the states its committed samples were derived from. -/
  kept : List SrcKept
  /-- Of a derived axis with a source axis on this die: `AXIS.EPOCH_COUNT` of the source and its last sample, as last seen (R210, R222). -/
  srcEpoch : Option Nat
  srcLast : Nat
  /-- Nodes that hold a consumer, with whether their first record is still to be marked `SYNC` (R214, R231). -/
  receivers : List (Nat × Bool)
  deriving DecidableEq, Repr

/-- An axis. -/
structure Axis where
  core : AxisCore
  ra : AxisRa
  /-- Present sample and the sample of the tick before. -/
  cur : KSample
  prev : KSample
  /-- Standstill mode applied at the output, none while driven (R170, R351). -/
  standstill : Option Nat
  deriving DecidableEq, Repr

/-- A stream record of R215. -/
structure StreamRec where
  src : U32
  epoch : Nat
  lead : Nat
  /-- Start of the sample's tick: seconds (low 32 bits) and nanoseconds. -/
  tickS : U32
  tickNs : Nat
  s : KSample
  sync : Bool
  retract : Bool
  final : Bool
  predicted : Bool
  cause : Nat
  oldEpoch : Nat
  deriving DecidableEq, Repr

/-- What a die holds of a source axis on another node (R217). -/
structure SrcStream where
  src : U32
  /-- Epoch held; none before the first record. -/
  epoch : Option Nat
  /-- Samples held, in tick order. -/
  held : List HSample
  lead : Nat
  /-- The greatest class period that every tick received is a multiple of: the period of the source (R43, R45; log 144); 0 before the first. -/
  per : Nat
  final : Bool
  deriving DecidableEq, Repr

end Sys2Proof.Machine
end

