-- ==== Sys2Proof/Machine/VernierTypes.lean ====
section
/-! DEFINITION. State of one feedback channel (chapter 05). Positions are integers in units of
2⁻³² count, speeds are the Q40.24 images of R127, times are ns of MTIME. -/

namespace Sys2Proof.Machine

open Sys2Proof

/-- The channel states of R142, with the codes of `FBK.STATE` (R159). -/
inductive ChState where
  | commission | service | recovery
  deriving DecidableEq, Repr

/-- A published sample (R127). -/
structure FbkSample where
  pos : Int
  speed : Int
  time : Nat
  status : Nat
  deriving DecidableEq, Repr

/-- An edge seen at a digital input and not yet taken (R137, R143). -/
structure PendEdge where
  input : Nat
  pin : Nat
  level : Bool
  deriving DecidableEq, Repr

/-- An index crossed (R151): raw index position in counts, direction −1, 0 or +1, pin time, and whether it has been compared with the one
before it (R152). -/
structure IndexSeen where
  pos : Int
  dir : Int
  pin : Nat
  checked : Bool
  deriving DecidableEq, Repr

/-- A conversion pair of a sin/cos source and its time (R130). -/
structure Track where
  at_ : Nat
  sin : Int
  cos : Int
  deriving DecidableEq, Repr

/-- Counting part of a channel (R129, R132, R135 … R140). -/
structure FbkCount where
  /-- Levels taken of inputs A, B, Z, U, V, W, SSI data (bits 0 … 6). -/
  levels : Nat
  pend : List PendEdge
  /-- Whole signal periods and the phase θ (R132). -/
  periods : Int
  theta : Nat
  thetaOk : Bool
  /-- Raw count and fraction before `FBK.DIR`, in 2⁻³² count (R129). -/
  raw : Int
  /-- Last valid Hall code, 0 for none (R144), and the present code. -/
  hallLast : Nat
  hallCode : Nat
  /-- Direction of the last count step, 0 before the first (R151). -/
  lastStep : Int
  /-- Last field or uplink count read, for unwrapping (R138, R140). -/
  lastField : Option Nat
  /-- Latch time of the SSI read in progress, with the data line high at its start (R138, R139). -/
  ssiBusy : Option (Nat × Bool)
  /-- Tick of the next SSI read. -/
  ssiNext : Nat
  /-- Frame bits of the last read. -/
  ssiFrame : Nat
  /-- Raw position and latch time of the last two SSI reads or uplinks, newest first. -/
  reads : List (Int × Nat)
  /-- A read or uplink came since the last tick (`HELD`, R127). -/
  fresh : Bool
  /-- The lane reports the uplink stale (R140). -/
  stale : Bool
  /-- Count steps of a digital source since the last snapshot: raw position and pin time (R250). -/
  steps : List (Int × Nat)
  deriving DecidableEq, Repr

/-- Speed estimator (R155 … R158). -/
structure FbkSpeed where
  /-- Raw snapshot position and time of the tick to come (R126), and of the tick before. -/
  snap : Int
  snapTime : Nat
  prevSnap : Int
  /-- Latest count change: count and time; none before the first. -/
  last : Option (Int × Nat)
  /-- Latest count change at or before the snapshot of the tick before. -/
  prev : Option (Int × Nat)
  /-- Count and time against which the next count change is measured. -/
  base : Int
  baseTime : Nat
  /-- Count changes since enable, up to 2. -/
  changes : Nat
  /-- `last`, `changes` and `baseTime` as they were at the snapshot of the tick (R126). -/
  lastSnap : Option (Int × Nat)
  changesSnap : Nat
  baseSnap : Nat
  /-- The T method is in use (R156). -/
  methodT : Bool
  forced : Bool
  /-- Raw estimate of the tick before, and the estimates of the mean (R158), newest first. -/
  est : Int
  avg : List Int
  deriving DecidableEq, Repr

/-- Monitoring part (R134, R143, R144, R151, R152). -/
structure FbkMon where
  ampNow : Nat
  ampMin : Nat
  ampMax : Nat
  /-- Consecutive conversions outside and inside the window, and whether the last was above it. -/
  ampOut : Nat
  ampIn : Nat
  ampHigh : Bool
  ampFault : Bool
  /-- Raw extremes: sine minimum and maximum, cosine minimum and maximum. -/
  extremes : List Int
  edgeFast : Nat
  edgeFastPost : Option Nat
  hallBad : Nat
  idxActive : Bool
  idxPrev : Option (Int × Int)
  idxPos : Int
  idxDelta : Int
  /-- Indices crossed since the snapshot of the last tick, and those of the tick to come, which may complete a reference (R126, R153). -/
  idxDue : List IndexSeen
  idxNow : List IndexSeen
  /-- Armed reference: position in 2⁻³² count, permitted direction code, and the tick it was armed at (R153). -/
  ref : Option (Int × Nat × Nat)
  /-- Channel faults and reports found since the snapshot of the last tick, and those the tick to come applies (R126, R145, R147). -/
  due : List Ev
  ready : List Ev
  deriving DecidableEq, Repr

/-- What the sample of the tick in progress is formed from: the estimator as its snapshot left it, the last reads, whether no fresh data
came, and whether the source is present (R127, R128). -/
structure FbkSource where
  spd : FbkSpeed
  reads : List (Int × Nat)
  held : Bool
  valid : Bool
  deriving DecidableEq, Repr

/-- A feedback channel. -/
structure Fbk where
  type : Nat
  chan : Nat
  sub : Nat
  st : ChState
  cnt : FbkCount
  spd : FbkSpeed
  mon : FbkMon
  /-- Offset of R129, in 2⁻³² count. -/
  offset : Int
  referenced : Bool
  sourceLost : Bool
  src : FbkSource
  sample : FbkSample
  prevSample : FbkSample
  deriving DecidableEq, Repr

end Sys2Proof.Machine
end

