-- ==== Sys2Proof/Machine/Vernier.lean ====
section
/-! DEFINITION. Vernier feedback channels (chapter 05): conversions, edges, Hall codes, SSI reads,
index checks, speed and the published sample, as functions of one channel and its parameters. -/

namespace Sys2Proof.Machine

open Sys2Proof

/-- One count in position units (R127). -/
def oneCount : Int := 2 ^ 32

/-- A quotient rounded to an integer where the manual states no rounding: the floor or the next
integer, as the free constant says (log 10). The divisor is positive. -/
def divOpen (site : Nat) (a d : Int) : Int :=
  a / d + (if a % d ≠ 0 ∧ Config.roundUp site a d then 1 else 0)

/-- Whole counts of a position. -/
def counts (p : Int) : Int := p / oneCount

/-! Interpolation (R131 … R133). -/

/-- atan 2⁻ⁱ in units of 2⁻⁴⁰ turn, i = 0 … 30. -/
def atanTable : List Int := [137438953472, 81134951838, 42869480287, 21761217566, 10922836750, 5466743129, 2734038620, 1367102738, 683561799, 341782203, 170891265, 85445653, 42722829, 21361415, 10680707, 5340354, 2670177, 1335088, 667544, 333772, 166886, 83443, 41722, 20861, 10430, 5215, 2608, 1304, 652, 326, 163]

/-- Vectoring rotations of the nominal phase: returns the accumulated angle in 2⁻⁴⁰ turn. -/
def cordicGo : List Int → Nat → Int → Int → Int → Int
  | [], _, _, _, z => z
  | a :: as, i, x, y, z =>
    if y > 0 then cordicGo as (i + 1) (x + y / 2 ^ i) (y - x / 2 ^ i) (z + a)
    else if y < 0 then cordicGo as (i + 1) (x - y / 2 ^ i) (y + x / 2 ^ i) (z - a)
    else z

/-- Phase of two tracks in 2⁻⁴⁰ period. -/
def thetaNominal (s c : Int) : Int :=
  if c < 0 then 2 ^ 39 + cordicGo atanTable 0 (-c * 2 ^ 24) (-s * 2 ^ 24) 0
  else cordicGo atanTable 0 (c * 2 ^ 24) (s * 2 ^ 24) 0

/-- The corrected tracks (s1, c2) of R131. -/
def correctTracks (ps : Params) (s c : Int) : Int × Int :=
  let s1 := s - ps.i Par.fbkSinOffset
  let c1 := (c - ps.i Par.fbkCosOffset) * ps.u Par.fbkCosGain / 2 ^ 14
  (s1, c1 + s1 * ps.i Par.fbkPhaseCorr / 2 ^ 15)

/-- `amp2` of R131. -/
def amp2Of (s1 c2 : Int) : Nat := (min ((s1 * s1 + c2 * c2) / 2 ^ 16) 65535).toNat

/-- Phase of R131: any of the values within 2 LSB of the phase, as the free constant says (log 11). -/
def thetaOf (s1 c2 : Int) : Nat :=
  let z := thetaNominal s1 c2
  let e : Int := (Config.thetaErr s1 c2).val - 2
  ((z / 2 ^ 16 + (if e = -2 ∧ z % 2 ^ 16 ≠ 0 then -1 else e)) % 2 ^ 24).toNat

/-- Raw position of R133 from periods and phase, with `FBK.INTERP` = 2ᵏ: the phase bits below the
count are its fraction. -/
def sincosRaw (ps : Params) (periods : Int) (theta : Nat) : Int :=
  let interp : Int := ps.u Par.fbkInterp
  periods * interp * oneCount + (theta : Int) * interp * 2 ^ 8

/-- Raw count of a period boundary: whole periods times `FBK.INTERP` (R151). -/
def periodCount (ps : Params) (periods : Int) : Int := periods * ps.u Par.fbkInterp

/-! Count changes (R155). -/

/-- Take a movement of the raw count to `c` at time `t` into account. -/
def noteChange (ps : Params) (sp : FbkSpeed) (c : Int) (t : Nat) : FbkSpeed :=
  if ((c - sp.base).natAbs : Nat) ≥ ps.u Par.fbkStillBand then
    { sp with last := some (c, t), base := c, baseTime := t, changes := min 2 (sp.changes + 1) }
  else sp

/-- Record something the tick has to apply (R145). -/
def addDue (m : FbkMon) (e : Ev) : FbkMon := { m with due := m.due ++ [e] }

/-! Sin/cos conversion at a snapshot (R130 … R134, R151). -/

/-- Count one conversion against the amplitude window (R134). -/
def countAmp (ps : Params) (m : FbkMon) (a : Nat) : FbkMon :=
  let low := a < ps.u Par.fbkAmpLow
  let high := ps.u Par.fbkAmpHigh < a
  let m := { m with ampNow := a, ampMin := min m.ampMin a, ampMax := max m.ampMax a }
  if low || high then { m with ampOut := min 1024 (m.ampOut + 1), ampIn := 0, ampHigh := high }
  else { m with ampOut := 0, ampIn := min 1024 (m.ampIn + 1) }

/-- Raw extremes before correction (R159). -/
def noteExtremes (m : FbkMon) (s c : Int) : FbkMon :=
  match m.extremes with
  | [sl, sh, cl, ch] => { m with extremes := [min sl s, max sh s, min cl c, max ch c] }
  | _ => { m with extremes := [s, s, c, c] }

/-- Amplitude window outcome once the filter count is reached (R134). -/
def ampFilter (ps : Params) (m : FbkMon) : FbkMon :=
  let n := ps.u Par.fbkAmpFilt
  let side := if m.ampHigh then 1 else 0
  if ¬ m.ampFault ∧ n ≤ m.ampOut then
    addDue { m with ampFault := true } { code := Evt.signalAmplitude, ns := 0, fault := true, data := d16 m.ampNow ++ d8 side }
  else if m.ampFault ∧ n ≤ m.ampIn then
    addDue { m with ampFault := false } { code := Evt.signalAmplitude, ns := 0, cleared := true, data := d16 m.ampNow ++ d8 side }
  else m

/-- One conversion pair of a `SINCOS` channel at snapshot time `t`. The first one after enable is the enable snapshot, which is no count
change (R156). -/
def fbkConvert (ps : Params) (f : Fbk) (t : Nat) (s c : Int) (idx : Bool) : Fbk :=
  let (s1, c2) := correctTracks ps s c
  let th := thetaOf s1 c2
  let d := if f.cnt.thetaOk then asSigned 24 (((th : Int) - f.cnt.theta) % 2 ^ 24).toNat else 0
  let sum := (f.cnt.theta : Int) + d
  let wrap : Int := if ¬ f.cnt.thetaOk then 0 else if sum ≥ 2 ^ 24 then 1 else if sum < 0 then -1 else 0
  let periods := f.cnt.periods + wrap
  let raw := sincosRaw ps periods th
  let m := noteExtremes (ampFilter ps (countAmp ps f.mon (amp2Of s1 c2))) s c
  let m := if f.cnt.thetaOk ∧ d.natAbs ≥ 2 ^ 22 then
      addDue m { code := Evt.quadError, ns := 0, fault := true,
                 data := d8 2 ++ List.replicate 7 0 ++ di64 (counts raw) } else m
  let m := if idx ∧ wrap ≠ 0 ∧ ¬ m.idxActive then
      { m with idxActive := true,
               idxDue := m.idxDue ++ [⟨periodCount ps (if wrap = 1 then periods else f.cnt.periods), wrap, t, false⟩] }
    else if ¬ idx then { m with idxActive := false } else m
  { f with
    cnt := { f.cnt with theta := th, thetaOk := true, periods := periods, raw := raw,
                        lastStep := if counts raw = counts f.cnt.raw then f.cnt.lastStep
                                    else sgn (counts raw - counts f.cnt.raw) },
    spd := if f.cnt.thetaOk then noteChange ps f.spd (counts raw) t
           else { f.spd with base := counts raw, snap := raw, prevSnap := raw },
    mon := m }

/-! Digital inputs (R135 … R137, R143, R144, R151). -/

/-- Quadrant of the levels of A and B (R151). -/
def quadrant (levels : Nat) : Int :=
  match levels.testBit 0, levels.testBit 1 with
  | false, false => 0 | true, false => 1 | true, true => 2 | false, true => 3

/-- Levels after an edge. -/
def setLevel (levels input : Nat) (v : Bool) : Nat :=
  if levels.testBit input = v then levels else if v then levels + 2 ^ input else levels - 2 ^ input

/-- Place of a Hall code in the sector sequence 1, 3, 2, 6, 4, 5 (R137). -/
def hallSector (code : Nat) : Option Int :=
  match code with
  | 1 => some 0 | 3 => some 1 | 2 => some 2 | 6 => some 3 | 4 => some 4 | 5 => some 5 | _ => none

/-- A count step of a digital source. -/
def countStep (ps : Params) (f : Fbk) (d : Int) (t : Nat) : Fbk :=
  let raw := f.cnt.raw + d * oneCount
  { f with cnt := { f.cnt with raw := raw, lastStep := sgn d, steps := f.cnt.steps ++ [(raw, t)] },
           spd := noteChange ps f.spd (counts raw) t }

/-- Record an index of an `INCR` port. -/
def seeIndex (f : Fbk) (dir : Int) (t : Nat) : Fbk :=
  { f with mon := { f.mon with idxDue := f.mon.idxDue ++ [⟨counts f.cnt.raw, dir, t, false⟩] } }

/-- An `INCR` port takes the edges of one pin time (R135, R151). -/
def incrTake (ps : Params) (f : Fbk) (levels t : Nat) : Fbk :=
  let old := f.cnt.levels
  let f := { f with cnt := { f.cnt with levels := levels } }
  let d := (quadrant levels - quadrant old) % 4
  let gate := ps.u Par.fbkIndexGate
  let f := if d = 1 then countStep ps f 1 t else if d = 3 then countStep ps f (-1) t
    else if d = 2 then { f with mon := addDue f.mon (faultEv Evt.quadError 0
        (d8 1 ++ List.replicate 7 0 ++ di64 (counts f.cnt.raw))) }
    else f
  if gate = 0 then
    if ¬ old.testBit 2 ∧ levels.testBit 2 then seeIndex f f.cnt.lastStep t else f
  else if (d = 1 ∨ d = 3) ∧ levels.testBit 2 ∧ quadrant levels = (gate : Int) - 1 then
    seeIndex f (if d = 1 then 1 else -1) t
  else f

/-- A `HALL` triple takes the edges of one pin time (R137, R144). -/
def hallTake (ps : Params) (f : Fbk) (levels t : Nat) : Fbk :=
  let code := bitsOf levels 5 3
  let prev := f.cnt.hallCode
  let f := { f with cnt := { f.cnt with levels := levels, hallCode := code } }
  let bad (cause : Nat) : Fbk :=
    if f.st = .service then
      { f with mon := addDue f.mon { code := Evt.hallInvalid, ns := t, fault := true, pinTime := true,
                                     data := d8 prev ++ d8 code ++ d8 cause } }
    else { f with mon := { f.mon with hallBad := (f.mon.hallBad + 1) % 2 ^ 32 } }
  match hallSector code with
  | none => bad (if code = 0 then 1 else 2)
  | some s =>
    match hallSector f.cnt.hallLast with
    | none => { f with cnt := { f.cnt with hallLast := code } }
    | some s0 =>
      let d := (s - s0) % 6
      let f' := { f with cnt := { f.cnt with hallLast := code } }
      let unit : Int := if ps.u Par.fbkHallOrder = 1 then -1 else 1
      if d = 0 then f'
      else if d = 1 then countStep ps f' unit t
      else if d = 5 then countStep ps f' (-unit) t
      else
        let g := bad 3
        { g with cnt := { g.cnt with hallLast := code } }

/-- How long a level must hold before its edge is taken: the deglitch of R136, the Hall hold of R137,
and `FBK.EDGE_MIN` in COMMISSION and RECOVERY (R143). -/
def holdTime (ps : Params) (f : Fbk) : Nat :=
  let h := if f.type = 2 then 200 else 10
  if f.st = .service then h else max h (ps.u Par.fbkEdgeMin)

/-- Report a pair of edges closer than `FBK.EDGE_MIN` (R143). -/
def edgeTooFast (f : Fbk) (e : PendEdge) (t : Nat) : Fbk :=
  let n := (f.mon.edgeFast + 1) % 2 ^ 32
  let m := { f.mon with edgeFast := n }
  let late := match m.edgeFastPost with
    | none => true
    | some t0 => t0 + 1000000 ≤ e.pin
  if late then
    let ev : Ev := { code := Evt.edgeTooFast, ns := e.pin, fault := true, pinTime := true,
                     data := d8 e.input ++ List.replicate 3 0 ++ d32 (t - e.pin) ++ d32 n }
    { f with mon := addDue { m with edgeFastPost := some e.pin } ev }
  else { f with mon := m }

/-- The pending edges whose levels have held by time `t`, oldest first, and the others. -/
def matured (hold t : Nat) (ps : List PendEdge) : List PendEdge × List PendEdge :=
  ps.partition (fun e => e.pin + hold ≤ t)

/-- Take the new levels of one pin time. -/
def takeGroup (ps : Params) (f : Fbk) (levels t : Nat) : Fbk :=
  if f.type = 1 then incrTake ps f levels t
  else if f.type = 2 then hallTake ps f levels t
  else { f with cnt := { f.cnt with levels := levels } }

/-- Take matured edges, the edges of one pin time together; `lv` are the levels reached so far. -/
def takeEdges (ps : Params) : List PendEdge → Nat → Fbk → Fbk
  | [], _, f => f
  | e :: es, lv, f =>
    let lv := setLevel lv e.input e.level
    match es with
    | [] => takeGroup ps f lv e.pin
    | e' :: _ => if e'.pin = e.pin then takeEdges ps es lv f else takeEdges ps es lv (takeGroup ps f lv e.pin)

/-- Take every edge whose level has held by time `t`. -/
def settleEdges (ps : Params) (f : Fbk) (t : Nat) : Fbk :=
  let (m, r) := matured (holdTime ps f) t f.cnt.pend
  let f := { f with cnt := { f.cnt with pend := r } }
  takeEdges ps m f.cnt.levels f

/-- One edge at an input: it starts to hold, or it ends a pulse that was too short to be taken. -/
def seeEdge (ps : Params) (key : Nat) (f : Fbk) (e : InEdge) : Fbk :=
  let f := settleEdges ps f e.pin
  match f.cnt.pend.find? (fun p => p.input == e.input) with
  | none =>
    if f.cnt.levels.testBit e.input = e.level then f
    else { f with cnt := { f.cnt with pend := f.cnt.pend ++ [⟨e.input, e.pin, e.level⟩] } }
  | some p =>
    if p.level = e.level then f
    else
      let dt := e.pin - p.pin
      let f' := { f with cnt := { f.cnt with pend := f.cnt.pend.filter (fun q => q.input != e.input) } }
      let passed := 10 ≤ dt ∨ (5 ≤ dt ∧ Config.pulsePassed e.pin key e.input)
      if ¬ passed then f'
      else if f.st ≠ .service ∧ dt < ps.u Par.fbkEdgeMin then edgeTooFast f' p e.pin
      else if f.type = 2 then f'
      else
        let g := takeGroup ps f' (setLevel f'.cnt.levels p.input p.level) p.pin
        { g with cnt := { g.cnt with pend := g.cnt.pend ++ [⟨e.input, e.pin, e.level⟩] } }

/-- Compare one index with the one before it (R152). One without a direction is recorded, and compared with nothing (R151). -/
def indexCheck (ps : Params) (m : FbkMon) (x : IndexSeen) : FbkMon :=
  let e : Int := ps.u Par.fbkLines * ps.u Par.fbkInterp
  let old := m.idxPrev
  let m := { m with idxPos := x.pos, idxPrev := some (x.pos, x.dir) }
  match old with
  | some (p0, d0) =>
    if ps.u Par.fbkLines ≠ 0 ∧ x.dir ≠ 0 ∧ d0 = x.dir then
      let d := x.pos - p0
      let m := { m with idxDelta := d }
      if ((d.natAbs : Int) - e).natAbs > ps.u Par.fbkIndexTol then
        addDue m { code := Evt.indexMismatch, ns := x.pin, pinTime := true,
                   fault := ps.u Par.fbkIndexAction = 1, data := di64 d ++ di64 e }
      else m
    else m
  | none => m

/-- Compare every index crossed and not yet compared, in order (R152). -/
def checkIndices (ps : Params) (f : Fbk) : Fbk :=
  let m := f.mon.idxDue.foldl (fun m x => if x.checked then m else indexCheck ps m x) f.mon
  { f with mon := { m with idxDue := m.idxDue.map (fun x => { x with checked := true }) } }

/-- What has been found by the snapshot of a tick is for that tick to apply (R126, R145). -/
def latchFound (ps : Params) (f : Fbk) : Fbk :=
  let f := checkIndices ps f
  { f with mon := { f.mon with ready := f.mon.ready ++ f.mon.due, due := [], idxNow := f.mon.idxNow ++ f.mon.idxDue, idxDue := [] } }

/-- The count changes that the estimator knows of by the snapshot of a tick (R155). -/
def FbkSpeed.latch (sp : FbkSpeed) : FbkSpeed :=
  { sp with lastSnap := sp.last, changesSnap := sp.changes, baseSnap := sp.baseTime }

/-- Latch the snapshot that the tick 1,000 ns later publishes (R126). -/
def latchSnap (ps : Params) (f : Fbk) (t : Nat) : Fbk :=
  let f := latchFound ps (if f.type = 0 then f else settleEdges ps f t)
  { f with spd := { f.spd with snap := f.cnt.raw, snapTime := t }.latch }

/-- The front end's snapshot of one channel at time `t` (R126). A time one microsecond before a class 0 tick is the snapshot of that tick;
one that brought nothing is latched before the next is looked at. -/
def fbkSnapshot (ps : Params) (key : Nat) (f : Fbk) (t : Nat) (s : SrcSnap) : Fbk :=
  let l := (t + 999) / 16000 * 16000 - 1000
  let f := if f.spd.snapTime < l then latchSnap ps f l else f
  let f := { f with cnt := { f.cnt with steps := [] } }
  let f := if f.type = 0 then fbkConvert ps f t s.sin.toInt s.cos.toInt s.index
    else settleEdges ps (s.edges.foldl (seeEdge ps key) f) t
  if t % 16000 = 15000 then latchSnap ps f t else f

/-! Serial and drive-lane sources (R138 … R140). -/

/-- Half-period divider of the SSI clock: `FBK.SSI_CLOCK` is stored as 200 MHz / (2 n) (R159). -/
def ssiDiv (ps : Params) : Nat := 100000000 / ps.u Par.fbkSsiClock

/-- Frame time F in ns (R138). -/
def ssiFrameNs (ps : Params) : Nat := (ps.u Par.fbkSsiBits + 1) * ssiDiv ps * 10

/-- Start of the read for the tick beginning at `t` (R138). -/
def ssiStart (ps : Params) (t : Nat) : Nat := (t - 1000 - ssiFrameNs ps) / 5 * 5

/-- The cadence condition of R138. -/
def ssiCadenceOk (ps : Params) : Bool :=
  ssiFrameNs ps + ps.u Par.fbkSsiMono * 1000 ≤ ps.u Par.fbkSsiPeriod * 16000

/-- Gray code to binary, from the top bit down. -/
def grayGo : Nat → Nat → Bool → Nat → Nat
  | 0, _, _, acc => acc
  | k + 1, g, b, acc =>
    let b' := (g.testBit k) != b
    grayGo k g b' (2 * acc + (if b' then 1 else 0))

/-- The position field of a frame (R138). -/
def ssiField (ps : Params) (frame : Nat) : Nat :=
  let lsb := ps.u Par.fbkSsiPosLsb
  let w := ps.u Par.fbkSsiPosWidth
  let v := frame % 2 ^ ps.u Par.fbkSsiBits / 2 ^ lsb % 2 ^ w
  if ps.u Par.fbkSsiCode = 1 then grayGo w v false 0 else v

/-- Start the read of an `SSI` channel; the first falling clock edge latches the encoder (R138). -/
def ssiReadStart (ps : Params) (f : Fbk) (dataHigh : Bool) : Fbk :=
  { f with cnt := { f.cnt with ssiBusy := some (ssiStart ps f.cnt.ssiNext, dataHigh)
                               ssiNext := f.cnt.ssiNext + ps.u Par.fbkSsiPeriod * 16000 } }

/-- A rejected read (R139). -/
def ssiReject (f : Fbk) (cause frame : Nat) : Fbk :=
  { f with cnt := { f.cnt with ssiBusy := none, ssiFrame := frame },
           mon := { f.mon with ready := f.mon.ready ++ [{ code := Evt.ssiError, ns := 0, fault := true,
                                                          data := d8 cause ++ List.replicate 7 0 ++ leBytes 6 frame }] } }

/-- A completed SSI frame is decoded, unwrapped or rejected (R138, R139). Of several causes of rejection the one with the lowest code is
reported (R139 gives no order; DESIGN CHOICE, log 147). -/
def ssiReadComplete (ps : Params) (f : Fbk) (frame : Nat) : Fbk :=
  match f.cnt.ssiBusy with
  | none => f
  | some (latch, high) =>
    let eb := ps.u Par.fbkSsiErrBit
    if eb ≠ 255 ∧ frame.testBit eb then ssiReject f 1 frame
    else if ¬ high then ssiReject f 2 frame
    else
      let v := ssiField ps frame
      let w := ps.u Par.fbkSsiPosWidth
      match f.cnt.lastField with
      | none =>
        { f with cnt := { f.cnt with ssiBusy := none, ssiFrame := frame, lastField := some v, fresh := true
                                     raw := (v : Int) * oneCount, reads := [((v : Int) * oneCount, latch)] }
                 referenced := true }
      | some v0 =>
        let d := asSigned w (((v : Int) - v0) % 2 ^ w).toNat
        let jump := ps.u Par.fbkSsiJump
        let lim := if jump = 0 then 2 ^ (w - 2) else jump
        if d.natAbs > lim then ssiReject f 3 frame
        else
          let raw := f.cnt.raw + d * oneCount
          { f with cnt := { f.cnt with ssiBusy := none, ssiFrame := frame, lastField := some v, fresh := true
                                       raw := raw, lastStep := if d = 0 then f.cnt.lastStep else sgn d
                                       reads := (raw, latch) :: f.cnt.reads.take 1 } }

/-- A drive-lane uplink brings a 32-bit count with its sample time, and an index position when its
index word is valid (R140, R151). -/
def dlaneUplink (ps : Params) (f : Fbk) (count t : Nat) (index : Option Nat) : Fbk :=
  let d : Int := match f.cnt.lastField with
    | none => 0
    | some v0 => asSigned 32 (((count : Int) - v0) % 2 ^ 32).toNat
  let raw := f.cnt.raw + d * oneCount
  let f' := { f with
    cnt := { f.cnt with lastField := some (count % 2 ^ 32), raw := raw, fresh := true, stale := false
                        lastStep := if d = 0 then f.cnt.lastStep else sgn d
                        reads := (raw, t) :: f.cnt.reads.take 1 }
    spd := noteChange ps { f.spd with snap := raw, snapTime := t } (counts raw) t }
  match index with
  | none => f'
  | some ip =>
    let back := asSigned 32 (((ip : Int) - count) % 2 ^ 32).toNat
    { f' with mon := { f'.mon with idxDue := f'.mon.idxDue ++ [⟨counts raw + back, sgn d, t, false⟩] } }

/-! Speed (R155 … R158). -/

/-- Outcome of the estimator at a tick: speed before `FBK.DIR`, method field, estimator after it. -/
structure SpeedOut where
  v : Int
  method : Nat
  sp : FbkSpeed
  deriving DecidableEq, Repr

/-- Mean of the last 2ᵃ raw estimates (R158), of those there are. -/
def meanEst (a : Nat) (l : List Int) : Int :=
  let l := l.take (2 ^ a)
  if l.length ≤ 1 then l.headD 0 else divOpen 3 (l.foldl (· + ·) 0) l.length

/-- The estimate with the mean of R158. -/
def speedAvg (ps : Params) (sp : FbkSpeed) (est : Int) (method : Nat) : SpeedOut :=
  let a := ps.u Par.fbkSpeedAvg
  let avg := (est :: sp.avg).take 16
  ⟨meanEst a avg, method, { sp with est := est, avg := avg, forced := false }⟩

/-- Speed 0 with method field 2 (R156, R157). -/
def speedZero (sp : FbkSpeed) (forced : Bool) : SpeedOut :=
  ⟨0, 2, { sp with est := 0, avg := [], forced := forced }⟩

/-- The speed of a counting source at the tick whose snapshot is latched (R155 … R157). Leaving forced zero restarts 1/T. -/
def speedCount (ps : Params) (sp : FbkSpeed) : SpeedOut :=
  let n := (counts sp.snap - counts sp.prevSnap).natAbs
  let sw := ps.u Par.fbkSpeedSwitch
  let t := if n ≥ sw then true else if n < max 1 (sw / 2) then false else sp.methodT
  let next := { sp with methodT := t, prevSnap := sp.snap, prev := sp.lastSnap }
  if sp.snapTime ≥ sp.baseSnap + ps.u Par.fbkSpeedTimeout * 1000 then speedZero { next with methodT := false } true
  else if t then speedAvg ps next (divOpen 1 ((sp.snap - sp.prevSnap) * 62500) 256) 0
  else if sp.changesSnap < 2 then speedZero next false
  else match sp.lastSnap, sp.prev with
    | some (ce, te), some (cf, tf) =>
      if te > tf then speedAvg ps next (divOpen 2 ((ce - cf) * 2 ^ 24 * 10 ^ 9) ((te : Int) - tf)) 1
      else
        let lim := if sp.snapTime > te then
            divOpen 4 ((ps.u Par.fbkStillBand : Int) * 2 ^ 24 * 10 ^ 9) ((sp.snapTime : Int) - te)
          else (sp.est.natAbs : Int)
        speedAvg ps next (sgn sp.est * min (sp.est.natAbs : Int) lim) 1
    | _, _ => speedZero next false

/-- The speed of an `SSI` source: the change between the last two reads over their latch interval (R138). -/
def speedReads (ps : Params) (sp : FbkSpeed) (reads : List (Int × Nat)) : SpeedOut :=
  match reads with
  | (p1, t1) :: (p0, t0) :: _ =>
    if t1 > t0 then speedAvg ps sp (divOpen 5 ((p1 - p0) * 10 ^ 9) (256 * ((t1 : Int) - t0))) 3
    else ⟨0, 3, sp⟩
  | _ => ⟨0, 3, sp⟩

/-! The sample of a tick (R125 … R129). -/

/-- Snapshot position and time of the tick. -/
def snapOf (type : Nat) (s : FbkSource) : Int × Nat :=
  if type = 3 then match s.reads with
    | (p, t) :: _ => (p, t)
    | [] => (0, s.spd.snapTime)
  else (s.spd.snap, s.spd.snapTime)

/-- Position before the offset, at the tick starting at `t` (R128, R129). -/
def positionAt (ps : Params) (p : Int) (ts : Nat) (v : Int) (t : Nat) : Int :=
  let p := if ps.u Par.fbkDir = 1 then -p else p
  if ps.u Par.fbkExtrap = 1 then p + divOpen 6 (v * 256 * ((t : Int) - ts)) (10 ^ 9) else p

/-- The channel-state bits of a status word (R127). -/
def stateBits (st : ChState) (w : Nat) : Nat :=
  w / 8 * 8 + w % 2 + (match st with | .recovery => 2 | .commission => 4 | .service => 0)

/-- The status word of R127. -/
def statusWord (ps : Params) (f : Fbk) (method : Nat) : Nat :=
  stateBits f.st ((if f.src.valid then 1 else 0) + (if f.referenced then 8 else 0) + (if ps.u Par.fbkExtrap = 1 then 16 else 0)
    + (if f.src.held then 32 else 0) + 64 * (method % 4))

/-- Form the sample of the tick starting at `t` from its source, with the parameters as they stand at that tick (R51, R127, R128). -/
def fbkForm (ps : Params) (f : Fbk) (t : Nat) : Fbk :=
  let o := if f.type = 3 then speedReads ps f.src.spd f.src.reads else speedCount ps f.src.spd
  let v := if ps.u Par.fbkDir = 1 then -o.v else o.v
  let (p, ts) := snapOf f.type f.src
  let time := if ps.u Par.fbkExtrap = 1 then t else ts
  { f with
    spd := { f.spd with prevSnap := o.sp.prevSnap, prev := o.sp.prev, methodT := o.sp.methodT, forced := o.sp.forced, est := o.sp.est, avg := o.sp.avg }
    sample := ⟨positionAt ps p ts v t + f.offset, v, time, statusWord ps f o.method⟩ }

/-- Publish the sample of the tick starting at `t` (R125); `valid` says whether the source is present. -/
def fbkPublish (ps : Params) (f : Fbk) (t : Nat) (valid : Bool) : Fbk :=
  let f := if f.type = 4 then { latchFound ps f with spd := f.spd.latch }
    else if f.spd.snapTime + 1000 < t then latchSnap ps f (t - 1000) else f
  let held : Bool := decide (f.type = 3 ∨ f.type = 4) && !f.cnt.fresh
  fbkForm ps { f with src := ⟨f.spd, f.cnt.reads, held, valid⟩, cnt := { f.cnt with fresh := false }, prevSample := f.sample } t

/-- The sample of a channel that is not ENABLED or has lost its source: `VALID` = 0 (R148, R149). -/
def fbkInvalid (f : Fbk) : Fbk :=
  { f with sample := { f.sample with status := f.sample.status / 2 * 2 }, prevSample := f.sample }

/-! Offset, references, index check (R151 … R154). -/

/-- Move the offset by `d`; the published sample moves with it, and is referenced (R127, R129, R153). -/
def moveOffset (f : Fbk) (d : Int) : Fbk :=
  let st := f.sample.status
  { f with
    offset := f.offset + d, referenced := true
    sample := { f.sample with pos := f.sample.pos + d, status := if st.testBit 3 then st else st + 8 } }

/-- The offset change `FBK_SET_POS` makes for a published position (R153, R160). -/
def setPosDelta (f : Fbk) (pos : Int) : Int := pos - f.sample.pos

/-- Raw index position with `FBK.DIR` applied, in position units. -/
def indexDirected (ps : Params) (p : Int) : Int :=
  if ps.u Par.fbkDir = 1 then -p * oneCount else p * oneCount

/-- Does an armed reference take an index crossed in this direction (R151, R153)? -/
def refTakes (code : Nat) (dir : Int) : Bool :=
  code = 0 ∨ (code = 1 ∧ dir = 1) ∨ (code = 2 ∧ dir = -1)

/-- An index of the tick completes an armed reference that it is the next one to (R153). -/
def refOne (ps : Params) (f : Fbk) (x : IndexSeen) : Fbk × List Ev :=
  match f.mon.ref with
  | some (pos, code, armed) =>
    if refTakes code x.dir ∧ armed ≤ x.pin then
      let off := pos - indexDirected ps x.pos
      (moveOffset { f with mon := { f.mon with ref := none } } (off - f.offset),
       [{ code := Evt.refDone, ns := x.pin, pinTime := true, data := di64 x.pos ++ di64 (counts off) }])
    else (f, [])
  | none => (f, [])

/-- Every index of the tick's snapshot, in order (R151, R153). -/
def indexAll (ps : Params) : List IndexSeen → Fbk → Fbk × List Ev
  | [], f => ({ f with mon := { f.mon with idxNow := [] } }, [])
  | x :: xs, f =>
    let (f1, e1) := refOne ps f x
    let (f2, e2) := indexAll ps xs f1
    (f2, e1 ++ e2)

/-! Channel states and faults (R142, R145 … R147). -/

/-- The code of a channel state (R159). -/
def ChState.code : ChState → Nat
  | .commission => 0 | .service => 1 | .recovery => 2

/-- The channel state with a code. -/
def chStateOf (c : Nat) : ChState := if c = 0 then .commission else if c = 1 then .service else .recovery

/-- `STATE_CHANGED` (R161). -/
def stateChanged (old new : ChState) (cause t : Nat) : Ev :=
  { code := Evt.stateChanged, ns := t, data := d8 old.code ++ d8 new.code ++ d16 cause }

/-- The channel in another state, which its sample shows (R127, R146). -/
def Fbk.toState (f : Fbk) (st : ChState) : Fbk :=
  { f with st := st, sample := { f.sample with status := stateBits st f.sample.status } }

/-- Command the channel state (R147, R160): the same state is no change. -/
def fbkSetState (f : Fbk) (st : ChState) (t : Nat) : Fbk × List Ev :=
  if f.st = st then (f, []) else (f.toState st, [stateChanged f.st st 0 t])

/-- Apply what was found by the tick's snapshot (R145): every event is posted, tick stamps are `t`, and the
first channel fault moves the channel to RECOVERY once. -/
def fbkApplyDue (f : Fbk) (t : Nat) : Fbk × List Ev :=
  let evs := f.mon.ready.map (fun e => if e.pinTime then e else { e with ns := t })
  let f' := { f with mon := { f.mon with ready := [] } }
  match evs.find? (fun e => e.fault) with
  | some e =>
    if f.st = .recovery then (f', evs)
    else (f'.toState .recovery, evs ++ [stateChanged f.st .recovery e.code t])
  | none => (f', evs)

/-- Is a fault condition present that keeps the channel out of SERVICE (R147)? -/
def fbkFaultPresent (f : Fbk) : Bool :=
  f.mon.ampFault ∨ f.mon.ampOut > 0 ∨ (f.type = 2 ∧ (f.cnt.hallCode = 0 ∨ f.cnt.hallCode = 7))
    ∨ (f.type = 4 ∧ f.cnt.stale)

/-! Life (R122, R142, R150). -/

/-- Counting state at enable: the levels present are taken as they are. -/
def FbkCount.start (levels hall next : Nat) : FbkCount :=
  { levels := levels, pend := [], periods := 0, theta := 0, thetaOk := false, raw := 0
    hallLast := if (hallSector hall).isSome then hall else 0, hallCode := hall, lastStep := 0, lastField := none
    ssiBusy := none, ssiNext := next, ssiFrame := 0, reads := [], fresh := false, stale := false, steps := [] }

def FbkSpeed.start (t : Nat) : FbkSpeed :=
  { snap := 0, snapTime := t, prevSnap := 0, last := none, prev := none, base := 0, baseTime := t
    changes := 0, lastSnap := none, changesSnap := 0, baseSnap := t, methodT := false, forced := false, est := 0, avg := [] }

def FbkMon.start : FbkMon :=
  { ampNow := 0, ampMin := 65535, ampMax := 0, ampOut := 0, ampIn := 0, ampHigh := false, ampFault := false
    extremes := [32767, -32768, 32767, -32768], edgeFast := 0, edgeFastPost := none, hallBad := 0
    idxActive := false, idxPrev := none, idxPos := 0, idxDelta := 0, idxDue := [], idxNow := [], ref := none, due := [], ready := [] }

/-- A channel as its create word makes it (R122). -/
def Fbk.create (word : Nat) : Fbk :=
  { type := bitsOf word 3 0, chan := bitsOf word 15 8, sub := bitsOf word 17 16, st := .commission
    cnt := FbkCount.start 0 0 0, spd := FbkSpeed.start 0, mon := FbkMon.start
    offset := 0, referenced := false, sourceLost := false, src := ⟨FbkSpeed.start 0, [], false, false⟩, sample := ⟨0, 0, 0, 0⟩, prevSample := ⟨0, 0, 0, 0⟩ }

/-- First tick whose SSI read can still be started at time `t`: the cadence of reads begins with it (R138 does not say with which; DESIGN
CHOICE, log 147). -/
def ssiFirst (ps : Params) (t : Nat) : Nat :=
  (t + 1005 + ssiFrameNs ps + 15999) / 16000 * 16000

/-- `OBJECT_ENABLE` of a channel at tick `t` (R142, R150): raw count and offset 0, no index history, no reference; statistics are kept. The
conversions that a `SINCOS` source has made since the snapshot of the tick give the phase, and the first of them is the enable snapshot
(R156). -/
def fbkEnable (ps : Params) (f : Fbk) (levels : Nat) (tracks : List Track) (t : Nat) : Fbk :=
  let f := { f with
    st := chStateOf (ps.u Par.fbkStartState)
    cnt := FbkCount.start levels (bitsOf levels 5 3) (ssiFirst ps t)
    spd := FbkSpeed.start (t - 1000)
    mon := { f.mon with ampOut := 0, ampIn := 0, ampFault := false, idxActive := false, idxPrev := none
                        idxDue := [], idxNow := [], ref := none, due := [], ready := [] }
    offset := 0, referenced := false, sourceLost := false }
  if f.type = 0 then
    let g := tracks.foldl (fun g (x : Track) => fbkConvert ps g x.at_ x.sin x.cos false) f
    { f with cnt := g.cnt, spd := g.spd }
  else f

/-- `FBK.STATS_RESET` (R159). -/
def fbkStatsReset (f : Fbk) : Fbk :=
  { f with mon := { f.mon with ampMin := 65535, ampMax := 0, extremes := [32767, -32768, 32767, -32768]
                               edgeFast := 0, hallBad := 0 } }

/-- The create word check of R123; the number of axes of a lane is looked up by the caller. -/
def fbkCreateCheck (word : Nat) : Option Status :=
  let ty := bitsOf word 3 0
  let ch := bitsOf word 15 8
  let sub := bitsOf word 17 16
  if ty > 4 ∨ bitsOf word 7 4 ≠ 0 ∨ bitsOf word 31 18 ≠ 0 then some .badParam
  else if ty ≠ 4 ∧ sub ≠ 0 then some .badParam
  else if (ty ≤ 2 ∧ ch > 7) ∨ (ty = 3 ∧ ch > 3) ∨ (ty = 4 ∧ ch > 15) then some .outOfRange
  else none

/-- Does a parameter apply to a channel type (R159)? -/
def fbkParamApplies (type id : Nat) : Bool :=
  if id = Par.fbkTerm then type ≤ 1 ∨ type = 3
  else if 0x3020 ≤ id ∧ id ≤ 0x302A then type = 0
  else if id = Par.fbkEdgeMin then type = 1 ∨ type = 2 ∨ type = 3
  else if id = Par.fbkHallOrder then type = 2
  else if id = Par.fbkIndexGate then type = 1
  else if id = Par.fbkIndexTol ∨ id = Par.fbkIndexAction ∨ id = Par.fbkLines then type ≤ 1 ∨ type = 4
  else if 0x3040 ≤ id ∧ id ≤ 0x3048 then type = 3
  else if id = Par.fbkSpeedSwitch ∨ id = Par.fbkSpeedTimeout ∨ id = Par.fbkStillBand then type ≠ 3
  else true

/-- `FBK.INTERP` range by type (R159). -/
def fbkInterpOk (type : Nat) (v : Int) : Bool :=
  match type with
  | 0 => 4 ≤ v ∧ v ≤ 65536 ∧ isPow2 v.toNat
  | 1 => v = 4
  | 2 => v = 6
  | _ => v = 1

/-- `FBK.INTERP` after create (R159). -/
def fbkInterpReset (type : Nat) : Int := if type ≤ 1 then 4 else if type = 2 then 6 else 1

/-- `FBK.SSI_CLOCK` as stored: 200 MHz / (2 n), the nearest at or below the value written (R159). -/
def ssiClockStored (v : Nat) : Nat := if v = 0 then 0 else 100000000 / ((100000000 + v - 1) / v)

end Sys2Proof.Machine
end

