-- ==== Sys2Proof/Machine/Kin.lean ====
section
/-! DEFINITION. Profile computation (R163 … R165, R176 … R182): velocity ramps, time-optimal moves to a
position, rounding of segment durations to whole nanoseconds, evaluation of a plan. -/

namespace Sys2Proof.Machine

open Sys2Proof

/-- Square root of a non-negative rational, to 64 binary places; exact for squares. -/
def sqrtR (x : Rat) : Rat :=
  if x ≤ 0 then 0
  else
    let n := isqrt x.num.toNat
    let d := isqrt x.den
    if n * n = x.num.toNat ∧ d * d = x.den then (n : Rat) / (d : Rat)
    else ((isqrt (x * (2 ^ 128 : Nat)).floor.toNat : Nat) : Rat) / ((2 ^ 64 : Nat) : Rat)

/-- Seconds to a whole number of ns, rounded up; a nominal value within 2⁻²⁰ ns of a whole number counts
as that number (the nominal durations are found to 2⁻⁶⁴ s). -/
def ceilNs (s : Rat) : Nat := (s * 1000000000 - (1 : Rat) / 1048576).ceil.toNat

/-- Nanoseconds to seconds. -/
def secs (ns : Nat) : Rat := (ns : Rat) / 1000000000

def absR (x : Rat) : Rat := if x < 0 then -x else x

def sgnR (x : Rat) : Rat := if x < 0 then -1 else if x = 0 then 0 else 1

/-! Evaluation (R176). -/

/-- State a time τ (in s) after the start of a segment. -/
def Seg.at (g : Seg) (k : Kin) (τ : Rat) : Kin :=
  { p := k.p + k.v * τ + g.acc * τ * τ / 2 + g.jerk * τ * τ * τ / 6
    v := k.v + g.acc * τ + g.jerk * τ * τ / 2
    a := g.acc + g.jerk * τ }

/-- State `ns` after the start of a list of segments; beyond its end the velocity is held. -/
def segsAt : List Seg → Kin → Nat → Kin
  | [], k, ns => { p := k.p + k.v * secs ns, v := k.v, a := 0 }
  | g :: gs, k, ns =>
    if ns < g.dur then g.at k (secs ns) else segsAt gs (g.at k (secs g.dur)) (ns - g.dur)

/-- The state of a plan at a time of MTIME. -/
def Plan.at (pl : Plan) (t : Nat) : Kin := segsAt pl.segs pl.start (t - pl.t0)

/-- Total length of the segments. -/
def segsDur (gs : List Seg) : Nat := gs.foldl (fun n g => n + g.dur) 0

/-- The end of the last segment. -/
def Plan.endsAt (pl : Plan) : Nat := pl.t0 + segsDur pl.segs

/-- State at the end of the last segment. -/
def Plan.final (pl : Plan) : Kin :=
  let k := pl.segs.foldl (fun k g => g.at k (secs g.dur)) pl.start
  { k with a := 0 }

/-- A plan at rest at a position. -/
def Plan.rest (t : Nat) (p : Rat) : Plan := ⟨t, ⟨p, 0, 0⟩, []⟩

/-! Nominal ramps. A piece is a duration in s with its accelerations at start and end. -/

/-- A nominal piece of a ramp. -/
structure Piece where
  τ : Rat
  as : Rat
  ae : Rat
  deriving DecidableEq, Repr

/-- Join neighbouring pieces of one jerk. -/
def joinPieces : List Piece → List Piece
  | [] => []
  | p :: ps =>
    match joinPieces ps with
    | [] => [p]
    | q :: qs =>
      if p.ae = q.as ∧ sgnR (p.ae - p.as) = sgnR (q.ae - q.as) then ⟨p.τ + q.τ, p.as, q.ae⟩ :: qs
      else p :: q :: qs

/-- Drop pieces without duration and join neighbours of one jerk. -/
def cleanPieces (ps : List Piece) : List Piece := joinPieces (ps.filter (fun p => 0 < p.τ))

/-- Velocity and displacement of pieces from a starting velocity. -/
def piecesRun : List Piece → Rat → Rat × Rat
  | [], v => (v, 0)
  | p :: ps, v =>
    let j := if p.τ = 0 then 0 else (p.ae - p.as) / p.τ
    let dx := v * p.τ + p.as * p.τ * p.τ / 2 + j * p.τ * p.τ * p.τ / 6
    let v' := v + (p.as + p.ae) / 2 * p.τ
    let (vf, x) := piecesRun ps v'
    (vf, dx + x)

/-- Pieces over one range of velocity [l, r] passed upward, with square-of-acceleration bounds that start at
`yP` and rise, end at `yN` and fall (both with slope 2 J), and do not exceed `lim²` (R178). -/
def rangePieces (l r yP yN lim j : Rat) : List Piece :=
  let yl := min yP (min (lim * lim) (yN + 2 * j * (r - l)))
  let yr := min yN (min (lim * lim) (yP + 2 * j * (r - l)))
  let peak := (yl + yr + 2 * j * (r - l)) / 2
  let top := min (lim * lim) (max peak (max yl yr))
  let al := sqrtR yl
  let ar := sqrtR yr
  let at_ := sqrtR top
  let flat := (r - l) - (top - yl) / (2 * j) - (top - yr) / (2 * j)
  [⟨(at_ - al) / j, al, at_⟩, ⟨if at_ = 0 then 0 else max 0 (flat / at_), at_, at_⟩, ⟨(at_ - ar) / j, at_, ar⟩]

/-- A rise of velocity from `u0` with acceleration `α0 ≥ 0` to `u1 > u0` with acceleration 0: `dec` bounds
the acceleration while u < 0, `acc` while u > 0, and the acceleration is continuous at 0 (R178). -/
def risePieces (lm : Lims) (u0 α0 u1 : Rat) : List Piece :=
  let j := lm.jerk
  let m := min lm.acc lm.dec
  if j = 0 then
    if u1 ≤ 0 then [⟨(u1 - u0) / lm.dec, lm.dec, lm.dec⟩]
    else if 0 ≤ u0 then [⟨(u1 - u0) / lm.acc, lm.acc, lm.acc⟩]
    else [⟨(-u0) / lm.dec, lm.dec, lm.dec⟩, ⟨u1 / lm.acc, lm.acc, lm.acc⟩]
  else if u1 ≤ 0 then rangePieces u0 u1 (α0 * α0) 0 lm.dec j
  else if 0 ≤ u0 then rangePieces u0 u1 (α0 * α0) 0 lm.acc j
  else if m * m + 2 * j * (-u0) < α0 * α0 then
    -- too much to be brought to the limit of the crossing in time: down at the jerk limit to that of the rising side
    let u := u0 + (α0 * α0 - m * m) / (2 * j)
    ⟨(α0 - m) / j, α0, m⟩ :: rangePieces u u1 (m * m) 0 lm.acc j
  else
    let yc := min (m * m) (min (α0 * α0 + 2 * j * (-u0)) (2 * j * u1))
    rangePieces u0 0 (α0 * α0) yc lm.dec j ++ rangePieces 0 u1 yc 0 lm.acc j

/-- Mirror pieces. -/
def negPieces (ps : List Piece) : List Piece := ps.map (fun p => ⟨p.τ, -p.as, -p.ae⟩)

/-- The bound on |a| that applies to a change of velocity at `v` with acceleration `a` (R171). -/
def accBound (lm : Lims) (v a : Rat) : Rat :=
  if 0 < v * a ∨ v = 0 then lm.acc else lm.dec

/-- The shortest ramp from (v0, a0) to velocity `v1` with acceleration 0 (R173, R178). -/
def rampPieces (lm : Lims) (v0 a0 v1 : Rat) : List Piece :=
  let j := lm.jerk
  if j = 0 then
    if v1 = v0 then [] else if v0 < v1 then risePieces lm v0 0 v1 else negPieces (risePieces lm (-v0) 0 (-v1))
  else
    -- an acceleration beyond its limit is first brought down at the jerk limit
    let b := accBound lm v0 a0
    let beyond := b < absR a0
    let pre : List Piece := if beyond then [⟨(absR a0 - b) / j, a0, sgnR a0 * b⟩] else []
    let a := if beyond then sgnR a0 * b else a0
    let v := if beyond then v0 + sgnR a0 * (a0 * a0 - b * b) / (2 * j) else v0
    -- velocity once the acceleration is 0
    let vz := v + a * absR a / (2 * j)
    let toZero : List Piece := [⟨absR a / j, a, 0⟩]
    if v1 = vz then cleanPieces (pre ++ toZero)
    else if vz < v1 then
      if 0 ≤ a then cleanPieces (pre ++ risePieces lm v a v1)
      else cleanPieces (pre ++ toZero ++ risePieces lm vz 0 v1)
    else
      if a ≤ 0 then cleanPieces (pre ++ negPieces (risePieces lm (-v) (-a) (-v1)))
      else cleanPieces (pre ++ toZero ++ negPieces (risePieces lm (-vz) 0 (-v1)))

/-- Displacement of a ramp. -/
def rampDist (lm : Lims) (v0 a0 v1 : Rat) : Rat := (piecesRun (rampPieces lm v0 a0 v1) v0).2

/-! Moves to a position (R177, R178). -/

/-- A nominal move: the phase that reaches the peak speed, the cruise, the phase that comes to rest. -/
structure Nominal where
  up : List Piece
  cruise : Rat
  vp : Rat
  down : List Piece
  deriving DecidableEq, Repr

/-- Displacement over both phases with peak speed `vp`. -/
def peakDist (lm : Lims) (v0 a0 vp : Rat) : Rat := rampDist lm v0 a0 vp + rampDist lm vp 0 0

/-- Bisection for the peak speed at which the distance is `s`, between `lo` (distance at most s) and `hi`. -/
def bisectPeak (lm : Lims) (v0 a0 s : Rat) : Nat → Rat → Rat → Rat
  | 0, lo, _ => lo
  | n + 1, lo, hi =>
    let mid := ((lo + hi) / 2 * ((2 ^ 40 : Nat) : Rat)).floor / ((2 ^ 40 : Nat) : Rat)
    if peakDist lm v0 a0 mid ≤ s then bisectPeak lm v0 a0 s n mid hi else bisectPeak lm v0 a0 s n lo mid

/-- A braking that eases off to `-x` before it brakes again: from (v, a), a < 0 < v. -/
def dipPieces (lm : Lims) (v a x : Rat) : List Piece :=
  let v' := v - (a * a - x * x) / (2 * lm.jerk)
  cleanPieces ([⟨(absR a - x) / lm.jerk, a, -x⟩] ++ negPieces (risePieces lm (-v') x 0))

def bisectDip (lm : Lims) (v a s : Rat) : Nat → Rat → Rat → Rat
  | 0, _, hi => hi
  | n + 1, lo, hi =>
    let mid := (lo + hi) / 2
    if (piecesRun (dipPieces lm v a mid) v).2 ≤ s then bisectDip lm v a s n lo mid else bisectDip lm v a s n mid hi

/-- Velocity once the acceleration is brought to 0. -/
def easedVel (lm : Lims) (v a : Rat) : Rat := if lm.jerk = 0 then v else v + a * absR a / (2 * lm.jerk)

/-- The time-optimal move over the signed distance `s ≥` the stopping distance (the other case is mirrored):
the peak speed lies at or above the larger of 0 and the eased velocity (R178). -/
def moveAhead (lm : Lims) (v0 a0 s : Rat) : Nominal :=
  let vz := easedVel lm v0 a0
  let lo := max vz 0
  let dTop := peakDist lm v0 a0 lm.vel
  if dTop ≤ s then
    ⟨rampPieces lm v0 a0 lm.vel, if lm.vel = 0 then 0 else (s - dTop) / lm.vel, lm.vel, rampPieces lm lm.vel 0 0⟩
  else if lm.jerk ≠ 0 ∧ a0 < 0 ∧ 0 < vz ∧ s < peakDist lm v0 a0 vz ∧ absR a0 ≤ lm.dec then
    ⟨[], 0, v0, dipPieces lm v0 a0 (bisectDip lm v0 a0 s 64 0 (absR a0))⟩
  else
    let lo := if lm.vel < lo then 0 else lo
    let vp := bisectPeak lm v0 a0 s 64 lo lm.vel
    ⟨rampPieces lm v0 a0 vp, 0, vp, rampPieces lm vp 0 0⟩

def Nominal.neg (n : Nominal) : Nominal := ⟨negPieces n.up, n.cruise, -n.vp, negPieces n.down⟩

/-- The time-optimal move from (v0, a0) to rest over the signed distance `s` (R171, R178). -/
def moveNominal (lm : Lims) (v0 a0 s : Rat) : Nominal :=
  let d0 := rampDist lm v0 a0 0
  if s = d0 then ⟨[], 0, v0, rampPieces lm v0 a0 0⟩
  else if d0 < s then moveAhead lm v0 a0 s
  else (moveAhead lm (-v0) (-a0) (-s)).neg

/-! Rounding to whole nanoseconds (R163). -/

/-- A piece over a whole number of ns. -/
structure NsPiece where
  dur : Nat
  as : Rat
  ae : Rat
  deriving DecidableEq, Repr

/-- Each piece from the acceleration at which the one before it ends; a phase ends without acceleration. -/
def relink : Rat → List NsPiece → List NsPiece
  | _, [] => []
  | a, [p] => [⟨p.dur, a, 0⟩]
  | a, p :: ps => ⟨p.dur, a, p.ae⟩ :: relink p.ae ps

/-- Every piece of a phase, its duration rounded up. -/
def roundAll (ps : List Piece) : List NsPiece := ps.map (fun p => ⟨max 1 (ceilNs p.τ), p.as, p.ae⟩)

/-- The phase with its pieces below 1 ns left out; the others take up their change (R163). -/
def roundPieces (jl : Bool) (ps : List Piece) : List NsPiece :=
  let kept := roundAll (ps.filter (fun p => (1 : Rat) / 1000000000 ≤ p.τ))
  if jl then relink ((ps.head?.map (fun p => p.as)).getD 0) kept else kept

/-- Node accelerations scaled: the first piece's start keeps its value when the jerk is limited. -/
def scalePieces (jl : Bool) (f : Nat → Rat) (ps : List NsPiece) : List NsPiece :=
  ps.mapIdx (fun i p =>
    ⟨p.dur, if i = 0 ∧ jl then p.as else (if jl then f (i - 1) else f i) * p.as, f i * p.ae⟩)

/-- Segments of rounded pieces. -/
def toSegs (ps : List NsPiece) : List Seg :=
  ps.map (fun p => ⟨p.dur, p.as, if p.dur = 0 then 0 else (p.ae - p.as) / secs p.dur⟩)

/-- Change of velocity over rounded pieces. -/
def nsDv (ps : List NsPiece) : Rat := ps.foldl (fun x p => x + (p.as + p.ae) / 2 * secs p.dur) 0

/-- Displacement over rounded pieces from a velocity. -/
def nsDx : List NsPiece → Rat → Rat
  | [], _ => 0
  | p :: ps, v =>
    let τ := secs p.dur
    v * τ + p.as * τ * τ / 2 + (p.ae - p.as) * τ * τ / 6 + nsDx ps (v + (p.as + p.ae) / 2 * τ)

/-- Do pieces that start at velocity `v` keep the limits on jerk and acceleration (R163, R171)? -/
def nsWithin (lm : Lims) : List NsPiece → Rat → Bool
  | [], _ => true
  | p :: ps, v =>
    let v' := v + (p.as + p.ae) / 2 * secs p.dur
    let w := (if lm.jerk = 0 then v + v' else v') * p.ae
    let b := if 0 < w then lm.acc else if w < 0 then lm.dec else max lm.acc lm.dec
    decide (absR p.ae ≤ b ∧ (lm.jerk = 0 ∨ absR (p.ae - p.as) ≤ lm.jerk * secs p.dur)) && nsWithin lm ps v'

/-- The least lengthening in ns, up to 2³², that `f` accepts: by doubling, then by halving. -/
def halveNs {α : Type} (f : Nat → Option α) : Nat → Nat → Nat → α → α
  | 0, _, _, x => x
  | k + 1, lo, hi, x =>
    let mid := (lo + hi) / 2
    if hi ≤ lo + 1 then x
    else match f mid with
      | some y => halveNs f k lo mid y
      | none => halveNs f k mid hi x

def leastNs {α : Type} (f : Nat → Option α) : Nat → Nat → Option α
  | 0, _ => none
  | k + 1, n =>
    match f n with
    | some x => some (halveNs f 32 (n / 2) n x)
    | none => leastNs f k (2 * n)

/-- Places of the pieces, the longest first. -/
def byLength (ps : List NsPiece) : List Nat :=
  let len (i : Nat) : Nat := (ps[i]?.map (fun p => p.dur)).getD 0
  sortBy (fun i j => decide (len j ≤ len i)) (List.range ps.length)

/-- Solve a phase; where no solution keeps the limits, its longest piece is lengthened ns by ns (R163), and where that brings none, the
next longest (log 148). -/
def fitOver {α : Type} (sol : List NsPiece → Option α) (ps : List NsPiece) : Option α :=
  match sol ps with
  | some x => some x
  | none => (byLength ps).findSome? (fun i => leastNs (fun n => sol (listMod ps i (fun p => { p with dur := p.dur + n }))) 33 1)

/-- Scale a phase from velocity `v0` so that it changes the velocity by `dv` exactly, within the limits (R163, step 2). -/
def solveVel (lm : Lims) (v0 dv : Rat) (ps : List NsPiece) : Option (List NsPiece) :=
  let jl := lm.jerk ≠ 0
  let zero := nsDv (scalePieces jl (fun _ => 0) ps)
  let one := nsDv ps
  let ps' := if one = zero then ps else scalePieces jl (fun _ => (dv - zero) / (one - zero)) ps
  if nsDv ps' = dv ∧ nsWithin lm ps' v0 then some ps' else none

/-- The phase that ramps from (v0, a0) to velocity `v1` with acceleration 0. Where the pieces of 1 ns or more have no solution, those below
count too, and where these have none the acceleration is brought to 0 first (log 148). -/
def rampPhase (lm : Lims) (v0 a0 v1 : Rat) : List NsPiece :=
  let ps := rampPieces lm v0 a0 v1
  let fit (v : Rat) := fitOver (solveVel lm v (v1 - v))
  let eased : List NsPiece :=
    if lm.jerk = 0 ∨ a0 = 0 then []
    else
      let h : NsPiece := ⟨max 1 (ceilNs (absR a0 / lm.jerk)), a0, 0⟩
      let v := v0 + nsDv [h]
      h :: (fit v (roundAll (rampPieces lm v 0 v1))).getD []
  if ps = [] then [] else ((fit v0 (roundPieces (lm.jerk ≠ 0) ps)) <|> (fit v0 (roundAll ps))).getD eased

/-- Split the longest piece at its middle, so that a phase has a second free node. -/
def splitLongest (ps : List NsPiece) : List NsPiece :=
  match byLength ps with
  | i :: _ => match ps[i]? with
    | some p =>
      let d1 := p.dur / 2
      let mid := p.as + (p.ae - p.as) * ((d1 : Rat) / (p.dur : Rat))
      if d1 = 0 then ps else ps.take i ++ [⟨d1, p.as, mid⟩, ⟨p.dur - d1, mid, p.ae⟩] ++ ps.drop (i + 1)
    | none => ps
  | [] => ps

/-- Adjust a phase so that velocity and displacement are both exact: two scale factors, one for the nodes of
its first part and one for the rest (R163, step 2). -/
def solveBoth (lm : Lims) (v0 dv dx : Rat) (ps : List NsPiece) : Option (List NsPiece) :=
  let jl := lm.jerk ≠ 0
  let ps := if ps.length < 3 then splitLongest ps else ps
  let h := ps.length / 2
  let f (x y : Rat) : Nat → Rat := fun i => if i < (if jl then (ps.length - 1) / 2 else h) then x else y
  let run (x y : Rat) := let q := scalePieces jl (f x y) ps; (nsDv q, nsDx q v0)
  let (c1, c2) := run 0 0
  let (x1, x2) := run 1 0
  let (y1, y2) := run 0 1
  let a11 := x1 - c1; let a21 := x2 - c2; let a12 := y1 - c1; let a22 := y2 - c2
  let det := a11 * a22 - a12 * a21
  let r1 := dv - c1; let r2 := dx - c2
  let q := if det = 0 then ps else scalePieces jl (f ((r1 * a22 - a12 * r2) / det) ((a11 * r2 - r1 * a21) / det)) ps
  if nsDv q = dv ∧ nsDx q v0 = dx ∧ nsWithin lm q v0 then some q else none

/-- Segments of a ramp from state `k` to velocity `v1` (R163, R173). Under a jerk limit of 0 the falling side of a reversal is a phase of
its own that ends at velocity 0 (R178). -/
def rampSegs (lm : Lims) (k : Kin) (v1 : Rat) : List Seg :=
  if lm.jerk = 0 ∧ k.v * v1 < 0 then toSegs (rampPhase lm k.v 0 0) ++ toSegs (rampPhase lm 0 0 v1)
  else toSegs (rampPhase lm k.v k.a v1)

/-- Segments that bring the acceleration to 0 and keep the velocity reached (R174). -/
def holdSegs (lm : Lims) (k : Kin) : List Seg :=
  if lm.jerk = 0 ∨ k.a = 0 then []
  else
    let d := max 1 (ceilNs (absR k.a / lm.jerk))
    [⟨d, k.a, -k.a / secs d⟩]

/-- A move with rounded durations: both phases scale with the peak speed, and the displacement is linear in it; where the first phase has no
freedom the second takes up the rest. Answers the segments that keep the limits and end exactly at rest after the distance `s`. -/
def solveMove (lm : Lims) (k : Kin) (s vp : Rat) (c : Nat) (up down : List NsPiece) : Option (List Seg) :=
  let jl := lm.jerk ≠ 0
  let cseg : List Seg := if c = 0 then [] else [⟨c, 0, 0⟩]
  let z := nsDv (scalePieces jl (fun _ => 0) up)
  let free := nsDv up - z
  if up ≠ [] ∧ free ≠ 0 then
    let zd := nsDv (scalePieces jl (fun _ => 0) down)
    let try_ (v : Rat) : List NsPiece × List NsPiece :=
      (scalePieces jl (fun _ => (v - k.v - z) / free) up,
       if nsDv down = zd then down else scalePieces jl (fun _ => (-v - zd) / (nsDv down - zd)) down)
    let dist (v : Rat) : Rat := let (u, d) := try_ v; nsDx u k.v + v * secs c + nsDx d v
    let d1 := dist (vp + 1)
    let d0 := dist vp
    let v := if d1 = d0 then vp else vp + (s - d0) / (d1 - d0)
    let (u, d) := try_ v
    if nsDv u + nsDv d = -k.v ∧ dist v = s ∧ nsWithin lm u k.v ∧ nsWithin lm d v ∧ absR v ≤ max lm.vel (absR k.v)
    then some (toSegs u ++ cseg ++ toSegs d) else none
  else
    let v := k.v + nsDv up
    (solveBoth lm v (-v) (s - nsDx up k.v - v * secs c) down).map (fun d => toSegs up ++ cseg ++ toSegs d)

/-- A nominal move over the distance `s`, with its phases rounded in one of the two ways, and each lengthened where it must be (R163). -/
def fitMove (lm : Lims) (k : Kin) (s : Rat) (round : List Piece → List NsPiece) (n : Nominal) : Option (List Seg) :=
  let up := round n.up
  let down := round n.down
  let c := if n.cruise * 1000000000 < 1 then 0 else ceilNs n.cruise
  (fitOver (fun u => solveMove lm k s n.vp c u down) up) <|> (fitOver (solveMove lm k s n.vp c up) down)

/-- Limits lowered by a fraction. -/
def Lims.lower (lm : Lims) (f : Rat) : Lims := ⟨lm.vel * f, lm.acc * f, lm.dec * f, lm.jerk * f⟩

/-- The move with the limits in force, or the first of some slightly lower ones that has a solution within those in force (log 148). -/
def moveWithin (lm : Lims) (k : Kin) (s : Rat) : List Rat → Option (List Seg)
  | [] => none
  | f :: fs =>
    let n := moveNominal (lm.lower f) k.v k.a s
    match (fitMove lm k s (roundPieces (lm.jerk ≠ 0)) n) <|> (fitMove lm k s roundAll n) with
    | some g => some g
    | none => moveWithin lm k s fs

/-- Exact segments of a move over the distance `s` (R163): durations rounded up, then the phases adjusted so that position, velocity and
acceleration are exact at the end. Where no adjustment keeps the limits, the axis stops and moves from rest (log 148). -/
def moveSegsFrom (lm : Lims) (k : Kin) (s : Rat) : List Seg :=
  match moveWithin lm k s [1, 1048575 / 1048576, 4095 / 4096, 63 / 64] with
  | some g => g
  | none =>
    let stop := rampSegs lm k 0
    let e := segsAt stop k (segsDur stop)
    stop ++ (moveWithin lm ⟨e.p, 0, 0⟩ (s - (e.p - k.p)) [1, 4095 / 4096]).getD []

/-- Segments of a move over the distance `s` (R163, R171, R178). -/
def moveSegs (lm : Lims) (k : Kin) (s : Rat) : List Seg :=
  if s = 0 ∧ k.v = 0 ∧ k.a = 0 then []
  else if lm.jerk = 0 ∧ (s - rampDist lm k.v k.a 0) * k.v < 0 then
    let fall := rampPhase lm k.v 0 0
    let dx := nsDx fall k.v
    toSegs fall ++ moveSegsFrom lm ⟨k.p + dx, 0, 0⟩ (s - dx)
  else moveSegsFrom lm k s

/-! Reading a plan. -/

/-- The times after a segment's start (s) at which its velocity passes 0 and changes sign. -/
def segCrossing (g : Seg) (k : Kin) : Option Rat :=
  let e := g.at k (secs g.dur)
  let root (lo hi : Rat) : Rat :=
    let rec go : Nat → Rat → Rat → Rat
      | 0, lo, _ => lo
      | n + 1, lo, hi =>
        let mid := (lo + hi) / 2
        if 0 < (g.at k mid).v * k.v then go n mid hi else go n lo mid
    go 60 lo hi
  if k.v * e.v < 0 then
    if g.jerk = 0 then some (-k.v / g.acc) else some (root 0 (secs g.dur))
  else none

/-- Position of the first sign change of the velocity (R180, R181). -/
def crossingPos : List Seg → Kin → Option Rat
  | [], _ => none
  | g :: gs, k =>
    match segCrossing g k with
    | some τ => some (g.at k τ).p
    | none =>
      let e := g.at k (secs g.dur)
      if e.v = 0 ∧ k.v ≠ 0 then
        match gs with
        | [] => none
        | h :: _ => if 0 < -(k.v * (h.acc + h.jerk)) then some e.p else crossingPos gs { e with v := 0 }
      else crossingPos gs e

/-- Smallest and largest position of a plan at its segment boundaries and turning points. -/
def planExtremes : List Seg → Kin → Rat × Rat
  | [], k => (k.p, k.p)
  | g :: gs, k =>
    let e := g.at k (secs g.dur)
    let (lo, hi) := planExtremes gs e
    let lo := min lo k.p
    let hi := max hi k.p
    match segCrossing g k with
    | some τ => let x := (g.at k τ).p; (min lo x, max hi x)
    | none => (lo, hi)

/-! Samples (R162, R163). -/

/-- Round to nearest, ties to even. -/
def roundEven (x : Rat) : Int := divNearestEven x.num x.den

/-- The plan state rounded into the formats of R162 (R163). -/
def sampleOf (k : Kin) : KSample :=
  ⟨roundEven (k.p * ((2 ^ 32 : Nat) : Rat)), roundEven (k.v * ((2 ^ 24 : Nat) : Rat)),
   roundEven (k.a * ((2 ^ 16 : Nat) : Rat))⟩

/-- Values of the R162 formats. -/
def posR (p : Int) : Rat := (p : Rat) / ((2 ^ 32 : Nat) : Rat)
def velR (v : Int) : Rat := (v : Rat) / ((2 ^ 24 : Nat) : Rat)
def accR (a : Nat) : Rat := (a : Rat) / ((2 ^ 16 : Nat) : Rat)
def jerkR (j : Nat) : Rat := (j : Rat) / ((2 ^ 8 : Nat) : Rat)

/-- A limit of 0 counts as the smallest magnitude of its format, so that a profile exists. -/
def atLeastR (x m : Rat) : Rat := if x < m then m else x

end Sys2Proof.Machine
end

