-- ==== Sys2Proof/Machine/Profile.lean ====
section
/-! DEFINITION. The axis object (chapter 06): limits in force, replanning, moves and stops, soft limits,
stops by condition, and the events of a tick, as functions of one axis and its parameters. -/

namespace Sys2Proof.Machine

open Sys2Proof

/-- Period of a rate class in ns (R42). -/
def classPeriod (c : Nat) : Nat := 16000 * 2 ^ c

/-- Is `t` the start of a tick with the given period (R43)? The alignment origin is a multiple of 16 s. -/
def isTick (period t : Nat) : Bool := t % period = 0

/-- First tick of a period at or after `t`. -/
def tickAtOrAfter (period t : Nat) : Nat := (t + period - 1) / period * period

/-- Start of the tick of a period in progress at `t`. -/
def tickOf (period t : Nat) : Nat := t / period * period

/-- The mode an axis shows: a member of a group is BLOCKED while a condition holds it (R184, R185). -/
def AxisCore.shown (c : AxisCore) : AxisMode := if c.mode = .path ∧ (c.blkSs1 ∨ c.blkFbk) then .blocked else c.mode

/-- The mode codes of R169. -/
def AxisMode.code : AxisMode → Nat
  | .idle => 0 | .position => 1 | .velocity => 2 | .stopping => 3 | .geared => 4 | .path => 5 | .blocked => 6

def axisPeriod (ps : Params) : Nat := classPeriod (ps.u Par.axisRateClass)

/-! Limits in force (R171, R173, R182, R183). -/

def axisVelLimit (ps : Params) : Rat := velR (ps.i Par.axisVelLimit)
def axisJerk (ps : Params) : Rat := jerkR (ps.u Par.axisJerk)
def axisAcc (ps : Params) : Rat := atLeastR (accR (ps.u Par.axisAccel)) (accR 1)
def axisDec (ps : Params) : Rat := atLeastR (accR (ps.u Par.axisDecel)) (accR 1)

/-- Limits of a position move (R171). -/
def moveLims (ps : Params) : Lims :=
  ⟨min (velR (ps.i Par.axisProfVel)) (axisVelLimit ps), axisAcc ps, axisDec ps, axisJerk ps⟩

/-- Limits of a velocity move (R173). -/
def velLims (ps : Params) : Lims := ⟨axisVelLimit ps, axisAcc ps, axisDec ps, axisJerk ps⟩

/-- Limits of a stop on the quick or the normal ramp (R182). -/
def stopLims (ps : Params) (quick : Bool) : Lims :=
  if quick then
    let qj := ps.u Par.axisQuickJerk
    ⟨axisVelLimit ps, axisAcc ps, atLeastR (accR (ps.u Par.axisQuickDecel)) (accR 1),
     if qj = 0 then axisJerk ps else jerkR qj⟩
  else velLims ps

/-! Planning. -/

/-- A move outward that reaches `v`, keeps it, and comes to rest exactly at a soft limit a distance `s` away (R186); one that has no room to
reach `v` is a move to the limit. -/
def limitSegs (lm : Lims) (k : Kin) (v s : Rat) : List Seg :=
  let up := rampPhase lm k.v k.a v
  let left := s - nsDx up k.v
  let ps := rampPieces lm v 0 0
  let c := ((left - rampDist lm v 0 0) / v * 1000000000).floor
  let fit (round : List Piece → List NsPiece) := fitOver (solveBoth lm v (-v) (left - v * secs c.toNat)) (round ps)
  match if v = 0 ∨ c < 0 then none else (fit (roundPieces (lm.jerk ≠ 0))) <|> (fit roundAll) with
  | some d => toSegs up ++ (if c.toNat = 0 then [] else [⟨c.toNat, 0, 0⟩]) ++ toSegs d
  | none => moveSegs lm k s

/-- Bring the acceleration to 0 and keep the velocity reached (R174), unless that lies beyond the limit in force (R178). -/
def easeSegs (lm : Lims) (k : Kin) : List Seg :=
  let v := easedVel lm k.v k.a
  if lm.vel < absR v then rampSegs lm k (sgnR v * lm.vel) else holdSegs lm k

/-- The segments that reach a goal from a state (R171 … R174, R182). -/
def goalSegs (ps : Params) (k : Kin) (g : Goal) : List Seg :=
  match g with
  | .rest => []
  | .position target => moveSegs (moveLims ps) k (posR target - k.p)
  | .velocity v => rampSegs (velLims ps) k (velR v)
  | .softLimit v lim => limitSegs { velLims ps with vel := absR (velR v) } k (velR v) ((lim : Rat) - k.p)
  | .hold => easeSegs (velLims ps) k
  | .stop q => rampSegs (stopLims ps q) k 0

/-- Sign of a position distance. -/
def sgnI (x : Rat) : Int := if x < 0 then -1 else if x = 0 then 0 else 1

/-- The state lies outside a limit now in force (R178). -/
def overLimit (ps : Params) (k : Kin) (g : Goal) : Bool :=
  let over_ (lm : Lims) : Bool := decide (axisVelLimit ps < absR k.v ∨ (lm.jerk ≠ 0 ∧ accBound lm k.v k.a < absR k.a))
  match g with
  | .rest => false
  | .stop q => over_ (stopLims ps q)
  | _ => over_ (velLims ps)

/-- A target that cannot be reached without passing it first (R181). -/
def mustOvershoot (ps : Params) (k : Kin) (target : Int) : Bool :=
  let s := posR target - k.p
  let d := rampDist (moveLims ps) k.v k.a 0
  (0 < k.v ∧ 0 ≤ s ∧ s < d) ∨ (k.v < 0 ∧ s ≤ 0 ∧ d < s)

/-- Fields of an axis event that carry a position with its fraction (R201). -/
def posData (p : Int) : List Byte := di64 (counts p) ++ d32 (p % oneCount).toNat

/-- A soft limit a plan passes outward: side and limit (R186). -/
def softViolation (ps : Params) (k : Kin) (gs : List Seg) : Option (Nat × Int) :=
  if ps.u Par.axisSoftEn = 0 then none
  else
    let (lo, hi) := planExtremes gs k
    let mn := ps.i Par.axisSoftMin
    let mx := ps.i Par.axisSoftMax
    if (mx : Rat) < hi ∧ k.p < hi then some (1, mx)
    else if lo < (mn : Rat) ∧ lo < k.p then some (0, mn)
    else none

/-- Outcome of an axis operation: the axis, its events, and a fault cause with its event (R33). -/
structure AxisOut where
  core : AxisCore
  evs : List Ev
  fault : Option Ev
  /-- Bits to set in `AXIS.FLAGS`. -/
  flags : Nat
  deriving DecidableEq, Repr

def AxisCore.at (c : AxisCore) (t : Nat) : Kin := c.plan.at t

/-- A sign change of the velocity that has come and is not yet reported stays to be reported when the plan is replaced (R180). -/
def AxisCore.turned (c : AxisCore) (t : Nat) : Option (Int × Int) := c.reversal.filter (fun x => sgnI (c.at t).v == x.2)

/-- Is the goal a motion that a soft limit bounds dynamically? A drain in progress is not replaced (R170, R186). -/
def softApplies (c : AxisCore) : Bool := ¬ c.draining

/-- Replace the plan at tick `t` by one for the goal `g` (R164, R178 … R181, R186). `why` is the cause code of
`OVERSHOOT_PLANNED`. -/
def replan (ps : Params) (c : AxisCore) (t : Nat) (g : Goal) (why : Nat) : AxisOut :=
  let k := c.at t
  let gs := goalSegs ps k g
  let beyond := if overLimit ps k g then 2 else 0
  let viol := if softApplies c then softViolation ps k gs else none
  let isStop := match g with | .stop _ => true | _ => false
  match viol with
  | some (side, lim) =>
    let q := c.quick && isStop
    let c' := { c with goal := .stop q, plan := ⟨t, k, goalSegs ps k (.stop q)⟩, reversal := c.turned t }
    ⟨c', [], some (faultEv Evt.softLimit t (d8 side ++ List.replicate 7 0 ++ di64 lim)), beyond + 4⟩
  | none =>
    let pl : Plan := ⟨t, k, gs⟩
    match g with
    | .position target =>
      let x := crossingPos gs k
      let os := mustOvershoot ps k target
      let rev := x.map (fun p => (roundEven (p * ((2 ^ 32 : Nat) : Rat)), -(sgnI k.v)))
      let evs := match os, rev with
        | true, some (p, _) => [report Evt.overshootPlanned t (posData p ++ d8 why)]
        | _, _ => []
      ⟨{ c with goal := g, plan := pl, reversal := (c.turned t) <|> rev }, evs, none, beyond + (if os then 1 else 0)⟩
    | _ => ⟨{ c with goal := g, plan := pl, reversal := c.turned t }, [], none, beyond⟩

/-! Commands (R171 … R175, R182). -/

/-- What an accepted command does to the planner of an axis, in the order of R52. -/
inductive AxisCmd where
  | moveAbs (target : Int)
  /-- `chained`: its base is the target of an earlier `MOVE_REL` that is not known at its acceptance (R172). -/
  | moveRel (dist : Int) (chained : Bool)
  | moveVel (v : Int)
  | hold
  | stop (quick : Bool)
  /-- A write to one of the limits of R179. -/
  | limit (id : Nat)
  /-- The drain of `OBJECT_DISABLE` or a fault (R170). -/
  | drain
  deriving DecidableEq, Repr

/-- Does a position lie inside the int64 range of counts? -/
def inRange64 (p : Int) : Bool := -(2 ^ 63 : Int) ≤ counts p ∧ counts p < 2 ^ 63

/-- The base of a `MOVE_REL` at tick `t` (R172): the target in force where that is the one meant, else the set-point. -/
def relBase (c : AxisCore) (t : Nat) (chained : Bool) : Int :=
  if chained then c.target else (sampleOf (c.at t)).p

/-- A velocity move outward with a soft limit in force comes to rest at the limit (R186). -/
def velGoal (ps : Params) (v : Int) : Goal :=
  if ps.u Par.axisSoftEn = 1 ∧ 0 < v then .softLimit v (ps.i Par.axisSoftMax)
  else if ps.u Par.axisSoftEn = 1 ∧ v < 0 then .softLimit v (ps.i Par.axisSoftMin)
  else .velocity v

/-- Can a stop at the limit be met from the state (R186)? -/
def softStopOk (ps : Params) (k : Kin) (lim : Int) (up : Bool) : Bool :=
  let d := rampDist (velLims ps) k.v k.a 0
  if up then k.p + max 0 d ≤ (lim : Rat) else (lim : Rat) ≤ k.p + min 0 d

def idleOut (c : AxisCore) : AxisOut := ⟨c, [], none, 0⟩

/-- Start a position move at tick `t`. -/
def startPosition (ps : Params) (c : AxisCore) (t : Nat) (target : Int) : AxisOut :=
  replan ps { c with mode := .position, target := target, announced := false, inPos := none, quick := false } t (.position target) 2

/-- Start a velocity move at tick `t` (R173, R186). -/
def startVelocity (ps : Params) (c : AxisCore) (t : Nat) (v : Int) : AxisOut :=
  let c := { c with mode := .velocity, targetVel := v, announced := false, inPos := none, quick := false }
  match velGoal ps v with
  | .softLimit v lim =>
    if softStopOk ps (c.at t) lim (0 < v) then replan ps c t (.softLimit v lim) 2
    else
      let k := c.at t
      ⟨{ c with goal := .stop false, plan := ⟨t, k, goalSegs ps k (.stop false)⟩, reversal := c.turned t }, [],
       some (faultEv Evt.softLimit t (d8 (if 0 < v then 1 else 0) ++ List.replicate 7 0 ++ di64 lim)), 4⟩
  | g => replan ps c t g 2

/-- Start a stop by command (R182): a `STOP` during a quick stop leaves the quick ramp. -/
def startStop (ps : Params) (c : AxisCore) (t : Nat) (quick : Bool) : AxisOut :=
  match c.mode with
  | .idle | .blocked | .path | .geared => idleOut c
  | .stopping =>
    if c.quick ∨ ¬ quick then idleOut c
    else replan ps { c with stopWhy := 2, quick := true } t (.stop true) 2
  | _ => replan ps { c with mode := .stopping, stopWhy := if quick then 2 else 1, quick := quick, inPos := none } t (.stop quick) 2

/-- Replan for a limit write with the goal in force (R179, R173). -/
def limitWrite (ps : Params) (c : AxisCore) (t id : Nat) : AxisOut :=
  let why := if id = Par.axisDecel ∨ id = Par.axisJerk then 1 else 3
  match c.mode with
  | .idle | .geared | .path => idleOut c
  | _ =>
    match c.goal with
    | .velocity v =>
      let lim := ps.i Par.axisVelLimit
      let v' := if lim < (v.natAbs : Int) then sgn v * lim else v
      replan ps { c with targetVel := v', announced := if v' = v then c.announced else false } t (velGoal ps v') why
    | .softLimit v _ =>
      let lim := ps.i Par.axisVelLimit
      let v' := if lim < (v.natAbs : Int) then sgn v * lim else v
      replan ps { c with targetVel := v', announced := if v' = v then c.announced else false } t (velGoal ps v') why
    | g => replan ps c t g why

/-- Enter the stop of a drain (R170): a quick stop in progress continues on its own ramp. -/
def startDrain (ps : Params) (c : AxisCore) (t : Nat) : AxisOut :=
  let k := c.at t
  let q := c.quick && (match c.goal with | .stop _ => true | _ => false)
  if q then idleOut { c with draining := true }
  else
    let over_ := if overLimit ps k (.stop false) then 2 else 0
    ⟨{ c with draining := true, goal := .stop false, plan := ⟨t, k, goalSegs ps k (.stop false)⟩, reversal := c.turned t, inPos := none },
     [], none, over_⟩

/-- A stop of an axis that is switched to the quick ramp: what it will report and its mode stay (R183, R184). -/
def AxisCore.toQuick (ps : Params) (c : AxisCore) (t : Nat) : AxisCore :=
  let k := c.at t
  { c with quick := true, goal := .stop true, plan := ⟨t, k, goalSegs ps k (.stop true)⟩, reversal := c.turned t, inPos := none }

/-- Apply a command at tick `t`. -/
def axisCmd (ps : Params) (c : AxisCore) (t : Nat) : AxisCmd → AxisOut
  | .moveAbs target => startPosition ps c t target
  | .moveRel d chained =>
    let target := relBase c t chained + d
    if inRange64 target then startPosition ps c t target
    -- the plan stays as it is (R172, log 149)
    else ⟨c, [faultEv Evt.softLimit t (d8 2 ++ List.replicate 7 0 ++ di64 (if d < 0 then -(2 ^ 63) else 2 ^ 63 - 1))], none, 0⟩
  | .moveVel v => startVelocity ps c t v
  | .hold =>
    let lim := ps.i Par.axisVelLimit
    let v := clampI (-lim) lim (roundEven (easedVel (velLims ps) (c.at t).v (c.at t).a * ((2 ^ 24 : Nat) : Rat)))
    match velGoal ps v with
    | .softLimit _ _ => startVelocity ps c t v
    | _ => replan ps { c with mode := .velocity, targetVel := v, announced := false, inPos := none, quick := false } t .hold 2
  | .stop q => startStop ps c t q
  | .limit id => limitWrite ps c t id
  | .drain => startDrain ps c t

/-! Stops by condition (R184, R185). -/

/-- A stop by condition: mode BLOCKED with the given cause on the given ramp; a replanning like any other (R179, R186). -/
def condStop (ps : Params) (c : AxisCore) (t why : Nat) (quick : Bool) : AxisOut :=
  replan ps { c with mode := .blocked, quick := quick, stopWhy := why, inPos := none, announced := false } t (.stop quick) 2

/-- The selected SS1 wires are seen raised at class 0 tick `t` (R184). -/
def ss1Stop (ps : Params) (c : AxisCore) (t : Nat) : AxisOut := condStop ps { c with blkSs1 := true } t 3 true

/-- The bound channel enters RECOVERY with `AXIS.FBK_ACTION` 1 (R185). -/
def suspectStop (ps : Params) (c : AxisCore) (t : Nat) : AxisOut :=
  let c := { c with blkFbk := true }
  if c.blkSs1 then idleOut c else condStop ps c t 4 false

/-! The tick (R163, R171 … R174, R180, R182, R198). -/

/-- At rest: no velocity, no acceleration. -/
def atRest (s : KSample) : Bool := s.v = 0 ∧ s.a = 0

/-- Hold at the present position. -/
def restAt (c : AxisCore) (t : Nat) (p : Int) : AxisCore :=
  { c with goal := .rest, plan := Plan.rest t (posR p), reversal := none, quick := false }

/-- `STOPPED` (R201). -/
def stoppedEv (t cause wires : Nat) (p : Int) : Ev :=
  report Evt.stopped t (d8 cause ++ d8 wires ++ List.replicate 6 0 ++ di64 (counts p))

/-- The reversal event, when the sample has the new sign (R180). -/
def reversalEv (c : AxisCore) (s : KSample) (t : Nat) : AxisCore × List Ev :=
  match c.reversal with
  | some (p, σ) => if sgn s.v = σ then ({ c with reversal := none }, [report Evt.reversal t (posData p)]) else (c, [])
  | none => (c, [])

/-- What a sample of a tick completes: `wires` are the SS1 wires seen. -/
def axisTick (c : AxisCore) (s : KSample) (t wires : Nat) : AxisCore × List Ev :=
  let (c, e0) := reversalEv c s t
  match c.goal with
  | .rest => (c, e0)
  | .position target =>
    if s.p = target ∧ atRest s ∧ ¬ c.draining then
      ({ restAt c t target with mode := .idle, inPos := some (0, 0) }, e0 ++ [report Evt.moveDone t (posData target)])
    else (c, e0)
  | .velocity v =>
    if ¬ c.announced ∧ s.v = v ∧ s.a = 0 then
      let e := report Evt.velReached t (di64 v)
      if v = 0 then ({ restAt c t s.p with mode := .idle, announced := true }, e0 ++ [e])
      else ({ c with announced := true }, e0 ++ [e])
    else (c, e0)
  | .softLimit v lim =>
    let c1 := if ¬ c.announced ∧ s.v = v ∧ s.a = 0 then { c with announced := true } else c
    let e1 := if ¬ c.announced ∧ s.v = v ∧ s.a = 0 then [report Evt.velReached t (di64 v)] else []
    if s.p = lim * oneCount ∧ atRest s then
      ({ restAt c1 t s.p with mode := .idle, stopCause := 5 }, e0 ++ e1 ++ [stoppedEv t 5 0 s.p])
    else (c1, e0 ++ e1)
  | .hold =>
    if ¬ c.announced ∧ c.plan.endsAt ≤ t then
      let e := report Evt.velReached t (di64 s.v)
      if s.v = 0 then ({ restAt c t s.p with mode := .idle, announced := true, targetVel := 0 }, e0 ++ [e])
      else ({ c with announced := true, targetVel := s.v, goal := .velocity s.v }, e0 ++ [e])
    else (c, e0)
  | .stop _ =>
    if atRest s ∧ c.plan.endsAt ≤ t ∧ ¬ c.draining then
      match c.mode with
      | .blocked =>
        ({ restAt c t s.p with mode := .blocked, stopCause := c.stopWhy }, e0 ++ [stoppedEv t c.stopWhy wires s.p])
      | _ => ({ restAt c t s.p with mode := .idle, stopCause := c.stopWhy }, e0 ++ [stoppedEv t c.stopWhy 0 s.p])
    else (c, e0)

/-- Return from BLOCKED at rest once its conditions have ended (R184, R185). -/
def axisRelease (c : AxisCore) (s : KSample) : AxisCore :=
  if c.mode = .blocked ∧ ¬ c.blkSs1 ∧ ¬ c.blkFbk ∧ c.goal = .rest ∧ atRest s then { c with mode := .idle } else c

/-- In-position counting after `MOVE_DONE` (R198); `fb` is the feedback position. -/
def inPosition (ps : Params) (c : AxisCore) (t : Nat) (fb : Option Int) : AxisCore × List Ev :=
  match c.inPos, fb with
  | some (n, k), some f =>
    let w := ps.u Par.axisInposWindow
    let k := if (f - c.target).natAbs ≤ w * 2 ^ 32 then k + 1 else 0
    if k ≥ ps.u Par.axisInposTime then
      ({ c with inPos := none }, [report Evt.inPosition t (di64 (counts f) ++ d32 n)])
    else ({ c with inPos := some (n + 1, k) }, [])
  | _, _ => (c, [])

/-! Refusals (R169, R172, R173, R186). -/

/-- The refusal of a `MOVE_*` by mode. -/
def moveModeCheck (c : AxisCore) : Option Status :=
  match c.shown with
  | .geared | .path => some .wrongState
  | .blocked => some .faulted
  | _ => none

/-- The static check of R186 on a target. -/
def softStatic (ps : Params) (target : Int) : Option Status :=
  if ps.u Par.axisSoftEn = 1 ∧ (target < ps.i Par.axisSoftMin * oneCount ∨ ps.i Par.axisSoftMax * oneCount < target)
  then some .outOfRange else none

/-- Range checks of a `MOVE_REL` whose base is a known target (R172, R186). -/
def relStatic (ps : Params) (base : Option Int) (d : Int) : Option Status :=
  match base with
  | some b => if inRange64 (b + d) then softStatic ps (b + d) else some .outOfRange
  | none => none

/-- A `MOVE_VEL` above the limit (R173). -/
def velRange (ps : Params) (v : Int) : Option Status :=
  if ps.i Par.axisVelLimit < (v.natAbs : Int) then some .outOfRange else none

/-- A `MOVE_VEL` outward at or beyond a limit (R186). -/
def velOutward (ps : Params) (v p : Int) : Option Status :=
  if ps.u Par.axisSoftEn = 1 ∧ ((0 < v ∧ ps.i Par.axisSoftMax * oneCount ≤ p) ∨ (v < 0 ∧ p ≤ ps.i Par.axisSoftMin * oneCount))
  then some .infeasible else none

/-! Life (R166, R168, R209). -/

def AxisCore.create : AxisCore :=
  { mode := .idle, goal := .rest, plan := Plan.rest 0 0, target := 0, targetVel := 0, lastIsTarget := false
    announced := false, stopCause := 0, stopWhy := 0, quick := false, reversal := none, inPos := none
    blkSs1 := false, blkFbk := false, draining := false }

def AxisRa.create : AxisRa :=
  { hor := [], epoch := 0, epochCount := 0, epochCause := 0, epochTick := none, causes := [], commitNow := 1, lateCount := 0
    refineCount := 0, staleRecords := 0, predRun := 0, lastReceived := true, corrs := [], kept := [], srcEpoch := none, srcLast := 0
    receivers := [] }

def Axis.create : Axis :=
  { core := AxisCore.create, ra := AxisRa.create, cur := ⟨0, 0, 0⟩, prev := ⟨0, 0, 0⟩, standstill := none }

/-- The parameters that must not be 0 at enable (R168). -/
def axisEnableParams (ps : Params) : Bool :=
  ps.u Par.axisProfVel ≠ 0 ∧ ps.u Par.axisVelLimit ≠ 0 ∧ ps.u Par.axisAccel ≠ 0 ∧ ps.u Par.axisDecel ≠ 0
    ∧ ps.u Par.axisQuickDecel ≠ 0

/-- Nothing of a source is left. -/
def AxisRa.unlink (ra : AxisRa) : AxisRa :=
  { ra with corrs := [], kept := [], srcEpoch := none, srcLast := 0, predRun := 0, lastReceived := true }

/-- `OBJECT_ENABLE` at tick `t` with the set-point `p` (R168); a raised selected SS1 wire blocks the axis. The next record to each receiver
carries `SYNC` (R215). -/
def axisEnable (ax : Axis) (t : Nat) (p : Int) (wires : Nat) : Axis × List Ev :=
  let c0 := { AxisCore.create with plan := Plan.rest t (posR p), target := p, stopCause := ax.core.stopCause }
  let s : KSample := ⟨p, 0, 0⟩
  let (c, evs) := if wires ≠ 0 then
      ({ c0 with mode := .blocked, blkSs1 := true, stopCause := 3, stopWhy := 3 }, [stoppedEv t 3 wires p])
    else (c0, [])
  ({ ax with core := c, cur := s, prev := s, standstill := none
             ra := { ax.ra.unlink with hor := [], causes := [], receivers := ax.ra.receivers.map (fun r => (r.1, true)) } }, evs)

/-- A feedback rollback shifts the set-point and the target (R212). -/
def axisShift (c : AxisCore) (d : Int) : AxisCore :=
  { c with plan := { c.plan with start := { c.plan.start with p := c.plan.start.p + posR d } }
           target := c.target + d
           goal := match c.goal with | .position t => .position (t + d) | g => g
           reversal := c.reversal.map (fun x => (x.1 + d, x.2)) }

end Sys2Proof.Machine
end

