-- ==== Sys2Proof/Machine/RunAhead.lean ====
section
/-! DEFINITION. Positions between samples, prediction, stream records and corrections (R202 … R228). -/

namespace Sys2Proof.Machine

open Sys2Proof

/-- Exact state of a sample. -/
def kinOf (s : KSample) : Kin :=
  ⟨posR s.p, velR s.v, (s.a : Rat) / ((2 ^ 16 : Nat) : Rat)⟩

/-- The smaller of two times, where there are. -/
def minTick : Option Nat → Option Nat → Option Nat
  | some a, some b => some (min a b)
  | some a, none => some a
  | none, b => b

/-! The cubic of R227. -/

/-- State at the fraction `u` of the interval of `h` seconds between two samples. -/
def cubicAt (a b : Kin) (h u : Rat) : Kin :=
  let u2 := u * u
  let u3 := u2 * u
  { p := a.p * (2 * u3 - 3 * u2 + 1) + a.v * h * (u3 - 2 * u2 + u) + b.p * (3 * u2 - 2 * u3) + b.v * h * (u3 - u2)
    v := (a.p * (6 * u2 - 6 * u) + b.p * (6 * u - 6 * u2)) / h + a.v * (3 * u2 - 4 * u + 1) + b.v * (3 * u2 - 2 * u)
    a := (a.p * (12 * u - 6) + b.p * (6 - 12 * u)) / (h * h) + (a.v * (6 * u - 4) + b.v * (6 * u - 2)) / h }

/-- State at time `t` between the samples at `t0` and `t1`. -/
def between (t0 t1 : Nat) (a b : KSample) (t : Nat) : Kin :=
  if t = t0 then kinOf a else if t = t1 then kinOf b
  else cubicAt (kinOf a) (kinOf b) (secs (t1 - t0)) (((t - t0 : Nat) : Rat) / ((t1 - t0 : Nat) : Rat))

/-- Fractions inside (0, 1) at which the cubic turns, in order. -/
def cubicTurns (a b : Kin) (h : Rat) : List Rat :=
  let A := 2 * a.p + a.v * h - 2 * b.p + b.v * h
  let B := 3 * b.p - 3 * a.p - 2 * a.v * h - b.v * h
  let C := a.v * h
  let disc := B * B - 3 * A * C
  let l := if A = 0 then (if B = 0 then [] else [-C / (2 * B)])
    else if disc < 0 then []
    else
      let x := (-B - sqrtR disc) / (3 * A)
      let y := (-B + sqrtR disc) / (3 * A)
      [min x y, max x y]
  l.filter (fun u => decide (0 < u ∧ u < 1))

/-- The least whole ns above `lo`, in at most 2^n of them, at which something has come to hold that then stays. -/
def leastFrom (f : Nat → Bool) : Nat → Nat → Nat
  | 0, lo => lo + 1
  | n + 1, lo => let mid := lo + 2 ^ n; if f mid then leastFrom f n lo else leastFrom f n mid

/-- Time in ns at which a function that runs one way from below P at `lo` to P or above at `hi` reaches P: rounded to nearest, ties to even. -/
def reachNs (f : Rat → Rat) (P lo hi : Rat) : Nat :=
  let hit (x : Rat) : Bool := decide (hi ≤ x ∨ (lo < x ∧ P ≤ f x))
  let m := leastFrom (fun m => hit (m : Rat)) ((hi - lo).ceil.toNat + 1).log2.succ lo.floor.toNat
  let half : Rat := (m : Rat) - 1 / 2
  if !hit half then m
  else if half ≤ hi ∧ f half = P then (if m % 2 = 0 then m else m - 1)
  else m - 1

/-- The first of the stretches between its turning points on which a function comes up to P, and when. -/
def riseTo (f : Rat → Rat) (P : Rat) : List Rat → Option Nat
  | lo :: hi :: r => if f lo < P ∧ P ≤ f hi then some (reachNs f P lo hi) else riseTo f P (hi :: r)
  | _ => none

/-- Crossing time of P (2⁻³² count) in direction `dir` in the interval t0 < t ≤ t1, after `from_`, to 1 ns (R227). -/
def crossingIn (t0 t1 : Nat) (a b : KSample) (from_ : Nat) (P : Int) (dir : Int) : Option Nat :=
  let ka := kinOf a
  let kb := kinOf b
  let n : Rat := ((t1 - t0 : Nat) : Rat)
  let h := secs (t1 - t0)
  let f (x : Rat) : Rat := (cubicAt ka kb h (x / n)).p
  let x0 : Rat := ((from_ - t0 : Nat) : Rat)
  let ends := x0 :: (((cubicTurns ka kb h).map (fun u => u * n)).filter (fun x => decide (x0 < x)) ++ [n])
  let up := (riseTo f (posR P) ends).map (fun x => t0 + x)
  let down := (riseTo (fun x => -(f x)) (-(posR P)) ends).map (fun x => t0 + x)
  if dir > 0 then up else if dir < 0 then down else minTick up down

/-! Prediction (R222). -/

/-- The state `ns` after a record: its acceleration is held, and once the velocity reaches zero the source rests. -/
def predict (s : KSample) (ns : Nat) : Kin :=
  let k := kinOf s
  let τ := secs ns
  if k.v * k.a < 0 ∧ absR k.v ≤ absR k.a * τ then ⟨k.p + k.v * k.v / (2 * absR k.a) * sgnR k.v, 0, 0⟩
  else ⟨k.p + k.v * τ + k.a * τ * τ / 2, k.v + k.a * τ, k.a⟩

/-- State of a list of samples at time `t`: a sample, the cubic between two, or the prediction from the last
at or before `t`; with it, whether it is predicted. After a `FINAL` record the source rests. -/
def samplesAt (hs : List HSample) (final : Bool) (t : Nat) : Option (Kin × Bool) :=
  let before := hs.filter (fun x => x.tick ≤ t)
  let after := hs.find? (fun x => t ≤ x.tick)
  match before.getLast?, after with
  | some a, some b => some (if a.tick = b.tick then kinOf a.s else between a.tick b.tick a.s b.s t, false)
  | some a, none => some (if final then ⟨posR a.s.p, 0, 0⟩ else predict a.s (t - a.tick), ¬ final)
  | none, _ => none

/-- An `FBK` source at time `t`: the latest sample extrapolated with its speed (R228, R234). -/
def fbkAt (s : FbkSample) (t : Nat) : Kin :=
  ⟨posR s.pos + velR s.speed * (((t : Int) - s.time : Int) : Rat) / 1000000000, velR s.speed, 0⟩

/-! Corrections (R220, R232). -/

/-- Limits of a correction. -/
def catchupLims (ps : Params) : Lims :=
  let v := ps.i Par.axisCatchupVel
  let a := ps.u Par.axisCatchupAcc
  let acc := if a = 0 then axisDec ps else accR a
  ⟨if v = 0 then axisVelLimit ps else velR v, acc, acc, axisJerk ps⟩

/-- The correction that starts at `t` from the difference `c` and is planned to zero. -/
def startCorr (ps : Params) (t : Nat) (c : Kin) : Correction := ⟨⟨t, c, moveSegs (catchupLims ps) c (-c.p)⟩, 0, t, 0⟩

/-- How far it lies behind its plan at tick `t`. -/
def Correction.lagAt (c : Correction) (t : Nat) : Nat := if t ≤ c.seen then c.lag else c.lag + c.slow

/-- Is the correction zero at `t`? -/
def Correction.done (c : Correction) (t : Nat) : Bool := decide (c.plan.endsAt + c.lagAt t ≤ t)

/-- The correction at tick `t` of the axis's period. Where the sum with the derived sample `s` would exceed `AXIS.VEL_LIMIT` the velocity is
reduced so that the sum equals the limit, and the correction advances along its plan by so much less (R220; log 150). -/
def Correction.tick (ps : Params) (period : Nat) (c : Correction) (t : Nat) (s : KSample) : Correction × Kin :=
  let lag := c.lagAt t
  let k := c.plan.at (t - lag)
  let vd := velR s.v
  let lim := axisVelLimit ps
  let sum := vd + k.v
  if lim < absR sum ∧ 0 < sum * k.v then
    let v := sgnR sum * lim - vd
    let v := if v * k.v < 0 then 0 else v
    ({ c with lag := lag, seen := t, slow := period - ((period : Rat) * v / k.v).floor.toNat },
     ⟨k.p, v, if v = 0 then 0 else -((s.a : Rat) / ((2 ^ 16 : Nat) : Rat))⟩)
  else ({ c with lag := lag, seen := t, slow := 0 }, k)

/-- Corrections at tick `t`: one that has started replaces the one before it. -/
def currentCorrs (t : Nat) : List Correction → List Correction
  | c :: c' :: r => if c'.plan.t0 ≤ t then currentCorrs t (c' :: r) else c :: c' :: r
  | l => l

/-- The correction in force at a tick. -/
def AxisRa.corrAt (ra : AxisRa) (t : Nat) : Option Correction :=
  match currentCorrs t ra.corrs with
  | c :: _ => if c.plan.t0 ≤ t ∧ c.done t = false then some c else none
  | [] => none

/-- A derived sample with its correction, and the corrections after the tick. -/
def correct (ps : Params) (period : Nat) (cs : List Correction) (t : Nat) (s : KSample) : List Correction × KSample :=
  match currentCorrs t cs with
  | [] => ([], s)
  | c :: r =>
    if t < c.plan.t0 then (c :: r, s)
    else if c.done t then (r, s)
    else
      let (c, k) := c.tick ps period t s
      let k := sampleOf k
      (c :: r, ⟨s.p + k.p, s.v + k.v, s.a + k.a⟩)

def subKin (a b : Kin) : Kin := ⟨a.p - b.p, a.v - b.v, a.a - b.a⟩

/-! Commit (R204, R205). -/

/-- First tick of a period not committed before `T`: the first n with C(n) ≥ T (R219). -/
def firstUncommitted (period lead T : Nat) : Nat := tickAtOrAfter period (T + lead)

/-! Epochs (R209 … R213). -/

/-- Start a new epoch at tick `t` with its cause; one epoch per tick, which keeps its first cause except that an
SS1 stop always reports cause 3 (R210). -/
def newEpoch (ra : AxisRa) (t cause : Nat) : AxisRa :=
  if ra.epochTick = some t then { ra with epochCause := if cause = 3 then 3 else ra.epochCause }
  else { ra with epoch := (ra.epoch + 1) % 65536, epochCount := (ra.epochCount + 1) % 2 ^ 32
                 epochCause := cause, epochTick := some t }

/-- First tick at which a recomputed horizon differs from the samples held (R211). -/
def firstDiff : List HSample → List HSample → Option Nat
  | [], _ => none
  | h :: hs, new =>
    match new.find? (fun x => x.tick == h.tick) with
    | some x => if x.s = h.s then firstDiff hs new else some h.tick
    | none => firstDiff hs new

/-! Stream records (R215 … R217). -/

/-- The 48 bytes of a record. -/
def encodeRecord (r : StreamRec) : List Byte :=
  d32 r.src.toNat ++ d16 r.epoch ++ d16 r.lead ++ d32 r.tickS.toNat ++ d32 r.tickNs ++ di64 (counts r.s.p)
    ++ d32 (r.s.p % oneCount).toNat
    ++ d8 ((if r.sync then 1 else 0) + (if r.retract then 2 else 0) + (if r.final then 4 else 0) + (if r.predicted then 8 else 0))
    ++ d8 r.cause ++ d16 r.oldEpoch ++ di64 r.s.v ++ di64 r.s.a

/-- A record from its 48 bytes. -/
def decodeRecord (b : List Byte) : StreamRec :=
  let fl := rdU b 28 1
  { src := BitVec.ofNat 32 (rdU b 0 4), epoch := rdU b 4 2, lead := rdU b 6 2, tickS := BitVec.ofNat 32 (rdU b 8 4)
    tickNs := rdU b 12 4, s := ⟨rdI b 16 8 * oneCount + rdU b 24 4, rdI b 32 8, rdI b 40 8⟩
    sync := bitOf fl 0, retract := bitOf fl 1, final := bitOf fl 2, predicted := bitOf fl 3
    cause := rdU b 29 1, oldEpoch := rdU b 30 2 }

/-- Full MTIME of a record's tick: the seconds are completed from the die's own time `now` (ns), to the value
nearest to it. -/
def recordTick (r : StreamRec) (now : Nat) : Nat :=
  let s := now / 1000000000
  let d := asSigned 32 (((r.tickS.toNat : Int) - s) % 2 ^ 32).toNat
  ((s : Int) + d).toNat * 1000000000 + r.tickNs

/-- What a record does to the samples held (R217). -/
inductive RecordKind where
  | current | newer | older
  deriving DecidableEq, Repr

def recordKind (st : SrcStream) (r : StreamRec) : RecordKind :=
  match st.epoch with
  | none => .current
  | some c =>
    if r.sync then .current
    else
      let d := (r.epoch + 65536 - c) % 65536
      if d = 0 then .current else if d ≤ 32767 then .newer else .older

/-- Insert a sample in tick order, replacing one of the same tick. -/
def insertSample (x : HSample) : List HSample → List HSample
  | [] => [x]
  | h :: hs => if x.tick < h.tick then x :: h :: hs else if x.tick = h.tick then x :: hs else h :: insertSample x hs

/-- Apply a record to the samples held of its source (R217); `tick` is its full MTIME. -/
def applyRecord (st : SrcStream) (r : StreamRec) (tick : Nat) : SrcStream :=
  let x : HSample := ⟨tick, r.s, r.epoch, r.predicted⟩
  match recordKind st r with
  | .older => st
  | .newer =>
    { st with epoch := some r.epoch, lead := r.lead, final := r.final
              held := insertSample x (st.held.filter (fun h => h.tick < tick)) }
  | .current =>
    { st with epoch := some r.epoch, lead := r.lead, final := r.final, held := insertSample x st.held }

end Sys2Proof.Machine
end

