-- ==== Sys2Proof/Machine/OrreryTypes.lean ====
section
/-! DEFINITION. State of gear links, cam tables, compare events, capture channels and line clocks
(chapter 08). Positions are in units of 2⁻³² count, exact where they are rationals. -/

namespace Sys2Proof.Machine

open Sys2Proof

/-- A `GEAR_RATIO` not yet applied (R236): arm position, new ratio, blend distance, `DIR`, `IMMEDIATE`. -/
structure RatioChange where
  pos : Int
  num : Int
  den : Nat
  blend : Nat
  dir : Nat
  immediate : Bool
  late : Bool
  /-- Armed direction of a change that has come to act inside a blend and waits for its end. -/
  waits : Option Int
  deriving DecidableEq, Repr

/-- A blend in progress (R236): its start, the armed direction (1 or −1), its length, the ratio it ends in. -/
structure Blend where
  pa : Rat
  dir : Int
  len : Nat
  num : Int
  den : Nat
  deriving DecidableEq, Repr

/-- A shift in progress (R237): its start, Δ and B. -/
structure Shift where
  ms : Rat
  delta : Int
  len : Nat
  deriving DecidableEq, Repr

/-- The law x(m) = x0 + (m − m0)·num/den of R233, R236 and R243, on the slave reference `s0`. -/
structure GearLaw where
  m0 : Rat
  x0 : Rat
  s0 : Int
  num : Int
  den : Nat
  blend : Option Blend
  shift : Option Shift
  deriving DecidableEq, Repr

/-- A gear link. -/
structure Gear where
  engaged : Bool
  /-- `GEAR_SYNCED` has been posted (R232). -/
  synced : Bool
  law : GearLaw
  /-- Master position at the tick before, once engaged. -/
  prevM : Rat
  armed : Option RatioChange
  /-- Held until engagement (R236, R237): ratio change; Δ, with that of every shift before it, and B of a shift. -/
  heldRatio : Option RatioChange
  heldShift : Option (Int × Nat)
  /-- `GEAR.CAM_NOW`, 0 for none, and the table of a switch not yet made (R244). -/
  camNow : U32
  camArmed : Option U32
  deriving DecidableEq, Repr

/-- A `CAM` object (R240): point count, first address in SRAM, bytes allocated. -/
structure Cam where
  points : Nat
  addr : Nat
  bytes : Nat
  deriving DecidableEq, Repr

/-- A compare edge placed and not yet driven (R228, R248). -/
structure EvtEdge where
  /-- Crossing time, pin time, and the time at which it leaves the ball. -/
  cross : Nat
  pin : Nat
  leave : Nat
  pos : Int
  dir : Int
  latePlace : Bool
  firedLate : Bool
  /-- Closer than 250 ns to a fire: counted as missed, not fired. -/
  skip : Bool
  deriving DecidableEq, Repr

/-- A compare event (R245 … R251). `st` has the codes of `EVT.STATE`. -/
structure Cmp where
  st : Nat
  next : Int
  interval : Nat
  /-- Fires left; none for unlimited. -/
  remain : Option Nat
  fireCount : Nat
  missedCount : Nat
  /-- Edges placed, in order; and the time up to which crossings have been searched. -/
  placed : List EvtEdge
  searched : Nat
  lastFire : Option Nat
  /-- End of the pulse in progress. -/
  pulseEnd : Option Nat
  deriving DecidableEq, Repr

/-- A capture channel (R252, R253). -/
structure Capt where
  armed : Bool
  /-- Level of the trigger input as the channel takes it (R252). -/
  level : Bool
  /-- In 2⁻³² count. -/
  lastPos : List Int
  /-- Pin time of the last capture. -/
  lastTime : Nat
  count : Nat
  /-- Last capture since enable, for the hold-off. -/
  last : Option Nat
  deriving DecidableEq, Repr

/-- A line-clock edge placed and not yet driven (R257). -/
structure LineEdge where
  k : Nat
  cross : Nat
  pin : Nat
  leave : Nat
  /-- Position delay with which its boundary was computed, and the delay before it (R259). -/
  delay : Int
  before : Int
  late : Bool
  /-- Placed before the arm in force (R256). -/
  old : Bool
  /-- Its boundary lay at or behind the source at the start of its interval (R256). -/
  behind : Bool
  /-- Emitted at the minimum spacing instead of its own time (R258). -/
  spaced : Bool
  deriving DecidableEq, Repr

/-- A Calliope output (R255 … R262). -/
structure Lclk where
  output : Nat
  /-- An `LCLK_ARM` has taken effect since enable. -/
  armed : Bool
  origin : Int
  /-- Next line to place; highest line emitted, −1 before the first. -/
  nextK : Nat
  high : Int
  left : Option Nat
  /-- `LINES_DONE` has been posted for the arm in force. -/
  done : Bool
  placed : List LineEdge
  searched : Nat
  /-- Delay of the last line placed, target of the change in progress, change in progress; the target holds for every line not yet placed
  (R259, R260). -/
  delayNow : Int
  delayTarget : Int
  regPending : Bool
  stepped : Bool
  lastEdge : Option Nat
  /-- Time of the last `LINE_OVERRUN`, and lines delayed since. -/
  overrunAt : Option Nat
  overrunN : Nat
  /-- Consecutive ticks placed from prediction (R261). -/
  predRun : Nat
  pulseEnd : Option Nat
  deriving DecidableEq, Repr

end Sys2Proof.Machine
end

