-- ==== Sys2Proof/Machine/Orrery.lean ====
section
/-! DEFINITION. The Orrery (chapter 08): gear laws, cam tables, compare events and capture channels as
functions of one object and what it reads. -/

namespace Sys2Proof.Machine

open Sys2Proof

/-- Position in 2⁻³² count from counts. -/
def unitR : Rat := ((2 ^ 32 : Nat) : Rat)

/-! Cam tables (R240 … R244). -/

/-- A cam table as read from its region; points as 2⁻³² slave counts. -/
structure CamTab where
  n : Nat
  period : Nat
  rise : Int
  cubic : Bool
  pts : Nat → Int

/-- Table bytes for a point count (R240). -/
def camBytes (n : Nat) : Nat := (64 + 8 * n + 63) / 64 * 64

/-- CRC-32 of IEEE 802.3, one byte into the reflected remainder. -/
def crc32Byte (c : BitVec 32) (b : Byte) : BitVec 32 :=
  let step (c : BitVec 32) : BitVec 32 := if c.getLsbD 0 then (c >>> 1) ^^^ 0xEDB88320 else c >>> 1
  step (step (step (step (step (step (step (step (c ^^^ b.setWidth 32))))))))

/-- CRC-32 with initial value 0xFFFF_FFFF and final complement. -/
def crc32 (b : List Byte) : BitVec 32 := ~~~ (b.foldl crc32Byte 0xFFFFFFFF)

/-- Fields of a table image. -/
def camTab (b : List Byte) (n : Nat) : CamTab :=
  { n := n, period := rdU b 16 8, rise := rdI b 24 8 * oneCount + rdU b 32 4, cubic := bitOf (rdU b 6 2) 0
    pts := fun i => rdI b (64 + 8 * i) 8 }

/-- The check of R242: the cause, or none. -/
def camCheck (b : List Byte) (n : Nat) : Option Nat :=
  if rdU b 0 4 ≠ 0x4D414331 ∨ rdU b 4 2 ≠ 1 then some 1
  else if rdU b 8 4 ≠ n then some 2
  else if rdU b 16 8 < n ∨ 2 ^ 62 < rdU b 16 8 then some 3
  else if rdI b 64 8 ≠ 0 then some 4
  else if (crc32 (b.take 60 ++ (b.drop 64).take (8 * n))).toNat ≠ rdU b 60 4 then some 5
  else if rdU b 6 2 / 2 ≠ 0 ∨ rdU b 12 4 ≠ 0 ∨ rdU b 36 24 ≠ 0 then some 6
  else none

/-- Point i of a table, with the rise over a wrap (R243). -/
def CamTab.y (c : CamTab) (i : Int) : Rat :=
  (c.pts (i % c.n).toNat : Rat) + ((i / c.n : Int) : Rat) * (c.rise : Rat)

/-- Cam master length of a cycle in 2⁻³² counts. -/
def CamTab.len (c : CamTab) : Rat := (c.period : Rat) * unitR

/-- Cycle number of a cam master position. -/
def CamTab.cycle (c : CamTab) (x : Rat) : Int := (x / c.len).floor

/-- Slave offset and its first two derivatives at a cam master position (R243). -/
def CamTab.eval (c : CamTab) (x : Rat) : Rat × Rat × Rat :=
  let cyc := c.cycle x
  let w := (x - (cyc : Rat) * c.len) * (c.n : Rat) / c.len
  let i := w.floor
  let u := w - (i : Rat)
  let g : Rat := (c.n : Rat) / c.len
  let y0 := c.y i
  let y1 := c.y (i + 1)
  let base := (cyc : Rat) * (c.rise : Rat)
  if c.cubic then
    let m0 := (y1 - c.y (i - 1)) / 2
    let m1 := (c.y (i + 2) - y0) / 2
    let k := cubicAt ⟨y0, m0, 0⟩ ⟨y1, m1, 0⟩ 1 u
    (base + k.p, k.v * g, k.a * g * g)
  else (base + y0 + u * (y1 - y0), (y1 - y0) * g, 0)

/-! The gear law (R233, R236, R237). -/

def ratioR (num : Int) (den : Nat) : Rat := (num : Rat) / (den : Rat)

/-- x(m) with its first two derivatives. -/
def GearLaw.x (l : GearLaw) (m : Rat) : Rat × Rat × Rat :=
  let r1 := ratioR l.num l.den
  match l.blend with
  | none => (l.x0 + (m - l.m0) * r1, r1, 0)
  | some b =>
    let r2 := ratioR b.num b.den
    let z := m - b.pa
    let w := z * (b.dir : Rat)
    let len : Rat := (b.len : Rat)
    if w ≤ 0 then (l.x0 + z * r1, r1, 0)
    else if len ≤ w then
      let e := len * (b.dir : Rat)
      (l.x0 + (r1 + r2) * e / 2 + r2 * (z - e), r2, 0)
    else
      let u := w / len
      (l.x0 + r1 * z + (r2 - r1) * z * (u * u - u * u * u / 2),
       r1 + (r2 - r1) * (3 * u * u - 2 * u * u * u),
       (r2 - r1) * (6 * u - 6 * u * u) / len * (b.dir : Rat))

/-- Offset of a shift with its first two derivatives (R237). -/
def shiftAt (s : Option Shift) (m : Rat) : Rat × Rat × Rat :=
  match s with
  | none => (0, 0, 0)
  | some s =>
    let z := m - s.ms
    let len : Rat := (s.len : Rat)
    let d : Rat := (s.delta : Rat)
    let u := absR z / len
    if 1 ≤ u then (d, 0, 0)
    else (d * (3 * u * u - 2 * u * u * u), d * (6 * u - 6 * u * u) / len * sgnR z, d * (6 - 12 * u) / (len * len))

/-- Geared position before its one rounding, with its derivatives. -/
def GearLaw.s (l : GearLaw) (cam : Option CamTab) (m : Rat) : Rat × Rat × Rat :=
  let (x, x1, x2) := l.x m
  let (o, o1, o2) := shiftAt l.shift m
  match cam with
  | none => ((l.s0 : Rat) + x + o, x1 + o1, x2 + o2)
  | some c =>
    let (y, y1, y2) := c.eval x
    ((l.s0 : Rat) + y + o, y1 * x1 + o1, y2 * x1 * x1 + y1 * x2 + o2)

/-- The geared sample of a slave for a master state (R233). -/
def GearLaw.sample (l : GearLaw) (cam : Option CamTab) (mk : Kin) : KSample :=
  let (s, s1, s2) := l.s cam (mk.p * unitR)
  ⟨roundEven s, roundEven (s1 * mk.v * ((2 ^ 24 : Nat) : Rat)),
   roundEven ((s1 * mk.a + s2 * unitR * mk.v * mk.v) * ((2 ^ 16 : Nat) : Rat))⟩

/-- A change takes effect at the master position `pa` (R236). -/
def GearLaw.change (l : GearLaw) (cam : Option CamTab) (pa : Rat) (dir : Int) (c : RatioChange) : GearLaw :=
  let xa := (l.x pa).1
  let (x0, s0) := match cam with
    | some _ => (xa, l.s0)
    | none => ((0 : Rat), l.s0 + roundEven xa)
  if c.blend = 0 then { l with m0 := pa, x0 := x0, s0 := s0, num := c.num, den := c.den, blend := none }
  else { l with m0 := pa, x0 := x0, s0 := s0, blend := some ⟨pa, dir, c.blend, c.num, c.den⟩ }

/-- The end of a blend: the link keeps the r2 line (R236). -/
def GearLaw.endBlend (l : GearLaw) (cam : Option CamTab) (b : Blend) : GearLaw :=
  let mend := b.pa + (b.len : Rat) * (b.dir : Rat)
  let xb := (l.x mend).1
  match cam with
  | some _ => { l with m0 := mend, x0 := xb, num := b.num, den := b.den, blend := none }
  | none => { l with m0 := mend, x0 := 0, s0 := l.s0 + roundEven xb, num := b.num, den := b.den, blend := none }

/-- A new shift (R237): what an earlier one has added goes to S0, its remainder to the new Δ. -/
def GearLaw.startShift (l : GearLaw) (m : Rat) (delta : Int) (len : Nat) : GearLaw :=
  match l.shift with
  | none => { l with shift := some ⟨m, delta, len⟩ }
  | some s =>
    let d := roundEven (shiftAt (some s) m).1
    { l with s0 := l.s0 + d, shift := some ⟨m, delta + (s.delta - d), len⟩ }

/-- Does the master lie at or past the arm position at a change's own tick (R236)? -/
def ratioPast (c : RatioChange) (m v : Rat) : Bool :=
  let pa : Rat := (c.pos : Rat)
  if c.dir = 1 then pa ≤ m else if c.dir = 2 then m ≤ pa
  else if v = 0 then m = pa else (pa - m) * sgnR v ≤ 0

/-- Direction in which the master crosses `pa` from `m0` to `m1`, none where it does not or not as `DIR` says. -/
def ratioCross (dir : Nat) (pa m0 m1 : Rat) : Option Int :=
  if dir ≠ 2 ∧ m0 < pa ∧ pa ≤ m1 then some 1
  else if dir ≠ 1 ∧ pa < m0 ∧ m1 ≤ pa then some (-1)
  else none

/-- `RATIO_APPLIED` (R270). -/
def ratioApplied (t : Nat) (c : RatioChange) : Ev :=
  report Evt.ratioApplied t (di64 (c.pos / oneCount) ++ di32 c.num ++ d8 (if c.late then 1 else 0))

/-- Is a position inside the window of a blend? -/
def inBlend (b : Blend) (p : Rat) : Bool :=
  let w := (p - b.pa) * (b.dir : Rat)
  0 ≤ w ∧ w ≤ (b.len : Rat)

/-- A change comes to act at the master position `pa`, with its armed direction: inside a blend it waits for the end of that (R236). -/
def gearAct (g : Gear) (cam : Option CamTab) (c : RatioChange) (pa : Rat) (dir : Int) (t : Nat) : Gear × List Ev :=
  if g.law.blend.any (fun b => inBlend b pa) then ({ g with armed := some { c with waits := some dir } }, [])
  else ({ g with armed := none, law := g.law.change cam pa dir c }, [ratioApplied t c])

/-- Arm a change at tick `t` of an engaged link whose master is at `m` with velocity `v` (R236). -/
def gearArm (g : Gear) (cam : Option CamTab) (c : RatioChange) (m v : Rat) (t : Nat) : Gear × List Ev :=
  if c.immediate ∨ ratioPast c m v then
    let dir : Int := if c.dir = 1 then 1 else if c.dir = 2 then -1 else if v < 0 then -1 else 1
    gearAct g cam { c with pos := roundEven m, late := ¬ c.immediate } m dir t
  else ({ g with armed := some c }, [])

/-- The direction in which an armed change has come to act by the time the master is at `m`, none while it has not. -/
def gearReached (g : Gear) (c : RatioChange) (m : Rat) : Option Int := c.waits <|> ratioCross c.dir (c.pos : Rat) g.prevM m

/-- The end of a blend the master has left beyond its far end; a change that has come to act inside it takes effect there. -/
def gearBlendStep (g : Gear) (cam : Option CamTab) (m : Rat) (t : Nat) : Gear × List Ev :=
  match g.law.blend with
  | none => (g, [])
  | some b =>
    if (m - b.pa) * (b.dir : Rat) < (b.len : Rat) then (g, [])
    else
      let mend := b.pa + (b.len : Rat) * (b.dir : Rat)
      let l := g.law.endBlend cam b
      let g' := { g with law := l, prevM := mend }
      match g.armed with
      | some c =>
        match (if c.waits.isSome ∨ inBlend b (c.pos : Rat) then gearReached g c mend else none) with
        | some dir => ({ g' with armed := none, law := l.change cam mend dir c }, [ratioApplied t c])
        | none => (g', [])
      | none => (g', [])

/-- An armed change whose position the master has crossed since the tick before. -/
def gearCrossStep (g : Gear) (cam : Option CamTab) (m : Rat) (t : Nat) : Gear × List Ev :=
  match g.armed with
  | some c =>
    if c.waits.isSome then (g, [])
    else match ratioCross c.dir (c.pos : Rat) g.prevM m with
      | some dir => gearAct g cam c (c.pos : Rat) dir t
      | none => (g, [])
  | none => (g, [])

/-- A shift that has reached its end (R237). -/
def gearShiftStep (g : Gear) (m : Rat) (t : Nat) : Gear × List Ev :=
  match g.law.shift with
  | some s =>
    if (s.len : Rat) ≤ absR (m - s.ms) then
      ({ g with law := { g.law with s0 := g.law.s0 + s.delta, shift := none } },
       [report Evt.shiftDone t (di64 (s.delta / oneCount))])
    else (g, [])
  | none => (g, [])

/-- Master position at which x reaches a cycle boundary between two master positions, by bisection. -/
def boundaryBisect (l : GearLaw) (x : Rat) : Nat → Rat → Rat → Rat
  | 0, _, hi => hi
  | n + 1, lo, hi =>
    let mid := (lo + hi) / 2
    if ((l.x lo).1 < x) = ((l.x mid).1 < x) then boundaryBisect l x n mid hi else boundaryBisect l x n lo mid

/-- Master position of a cycle boundary (R244). -/
def boundaryPos (l : GearLaw) (x m0 m1 : Rat) : Rat :=
  if l.blend.isNone ∧ l.num ≠ 0 then l.m0 + (x - l.x0) / ratioR l.num l.den else boundaryBisect l x 60 m0 m1

/-- The armed cam switch at a cycle boundary (R244); `next` is the table armed, if it is ENABLED. -/
def gearCamStep (g : Gear) (cam : Option CamTab) (next : U32 → Option CamTab) (m : Rat) (t : Nat) : Gear × List Ev :=
  match cam, g.camArmed with
  | some c, some h =>
    let k0 := c.cycle (g.law.x g.prevM).1
    let k1 := c.cycle (g.law.x m).1
    if k0 = k1 then (g, [])
    else match next h with
      | none => ({ g with camArmed := none }, [report Evt.camSwitched t (d32 g.camNow.toNat ++ d8 2)])
      | some _ =>
        -- the next boundary from where the cam master was
        let x := ((if k0 < k1 then k0 + 1 else k0 : Int) : Rat) * c.len
        let mb := boundaryPos g.law x g.prevM m
        let s := (g.law.s cam mb).1 - (shiftAt g.law.shift mb).1
        ({ g with camArmed := none, camNow := h,
                  law := { g.law with x0 := g.law.x0 - x, s0 := roundEven s } },
         [report Evt.camSwitched t (d32 h.toNat ++ d8 1)])
  | _, _ => (g, [])

/-- One tick of an engaged link: what the master's travel since the tick before brings about. -/
def gearStep (g : Gear) (tab : U32 → Option CamTab) (m : Rat) (t : Nat) : Gear × List Ev :=
  let cam (g : Gear) : Option CamTab := if g.camNow = 0 then none else tab g.camNow
  let (g, e1) := gearBlendStep g (cam g) m t
  let (g, e2) := gearCrossStep g (cam g) m t
  let (g, e3) := gearBlendStep g (cam g) m t
  let (g, e4) := gearCamStep g (cam g) tab m t
  let (g, e5) := gearShiftStep g m t
  ({ g with prevM := m }, e1 ++ e2 ++ e3 ++ e4 ++ e5)

/-- Engagement at a tick (R232, R236, R237): references, then what was held. -/
def gearEngage (ps : Params) (g : Gear) (tab : U32 → Option CamTab) (m : Kin) (slave : Int) (t : Nat) : Gear × List Ev :=
  let mp := m.p * unitR
  let fixed := ps.u Par.gearEngage = 1
  let m0 : Rat := if fixed then ((ps.i Par.gearMasterRef * oneCount : Int) : Rat) else mp
  let s0 : Int := if fixed then ps.i Par.gearSlaveRef * oneCount else slave
  let l : GearLaw := ⟨m0, 0, s0, ps.i Par.gearNum, ps.u Par.gearDen, none, none⟩
  let camNow := ps.h Par.gearCam
  let g := { g with engaged := true, synced := false, law := l, prevM := mp, camNow := camNow }
  let cam := if camNow = 0 then none else tab camNow
  let (g, e1) := match g.heldRatio with
    | some c => gearArm { g with heldRatio := none } cam c mp m.v t
    | none => (g, [])
  let g := match g.heldShift with
    | some (d, b) => { g with heldShift := none, law := g.law.startShift mp d b }
    | none => g
  (g, e1)

def Gear.create : Gear :=
  { engaged := false, synced := false, law := ⟨0, 0, 0, 1, 1, none, none⟩, prevM := 0, armed := none
    heldRatio := none, heldShift := none, camNow := 0, camArmed := none }

/-- `GEAR.STATE` (R264); `corr` tells whether the slave's correction is still running. -/
def Gear.stateCode (g : Gear) (corr : Bool) : Nat :=
  if ¬ g.engaged then 0 else if corr then 1 else if g.law.blend.isSome then 3 else 2

/-- `GEAR.ARMED` (R264). -/
def Gear.armedCode (g : Gear) : Nat :=
  (if g.armed.isSome ∨ g.heldRatio.isSome then 1 else 0) + (if g.camArmed.isSome then 2 else 0)
    + (if g.law.shift.isSome ∨ g.heldShift.isSome then 4 else 0)

/-! Compare events (R245 … R251). -/

/-- The way from a crossing to its edge (R228): the time `q` at which it is placed, and now. An edge whose pin
time is less than 2 µs after `q` leaves within 2 µs of the later of `q` and now, never before its pin time. -/
def placeEdge (free : Nat) (pin q now : Nat) : Nat × Bool :=
  if q + 2000 ≤ pin ∧ now ≤ pin then (pin, false)
  else (max pin (max q now + Config.free free 2001), true)

/-- State of the search for crossings of one object. -/
structure CmpScan where
  next : Int
  remain : Option Nat
  last : Option Nat
  out : List EvtEdge
  deriving DecidableEq, Repr

/-- Fires left after one more. -/
def lessOne (r : Option Nat) : Option Nat := r.map (fun n => n - 1)

/-- Is another fire due? -/
def moreFires (r : Option Nat) : Bool := match r with | some 0 => false | _ => true

/-- Take one crossing into the placement: its edge, or a missed position (R248). -/
def cmpTake (ps : Params) (c : Cmp) (free : Nat) (sc : CmpScan) (x : Nat) (dir : Int) (q now : Nat) : CmpScan :=
  let pin := ((x : Int) - ps.i Par.evtLeadNs).toNat
  let (leave, late) := placeEdge (free + sc.out.length) pin q now
  let near := match sc.last with | some l => leave < l + 250 | none => false
  let e : EvtEdge := ⟨x, pin, leave, sc.next, dir, late, false, near⟩
  let next := sc.next + dir * (c.interval : Int) * oneCount
  if near then { sc with next := next, out := sc.out ++ [e] }
  else
    { next := next, remain := if c.interval = 0 then some 0 else lessOne sc.remain
      last := some leave, out := sc.out ++ [e] }

/-- Search an interval (from, t1] for crossings, one after the other; answers also the time up to which the interval is searched. -/
def cmpSearch (ps : Params) (c : Cmp) (free : Nat) (cross : Nat → Int → Option (Nat × Int)) (q now t1 : Nat) :
    Nat → Nat → CmpScan → CmpScan × Nat
  | 0, from_, sc => (sc, from_)
  | n + 1, from_, sc =>
    if ¬ moreFires sc.remain then (sc, t1)
    else match cross from_ sc.next with
      | none => (sc, t1)
      | some (x, d) => cmpSearch ps c free cross q now t1 n x (cmpTake ps c free sc x d q now)

/-- Where the search of an object stands: after the edges placed. -/
def Cmp.scan (c : Cmp) : CmpScan :=
  match c.placed.getLast? with
  | none => ⟨c.next, c.remain, c.lastFire, []⟩
  | some e =>
    let fires := c.placed.filter (fun e => ¬ e.skip)
    ⟨e.pos + e.dir * (c.interval : Int) * oneCount,
     if c.interval = 0 ∧ fires ≠ [] then some 0 else c.remain.map (fun n => n - fires.length),
     match fires.getLast? with | some f => some f.leave | none => c.lastFire, []⟩

/-- Add the crossings of the interval that ends at `t1`. -/
def Cmp.extend (ps : Params) (c : Cmp) (free : Nat) (cross : Nat → Int → Option (Nat × Int)) (q now t1 : Nat) : Cmp :=
  let (sc, x) := cmpSearch ps c free cross q now t1 2048 c.searched c.scan
  { c with placed := c.placed ++ sc.out, searched := x }

/-- Crossing of P by two samples, after `from_`, in a direction `EVT.DIR` allows; with its direction (R227). -/
def crossAxis (dirCode : Nat) (t0 t1 : Nat) (a b : KSample) (from_ : Nat) (P : Int) : Option (Nat × Int) :=
  let ok (d : Int) : Option (Nat × Int) :=
    (crossingIn t0 t1 a b from_ P d).map (fun x => (max x from_, d))
  if dirCode = 1 then ok 1 else if dirCode = 2 then ok (-1)
  else match ok 1, ok (-1) with
    | some x, some y => if x.1 ≤ y.1 then some x else some y
    | some x, none => some x
    | none, y => y

/-- A new epoch of the source at `now` (R249): edges whose pin time is not reached are withdrawn, but for those whose crossing lies before: the
samples there are the same, and so would be the edge. -/
def Cmp.withdraw (c : Cmp) (now : Nat) : Cmp :=
  { c with placed := c.placed.filter (fun e => decide (e.pin ≤ now ∨ e.cross ≤ now)), searched := min c.searched now }

/-- `COMPARE_MISSED` and a late fire of `EVT_ARM` (R247): outcome at tick `t` for the source sample `s`. -/
def Cmp.arm (ps : Params) (c : Cmp) (pos : Int) (interval count : Nat) (p v : Int) (t free : Nat) :
    Cmp × List Ev × Nat :=
  let dir := ps.u Par.evtDir
  let s := sgn v
  let s := if (dir = 1 ∧ s ≠ 1) ∨ (dir = 2 ∧ s ≠ -1) then 0 else s
  let remain := if interval = 0 then some 1 else if count = 0 then none else some count
  let c := { c with st := 1, next := pos, interval := interval, remain := remain, placed := [], searched := t }
  if s ≠ 0 ∧ (pos - p) * s ≤ 0 then
    if ps.u Par.evtLatePolicy = 0 then
      ({ c with st := 3 }, [report Evt.compareMissed t (di64 (counts pos) ++ di64 (counts p))], 2)
    else
      let e : EvtEdge := ⟨t, t, t + Config.free free 2001, pos, s, false, true, false⟩
      ({ c with placed := [e] }, [], 0)
  else (c, [], 0)

/-- The edge at the head leaves (R248): state after it, event, `EVT.FLAGS` bits. `sw` is the moment of switching, `stamp` the one reported. -/
def Cmp.fire (ps : Params) (c : Cmp) (e : EvtEdge) (sw stamp : Nat) : Cmp × List Ev × Nat :=
  let next := e.pos + e.dir * (c.interval : Int) * oneCount
  let c := { c with placed := c.placed.drop 1, next := next }
  if e.skip then ({ c with missedCount := (c.missedCount + 1) % 2 ^ 32 }, [], 0)
  else
    let remain := if c.interval = 0 then some 0 else lessOne c.remain
    let left := match remain with | none => 0xFFFFFFFF | some n => n
    let fl := (if e.firedLate then 1 else 0) + (if e.latePlace then 4 else 0)
    let evs := if ps.u Par.evtNotify = 1 then
        [pinEv Evt.compareFired stamp (di64 (counts e.pos) ++ d32 left
          ++ d8 ((if e.firedLate then 1 else 0) + (if e.latePlace then 2 else 0)))] else []
    ({ c with remain := remain, st := if remain = some 0 then 2 else 1, lastFire := some e.leave
              fireCount := (c.fireCount + 1) % 2 ^ 32
              pulseEnd := if ps.u Par.evtAction = 0 then some (sw + ps.u Par.evtPulseNs) else c.pulseEnd }, evs, fl)

def Cmp.create : Cmp :=
  { st := 0, next := 0, interval := 0, remain := some 0, fireCount := 0, missedCount := 0, placed := []
    searched := 0, lastFire := none, pulseEnd := none }

/-- Crossing of P in the steps of an `FBK` source: (position, time) pairs after the position `p0` (R250). -/
def crossSteps (dirCode : Nat) (P : Int) : Int → List (Int × Nat) → Option (Nat × Int)
  | _, [] => none
  | p0, (p, t) :: r =>
    if dirCode ≠ 2 ∧ p0 < P ∧ P ≤ p then some (t, 1)
    else if dirCode ≠ 1 ∧ P < p0 ∧ p ≤ P then some (t, -1)
    else crossSteps dirCode P p r

/-- Crossing of P between two snapshots, at constant speed between them. -/
def crossLinear (dirCode : Nat) (P p0 p1 : Int) (t0 t1 : Nat) : Option (Nat × Int) :=
  match crossSteps dirCode P p0 [(p1, t1)] with
  | some (_, d) => some (((t0 : Int) + divOpen 10 ((P - p0).natAbs * ((t1 : Int) - t0)) ((p1 - p0).natAbs : Int)).toNat, d)
  | none => none

/-! Capture channels (R252, R253). -/

/-- A level that lasts `width` ns as a channel takes it (R252): the channel after it, and whether it is an edge the channel captures. A level shorter
than `CAPT.FILTER_NS` is ignored, and the return from it is no edge. -/
def captSee (ps : Params) (c : Capt) (level : Bool) (pin width : Nat) : Capt × Bool :=
  if width < ps.u Par.captFilterNs ∨ c.level = level then (c, false)
  else
    let edge := ps.u Par.captEdge
    let dirOk := if level then decide (edge ≠ 2) else decide (edge ≠ 1)
    let hold := match c.last with | some l => decide (l + ps.u Par.captHoldoffNs ≤ pin) | none => true
    ({ c with level := level }, c.armed && dirOk && hold)

/-- A capture of the two positions (R253): none when the window excludes it. -/
def Capt.capture (ps : Params) (c : Capt) (p0 p1 : Int) (pin : Nat) : Option (Capt × List Ev) :=
  if counts p0 < ps.i Par.captWinMin ∨ ps.i Par.captWinMax < counts p0 then none
  else some
    ({ c with armed := ps.u Par.captMode = 1, lastPos := [p0, p1], lastTime := pin
              count := (c.count + 1) % 2 ^ 32, last := some pin },
     [pinEv Evt.captured pin (di64 (counts p0) ++ di64 (counts p1))])

def Capt.create : Capt := { armed := false, level := false, lastPos := [0, 0], lastTime := 0, count := 0, last := none }

/-- The compare balls `CMP_OUT0` … `CMP_OUT7` (R246, R251): the latch and the ends of the pulses on it. -/
structure CmpBall where
  latch : Bool
  /-- Slot of the `EVT` and end of its pulse. -/
  pulses : List (Nat × Nat)
  deriving DecidableEq, Repr

def CmpBall.create : CmpBall := ⟨false, []⟩

/-- Level of a ball. -/
def CmpBall.level (b : CmpBall) : Bool := b.latch || !b.pulses.isEmpty

/-- An output action on a ball (R251). -/
def CmpBall.act (b : CmpBall) (action slot stop : Nat) : CmpBall :=
  match action with
  | 0 => { b with pulses := alSet b.pulses slot stop }
  | 1 => { b with latch := true }
  | 2 => { b with latch := false }
  | _ => { b with latch := ! b.latch }

/-- A pulse ends. -/
def CmpBall.endPulse (b : CmpBall) (slot : Nat) : CmpBall := { b with pulses := alDel b.pulses slot }

end Sys2Proof.Machine
end

