-- ==== Sys2Proof/Machine/Calliope.lean ====
section
/-! DEFINITION. Calliope line clocks (R255 … R262) as functions of one output. -/

namespace Sys2Proof.Machine

open Sys2Proof

/-- Direction d of R256. -/
def lineDir (ps : Params) : Int := if ps.u Par.lclkDir = 2 then -1 else 1

/-- Boundary of line k for a position delay (R256). -/
def lineBound (ps : Params) (origin delay : Int) (k : Nat) : Int :=
  origin + lineDir ps * roundEven (((delay : Rat) + (k : Rat) * (ps.u Par.lclkPitchNum : Rat) * unitR
    / (ps.u Par.lclkPitchDen : Rat)))

/-- Delay of the next line: toward the target by at most `LCLK.REG_SLEW` counts (R259, R260). -/
def nextDelay (ps : Params) (l : Lclk) (prev : Int) : Int :=
  let sl := ps.u Par.lclkRegSlew
  if sl = 0 ∨ l.stepped then l.delayTarget
  else prev + clampI (-(sl : Int) * oneCount) ((sl : Int) * oneCount) (l.delayTarget - prev)

/-- Time of the last edge, placed or driven. -/
def Lclk.lastPlaced (l : Lclk) : Option Nat :=
  match l.placed.getLast? with
  | some e => some e.leave
  | none => l.lastEdge

/-- Lines still to place; none for unlimited. -/
def Lclk.toPlace (l : Lclk) : Option Nat := l.left.map (fun n => n - (l.placed.filter (fun e => !e.old)).length)

/-- The crossing of a line in an interval: time and whether the line already lay behind at its start. -/
def lineCross (ps : Params) (t0 t1 : Nat) (a b : KSample) (from_ : Nat) (B : Int) : Option (Nat × Bool) :=
  let d := lineDir ps
  if (B - a.p) * d ≤ 0 then some (max t0 from_, true)
  else match crossingIn t0 t1 a b t0 B d with
    | some x => some (max x from_, false)
    | none => none

/-- Result of placing lines: the output, lines dropped, lines delayed, late edges (line, lateness). -/
structure LineOut where
  l : Lclk
  dropped : Nat
  delayed : Nat
  lates : List (Nat × Nat)
  deriving DecidableEq, Repr

/-- The output without its last placed edge, where the next line's own edge at `own` would be reached by it: a delayed edge is dropped then
(R258). Edges that lie behind together are spaced, not dropped (R256). -/
def Lclk.dropReached (l : Lclk) (own : Nat) (behind : Bool) : Lclk × Nat :=
  match l.placed.getLast? with
  | some e => if e.spaced ∧ !e.old ∧ !(e.behind && behind) ∧ own ≤ e.leave then ({ l with placed := l.placed.dropLast }, 1) else (l, 0)
  | none => (l, 0)

/-- Place the lines the source reaches in the interval (t0, t1], one after the other (R256 … R258). -/
def placeLines (ps : Params) (free t0 t1 : Nat) (a b : KSample) (q now : Nat) : Nat → Nat → LineOut → LineOut
  | 0, _, o => o
  | n + 1, from_, o =>
    let l := o.l
    if l.toPlace = some 0 ∨ 2048 ≤ l.placed.length then o
    else
      let delay := nextDelay ps l l.delayNow
      match lineCross ps t0 t1 a b from_ (lineBound ps l.origin delay l.nextK) with
      | none => o
      | some (x, behind) =>
        let own := ((x : Int) + ps.i Par.lclkTimeDelay).toNat
        let (l, gone) := l.dropReached own behind
        let (lv, late) := placeEdge (free + l.nextK) own q now
        let floor_ := match l.lastPlaced with | some e => e + ps.u Par.lclkMinSpacing | none => 0
        let leave := max lv floor_
        let spaced := decide (lv < floor_)
        let e : LineEdge :=
          { k := l.nextK, cross := x, pin := own, leave := leave, delay := delay, before := l.delayNow, late := late, old := false
            behind := behind, spaced := spaced }
        placeLines ps free t0 t1 a b q now n (if behind then from_ else x)
          { l := { l with nextK := l.nextK + 1, delayNow := delay, placed := l.placed ++ [e] }
            dropped := o.dropped + gone
            delayed := o.delayed + (if spaced then 1 else 0)
            lates := if late then o.lates ++ [(l.nextK, leave - own)] else o.lates }

/-- First line whose boundary lies ahead of the source at the arm tick (R256). -/
def firstLine (ps : Params) (origin delay p : Int) : Nat :=
  let d := lineDir ps
  let along : Rat := (((p - origin) * d - delay : Int) : Rat) / unitR
  let k0 := (along * (ps.u Par.lclkPitchDen : Rat) / (ps.u Par.lclkPitchNum : Rat)).floor
  let k := (k0 - 1).toNat
  let ahead (k : Nat) : Bool := 0 < (lineBound ps origin delay k - p) * d
  if ahead k then k else if ahead (k + 1) then k + 1 else if ahead (k + 2) then k + 2 else k + 3

/-- `LCLK_ARM` at a tick with the source at `p` (R256): numbering restarts; edges that are placed stay. -/
def Lclk.arm (ps : Params) (l : Lclk) (origin : Int) (count : Nat) (p : Int) (t : Nat) : Lclk :=
  { l with armed := true, origin := origin, nextK := firstLine ps origin (if l.stepped then l.delayTarget else l.delayNow) p, high := -1
           left := if count = 0 then none else some count, done := false
           placed := l.placed.map (fun e => { e with old := true }), searched := t }

/-- New delays (R259, R260). A step moves every line not yet placed at once; the delay in force is that of the last line placed. -/
def Lclk.reg (ps : Params) (l : Lclk) (delay : Int) : Lclk :=
  { l with delayTarget := delay, regPending := true, stepped := decide (ps.u Par.lclkRegSlew = 0) }

/-- Is a change of delay still running? -/
def Lclk.slewing (l : Lclk) : Bool := l.regPending && !l.stepped && decide (l.delayNow ≠ l.delayTarget)

/-- `REG_APPLIED` at the tick at which the target is fully in force (R259). -/
def Lclk.regDone (ps : Params) (l : Lclk) (t : Nat) : Lclk × List Ev :=
  if l.regPending ∧ (l.delayNow = l.delayTarget ∨ l.stepped) then
    ({ l with regPending := false },
     [report Evt.regApplied t (di64 (counts l.delayTarget) ++ di32 (ps.i Par.lclkTimeDelay))])
  else (l, [])

/-- A new epoch of the source (R207, R261): edges whose pin time is not reached are withdrawn, but for those whose crossing lies before (the
samples there are the same); lines and their delays continue from the first withdrawn (R259). -/
def Lclk.withdraw (l : Lclk) (now : Nat) : Lclk :=
  let gone (e : LineEdge) : Bool := decide (now < e.pin ∧ now < e.cross)
  let keep := l.placed.filter (fun e => !gone e)
  match (l.placed.filter (fun e => gone e && !e.old)).head? with
  | none => { l with placed := keep, searched := min l.searched now }
  | some e => { l with placed := keep, nextK := e.k, delayNow := e.before, searched := min l.searched now }

/-- End of the pulse of the edge driven last: 20 ns before the next edge at the latest (R257). -/
def Lclk.pulseStop (ps : Params) (l : Lclk) (last : Nat) : Nat :=
  let w := ps.u Par.lclkWidth
  match l.placed.head? with
  | some n => min (last + w) (max (last + 1) (n.leave - 20))
  | none => last + w

/-- The pulse in progress ends as the edge now next has it. -/
def Lclk.trimPulse (ps : Params) (l : Lclk) (now : Nat) : Lclk :=
  match l.pulseEnd, l.lastEdge with
  | some _, some e => { l with pulseEnd := some (max now (l.pulseStop ps e)) }
  | _, _ => l

/-- The edge at the head leaves (R257): the output after it and its events. -/
def Lclk.fire (ps : Params) (l : Lclk) (e : LineEdge) (t : Nat) : Lclk × List Ev :=
  let left := if e.old then l.left else lessOne l.left
  let l := { l with placed := l.placed.drop 1, lastEdge := some e.leave }
  let fin := !e.old ∧ left = some 0 ∧ ¬ l.done
  ({ l with high := if e.old then l.high else e.k, left := left, pulseEnd := some (l.pulseStop ps e.leave), done := l.done || fin },
   (if e.late then [pinEv Evt.edgeLate e.leave (d64 e.k ++ d32 (e.leave - e.pin))] else [])
     ++ (if fin then [report Evt.linesDone t (d64 e.k)] else []))

/-- Lines delayed and dropped in one placement (R258): flags, counts, and the event at most once per ms. -/
def Lclk.overrun (l : Lclk) (t delayed droppedTotal : Nat) : Lclk × List Ev :=
  if delayed = 0 then (l, [])
  else
    let n := l.overrunN + delayed
    let due := match l.overrunAt with | none => true | some t0 => t0 + 1000000 ≤ t
    if due then ({ l with overrunAt := some t, overrunN := 0 },
                 [report Evt.lineOverrun t (d32 n ++ d32 droppedTotal)])
    else ({ l with overrunN := n }, [])

/-- An output as its create word makes it (R255). -/
def Lclk.create (out : Nat) : Lclk :=
  { output := out, armed := false, origin := 0, nextK := 0, high := -1, left := some 0, done := false, placed := []
    searched := 0, delayNow := 0, delayTarget := 0, regPending := false, stepped := false, lastEdge := none, overrunAt := none
    overrunN := 0, predRun := 0, pulseEnd := none }

/-- At enable (R256, R259): nothing is emitted before an arm; the delay in force is the parameter's. -/
def Lclk.enable (ps : Params) (l : Lclk) : Lclk :=
  let d := ps.i Par.lclkPosDelay * oneCount + ps.u Par.lclkPosDelayFrac
  { Lclk.create l.output with delayNow := d, delayTarget := d }

end Sys2Proof.Machine
end

