-- ==== Sys2Proof/Machine/CanTypes.lean ====
section
/-! DEFINITION. State of the CAN FD controllers and mailboxes (chapter 18). -/

namespace Sys2Proof.Machine

open Sys2Proof

/-- A frame record of 80 bytes (R526), by its fields; reserved fields read 0. -/
structure CanRec where
  cid : Nat
  /-- Byte 4: DLC, `FDF`, `BRS`, `LOST`. -/
  dlc : Nat
  rcnt : Nat
  tag : Nat
  txf : Nat
  stampNs : Nat
  data : List Byte
  deriving DecidableEq, Repr

/-- A filter entry (R528). -/
structure FiltEntry where
  id1 : Nat
  id2 : Nat
  ftype : Nat
  xtd : Bool
  fact : Nat
  mbox : Nat
  deriving DecidableEq, Repr

/-- A pending transmit buffer (R535 … R537). -/
structure TxBuf where
  fr : CanRec
  /-- Order of submission and time from which it is pending. -/
  seq : Nat
  since : Nat
  /-- Cancelled after arbitration had begun: it ends with cause 2 where it would be sent again. -/
  cancel : Bool
  /-- The accepted command that has taken it and whose tick has not come (R535). -/
  waits : Option Nat
  deriving DecidableEq, Repr

/-- A `CANC` object's own state (R539). -/
structure Canc where
  /-- `CANC.STATE`, counters and last error. -/
  st : Nat
  tec : Nat
  rxc : Nat
  lec : Nat
  tdcMeas : Nat
  /-- The filter list in force (R529). -/
  filters : List FiltEntry
  standby : List FiltEntry
  fifos : List (List CanRec)
  bufs : List (Option TxBuf)
  /-- Buffer whose frame is known to be on the bus. -/
  onBus : Option Nat
  nextSub : Nat
  /-- Dropped frames since the last `RX_OVERRUN` and its time, by FIFO (R530). -/
  lost : List Nat
  lostPost : List (Option Nat)
  /-- Receive window: beats already read of the record in progress, and the record (none: empty read) (R531). -/
  rdBeat : Nat
  rdRec : Option (List Byte)
  rdFifo : Nat
  /-- Transmit window: bytes written so far. -/
  wrBytes : List Byte
  rxCount : Nat
  txCount : Nat
  deriving DecidableEq, Repr

/-- A `CANMB` object's own state (R533, R540). -/
structure Canmb where
  ctrl : Nat
  index : Nat
  record : CanRec
  /-- The record has been read with `TAKE`, or none has arrived. -/
  taken : Bool
  rcnt : Nat
  lostCount : Nat
  /-- Frames accepted in the present tick, for the next one, with their SOF pin times. -/
  staged : List (CanRec × Nat)
  deriving DecidableEq, Repr

end Sys2Proof.Machine
end

