-- ==== Sys2Proof/Machine/Can.lean ====
section
/-! DEFINITION. CAN FD controllers and mailboxes (chapter 18): records, filters, FIFOs and windows, transmit buffers, error states. -/

namespace Sys2Proof.Machine

open Sys2Proof

/-- Data length of a `DLC` byte (R526). -/
def dlcLen (dlc : Nat) : Nat :=
  let d := dlc % 16
  if d ≤ 8 then d else if bitOf dlc 4 then [12, 16, 20, 24, 32, 48, 64].getD (d - 9) 8 else 8

/-- The record of 80 bytes and its reading (R526). -/
def CanRec.encode (r : CanRec) : List Byte :=
  d32 r.cid ++ d8 r.dlc ++ d8 r.rcnt ++ d16 r.tag ++ d8 r.txf ++ [0, 0, 0] ++ d32 r.stampNs ++ fitBytes 64 r.data

def CanRec.decode (b : List Byte) : CanRec :=
  let dlc := rdU b 4 1
  { cid := rdU b 0 4, dlc := dlc, rcnt := rdU b 5 1, tag := rdU b 6 2, txf := rdU b 8 1, stampNs := rdU b 12 4
    data := (b.drop 16).take (dlcLen dlc) }

def CanRec.xtd (r : CanRec) : Bool := bitOf r.cid 29
def CanRec.rtr (r : CanRec) : Bool := bitOf r.cid 30
def CanRec.esi (r : CanRec) : Bool := bitOf r.cid 31
def CanRec.fdf (r : CanRec) : Bool := bitOf r.dlc 4
def CanRec.id (r : CanRec) : Nat := r.cid % 2 ^ 29

/-- The checks of a transmit record (R535), but for the free buffer. -/
def canTxCheck (ps : Params) (b : List Byte) : Option Status :=
  let r := CanRec.decode b
  if (r.fdf && decide (ps.u Par.cancFdEn = 0)) || (bitOf r.dlc 5 && !r.fdf) || (r.rtr && r.fdf) || r.esi || bitOf r.dlc 6 || bitOf r.dlc 7
      || r.rcnt ≠ 0 || decide (1 < r.txf) || rdU b 9 3 ≠ 0 then some .badParam
  else if !r.xtd && decide (0x7FF < r.id) then some .outOfRange
  else if ps.u Par.cancMode = 1 then some .wrongState
  else none

/-! Bit timing (R522, R523). -/

/-- Prescaler, TSEG1, TSEG2 and SJW of the nominal and the data phase. -/
def nbt (v : Nat) : Nat × Nat × Nat × Nat := (bitsOf v 7 0 + 1, bitsOf v 15 8 + 1, bitsOf v 22 16 + 1, bitsOf v 30 24 + 1)
def dbt (v : Nat) : Nat × Nat × Nat × Nat := (bitsOf v 4 0 + 1, bitsOf v 12 8 + 1, bitsOf v 19 16 + 1, bitsOf v 27 24 + 1)

/-- CAN clocks of a bit. -/
def bitClocks (t : Nat × Nat × Nat × Nat) : Nat := t.1 * (1 + t.2.1 + t.2.2.1)

/-- The checks of `OBJECT_ENABLE` on timing. -/
def canTimingCheck (ps : Params) : Option Status :=
  let n := nbt (ps.u Par.cancNbt)
  let d := dbt (ps.u Par.cancDbt)
  if bitClocks n < 80 ∨ bitClocks d < 10 ∨ n.2.2.1 < n.2.2.2 ∨ d.2.2.1 < d.2.2.2 ∨ bitClocks n < bitClocks d then some .infeasible
  else if bitOf (ps.u Par.cancTdc) 0 ∧ 2 < d.1 then some .badParam
  else none

/-! Filters (R528, R529). -/

def FiltEntry.decode (b : List Byte) : FiltEntry :=
  { id1 := rdU b 0 4 % 2 ^ 29, id2 := rdU b 4 4 % 2 ^ 29, ftype := rdU b 8 1 % 4, xtd := bitOf (rdU b 8 1) 2, fact := rdU b 9 1
    mbox := rdU b 10 2 }

/-- Check of one entry's bytes. -/
def filtCheck (b : List Byte) : Option Status :=
  let e := FiltEntry.decode b
  let res := rdU b 0 4 / 2 ^ 29 ≠ 0 || rdU b 4 4 / 2 ^ 29 ≠ 0 || decide (8 ≤ rdU b 8 1) || rdU b 12 4 ≠ 0 || (e.fact ≠ 3 && e.mbox ≠ 0)
  if res || decide (3 < e.fact) || (e.ftype = 0 && decide (e.id2 < e.id1)) then some .badParam
  else if (!e.xtd && (decide (0x7FF < e.id1) || decide (0x7FF < e.id2))) || decide (63 < e.mbox) then some .outOfRange
  else none

/-- A list of entries from memory bytes: the list, or the first entry refused. -/
def filtList (b : List Byte) : Nat → Nat → Except (Status × Nat) (List FiltEntry)
  | 0, _ => .ok []
  | n + 1, i =>
    let x := (b.drop (16 * i)).take 16
    match filtCheck x with
    | some st => .error (st, i)
    | none => match filtList b n (i + 1) with
      | .ok r => .ok (FiltEntry.decode x :: r)
      | .error e => .error e

def FiltEntry.hits (e : FiltEntry) (r : CanRec) : Bool :=
  e.ftype ≠ 3 && e.xtd == r.xtd &&
    (if e.ftype = 0 then decide (e.id1 ≤ r.id ∧ r.id ≤ e.id2)
     else if e.ftype = 1 then r.id = e.id1 || r.id = e.id2
     else (r.id &&& e.id2) = (e.id1 &&& e.id2))

/-- Where a frame goes: action, mailbox and the `TAG` of its record (R526, R527). -/
def Canc.route (ps : Params) (c : Canc) (r : CanRec) : Nat × Nat × Nat :=
  match c.filters.findIdx? (fun e => e.hits r) with
  | some i => match c.filters[i]? with
    | some e => (e.fact, e.mbox, i)
    | none => (0, 0, i)
  | none => (ps.u Par.cancDefaultAct, 0, 0xFFFF)

def Canc.flag (ps : Params) (bit : Nat) : Params := ps.set Par.cancFlags 0 (ps.get Par.cancFlags ||| BitVec.ofNat 64 (2 ^ bit))

/-- A record for a FIFO (R530). Answers whether it overran. -/
def Canc.push (ps : Params) (c : Canc) (i : Nat) (r : CanRec) (ns : Nat) : Canc × List Ev × Bool :=
  let q := c.fifos.getD i []
  if q.length < ps.u Par.cancFifoDepth i then ({ c with fifos := c.fifos.set i (q ++ [r]) }, [], false)
  else
    let q' := if ps.u Par.cancFifoFull i = 1 then q.drop 1 ++ [r] else q
    let n := c.lost.getD i 0 + 1
    let due := (c.lostPost.getD i none).all (fun t => decide (t + 1000000 ≤ ns))
    ({ c with fifos := c.fifos.set i q', lost := c.lost.set i (if due then 0 else n)
              lostPost := if due then c.lostPost.set i (some ns) else c.lostPost },
     if due then [report Evt.rxOverrun ns (d8 i ++ [0, 0, 0] ++ d32 n)] else [], true)

/-- Requests 3 and 4 of R511 (R531). -/
def Canc.rxWaiting (c : Canc) : Bool := c.fifos.any (fun q => !q.isEmpty)
def Canc.txFree (c : Canc) : Nat := (c.bufs.filter (fun b => b.isNone)).length

/-- Where a filter list of so many entries may lie: in SRAM, aligned (R528). -/
def filtPlace (addr count : Nat) : Bool := addr % 16 = 0 && decide (addr + 16 * count ≤ 0x800000) && decide (addr < 0x800000)

/-- One 8-byte beat of the receive window (R531): the bytes, and whether the record read was empty. The record leaves the FIFO that it was
read from, where it is still its oldest. -/
def Canc.readBeat (c : Canc) : Canc × List Byte × Bool :=
  let first := c.rdBeat = 0
  let (src, k) := match c.fifos with
    | (x :: _) :: _ => (some x.encode, 0)
    | _ :: (y :: _) :: _ => (some y.encode, 1)
    | _ => (none, 0)
  let cur := if first then src else c.rdRec
  let k := if first then k else c.rdFifo
  let out := match cur with
    | some b => (b.drop (8 * c.rdBeat)).take 8
    | none => List.replicate 8 0xFF
  if c.rdBeat = 9 then
    let fifos := match c.fifos.getD k [] with
      | x :: q => if cur = some x.encode then c.fifos.set k q else c.fifos
      | [] => c.fifos
    ({ c with rdBeat := 0, rdRec := none, rdFifo := 0, fifos := fifos }, out, false)
  else ({ c with rdBeat := c.rdBeat + 1, rdRec := cur, rdFifo := k }, out, first && src.isNone)

/-! Transmitting (R535 … R538). -/

/-- Submit a record, at once or by an accepted command whose tick has not come: the buffer taken. -/
def Canc.submit (c : Canc) (r : CanRec) (since : Nat) (waits : Option Nat) : Option (Canc × Nat) :=
  match c.bufs.findIdx? (fun b => b.isNone) with
  | some i => some ({ c with bufs := c.bufs.set i (some ⟨r, c.nextSub, since, false, waits⟩), nextSub := c.nextSub + 1 }, i)
  | none => none

/-- The tick of a command has come: its frame becomes pending (R535), or the buffer is free again where the controller is not ENABLED. -/
def Canc.due (c : Canc) (on : Bool) (cmd t : Nat) : Canc :=
  { c with nextSub := c.nextSub + 1
           bufs := c.bufs.map (fun y => match y with
             | some b => if b.waits = some cmd then (if on then some { b with seq := c.nextSub, since := t, waits := none } else none) else some b
             | none => none) }

/-- One 8-byte beat of the transmit window: the record complete at its tenth. -/
def Canc.writeBeat (c : Canc) (b : List Byte) : Canc × Option (List Byte) :=
  let w := c.wrBytes ++ b
  if w.length < 80 then ({ c with wrBytes := w }, none) else ({ c with wrBytes := [] }, some w)

/-- Arbitration order of R536. -/
def TxBuf.key (b : TxBuf) : List Nat :=
  let r := b.fr
  [if r.xtd then r.id / 2 ^ 18 else r.id, if r.xtd then 1 else 0, if r.xtd then r.id % 2 ^ 18 else 0, if r.rtr then 1 else 0, b.seq]

def keyLt : List Nat → List Nat → Bool
  | a :: x, b :: y => decide (a < b) || (a = b && keyLt x y)
  | _, _ => false

/-- The frame that contends among those pending by a time (R536). -/
def Canc.contender (ps : Params) (c : Canc) (by_ : Nat) : Option Nat :=
  match c.onBus with
  | some i => some i
  | none =>
    let k (b : TxBuf) : List Nat := if ps.u Par.cancTxOrder = 1 then [b.seq] else b.key
    ((c.bufs.zipIdx).foldl (fun (w : Option (Nat × List Nat)) (x : Option TxBuf × Nat) =>
      match x.1 with
      | some b =>
        if by_ < b.since ∨ b.waits.isSome then w
        else match w with
          | none => some (x.2, k b)
          | some (i, kw) => if keyLt (k b) kw then some (x.2, k b) else some (i, kw)
      | none => w) none).map (fun w => w.1)

def Canc.free (c : Canc) (i : Nat) : Canc :=
  { c with bufs := c.bufs.set i none, onBus := if c.onBus = some i then none else c.onBus }

def evTxEnd (i tag cause ns : Nat) : Ev := report Evt.txCancelled ns (d8 i ++ [0] ++ d16 tag ++ d8 cause)

/-- Is the frame of a buffer on the bus? The first contender may be: the bus decides (log 13). -/
def Canc.begun (ps : Params) (c : Canc) (i now free : Nat) : Bool :=
  c.onBus = some i || (c.onBus.isNone && (c.st = 0 || c.st = 1) && c.contender ps now = some i && Config.free free 2 % 2 = 1)

/-- `CAN_TX_CANCEL` at its tick (R537): the result byte. -/
def Canc.cancel (ps : Params) (c : Canc) (i now ns free : Nat) : Canc × List Ev × Nat :=
  match (c.bufs[i]?).getD none with
  | none => (c, [], 0)
  | some b =>
    if b.waits.isSome then (c, [], 0)
    else if c.begun ps i now free then ({ c with bufs := c.bufs.set i (some { b with cancel := true }), onBus := some i }, [], 2)
    else (c.free i, [evTxEnd i b.fr.tag 1 ns], 1)

/-- Entry to DRAINING, or bus off with everything pending ended (R525, R538): every buffer but the one kept. A frame whose command's tick has
not come was not pending. -/
def Canc.endAll (c : Canc) (keep : Option Nat) (ns : Nat) : Canc × List Ev :=
  (c.bufs.zipIdx).foldl (fun (s : Canc × List Ev) (x : Option TxBuf × Nat) =>
    match x.1 with
    | some b => if keep = some x.2 then s else (s.1.free x.2, s.2 ++ (if b.waits.isSome then [] else [evTxEnd x.2 b.fr.tag 3 ns]))
    | none => s) (c, [])

/-- The frame of a buffer was sent (R536). -/
def Canc.sent (c : Canc) (i sof : Nat) (tdc : Option Nat) : Canc × List Ev :=
  match (c.bufs[i]?).getD none with
  | none => (c, [])
  | some b =>
    ({ c.free i with txCount := (c.txCount + 1) % 2 ^ 32, tdcMeas := tdc.getD c.tdcMeas },
     if bitOf b.fr.txf 0 then [pinEv Evt.txDone sof (d8 i ++ [0] ++ d16 b.fr.tag)] else [])

/-- The attempt failed (R536, R537): sent again, or ended. -/
def Canc.failed (ps : Params) (c : Canc) (i ns : Nat) (drain : Bool) : Canc × List Ev :=
  match (c.bufs[i]?).getD none with
  | none => (c, [])
  | some b =>
    if b.cancel then (c.free i, [evTxEnd i b.fr.tag 2 ns])
    else if drain then (c.free i, [evTxEnd i b.fr.tag 3 ns])
    else if ps.u Par.cancOneShot = 1 then (c.free i, [evTxEnd i b.fr.tag 4 ns])
    else ({ c with onBus := none }, [])

/-! Error states (R524, R525). -/

/-- `CANC.STATE` of the counters. -/
def canState (tec rec : Nat) : Nat := if 255 < tec then 2 else if 127 < tec ∨ 127 < rec then 1 else 0

def evErrState (c : Canc) (old ns : Nat) (fault cleared : Bool) : Ev :=
  { code := Evt.canErrorState, ns := ns, fault := fault, cleared := cleared
    data := d8 old ++ d8 c.st ++ d16 c.tec ++ d16 c.rxc ++ d8 (if 96 ≤ c.tec ∨ 96 ≤ c.rxc then 1 else 0) ++ d8 c.lec }

/-- New counters from the protocol (R524): the state that follows and its report. -/
def Canc.counters (c : Canc) (tec rec lec ns : Nat) : Canc × List Ev :=
  let old := c.st
  let crossed := decide (96 ≤ c.tec) != decide (96 ≤ tec) || decide (96 ≤ c.rxc) != decide (96 ≤ rec)
  let c := { c with tec := tec, rxc := min rec 255, lec := min lec 6, st := if old = 3 ∨ old = 2 then old else canState tec rec }
  if c.st ≠ old ∨ crossed then (c, [evErrState c old ns (c.st == 2) false]) else (c, [])

/-- Bus off (R525). -/
def Canc.busOff (c : Canc) (lec ns : Nat) : Canc × Ev :=
  let c' := { c with tec := 256, lec := lec, st := 2, onBus := none }
  (c', evErrState c' c.st ns true false)

/-- The recovery sequence ended: both counters clear (R525). -/
def Canc.recovered (c : Canc) (ns : Nat) : Canc × Ev :=
  let c' := { c with tec := 0, rxc := 0, st := 0 }
  (c', evErrState c' c.st ns false true)

/-- 11 recessive bits after enable (R524). -/
def Canc.integrated (c : Canc) (ns : Nat) : Canc × List Ev :=
  if c.st = 3 then
    let c' := { c with st := canState c.tec c.rxc }
    (c', [evErrState c' 3 ns false false])
  else (c, [])

/-- `OBJECT_ENABLE`: integrating, or the recovery sequence first after a manual bus off (R524, R525). -/
def Canc.enable (c : Canc) (fl : List FiltEntry) : Canc :=
  { c with st := if c.st = 2 then 2 else 3, filters := fl, rdBeat := 0, rdRec := none, rdFifo := 0, wrBytes := [] }

/-- DISABLED: both FIFOs are emptied (R538). -/
def Canc.disabled (c : Canc) : Canc := { c with fifos := [[], []], rdBeat := 0, rdRec := none, rdFifo := 0, wrBytes := [], onBus := none }

def Canc.create : Canc :=
  { st := 0, tec := 0, rxc := 0, lec := 0, tdcMeas := 0, filters := [], standby := [], fifos := [[], []], bufs := List.replicate 32 none
    onBus := none, nextSub := 0, lost := [0, 0], lostPost := [none, none], rdBeat := 0, rdRec := none, rdFifo := 0, wrBytes := []
    rxCount := 0, txCount := 0 }

/-! Mailboxes (R532 … R534). -/

/-- The frames of the last tick replace the record (R533). -/
def Canmb.take (ps : Params) (m : Canmb) : Canmb × Params × List Ev :=
  m.staged.foldl (fun (s : Canmb × Params × List Ev) (x : CanRec × Nat) =>
    let m := s.1
    let ps := s.2.1
    let rc := (m.rcnt + 1) % 256
    let lost := !m.taken
    let r := { x.1 with rcnt := rc, dlc := x.1.dlc % 64 + (if lost then 64 else 0) }
    ({ m with record := r, rcnt := rc, taken := false, lostCount := if lost then (m.lostCount + 1) % 2 ^ 32 else m.lostCount },
     if lost then ps.set Par.canmbFlags 0 (ps.get Par.canmbFlags ||| 1) else ps,
     s.2.2 ++ (if ps.u Par.canmbNotify = 1 then [pinEv Evt.mbReceived x.2 (d32 r.cid ++ d8 r.dlc ++ d8 rc)] else [])))
    ({ m with staged := [] }, ps, [])

/-- 16 bytes of the record (R534). -/
def Canmb.read (m : Canmb) (i : Nat) : Result :=
  let b := (m.record.encode.drop (16 * i)).take 16
  ⟨BitVec.ofNat 64 (rdU b 0 8), BitVec.ofNat 64 (rdU b 8 8)⟩

def Canmb.create (word : U32) : Except Status Canmb :=
  let w := word.toNat
  if w - bitsOf w 0 0 - bitsOf w 13 8 * 256 ≠ 0 then .error .badParam
  else .ok { ctrl := bitsOf w 0 0, index := bitsOf w 13 8, record := ⟨0, 0, 0, 0, 0, 0, []⟩, taken := true, rcnt := 0
             lostCount := 0, staged := [] }

end Sys2Proof.Machine
end

