-- ==== Sys2Proof/Machine/DmaTypes.lean ====
section
/-! DEFINITION. State of the DMA engine (chapter 17). -/

namespace Sys2Proof.Machine

open Sys2Proof

/-- A fetched descriptor (R505). -/
structure Desc where
  addr : Nat
  src : Nat
  dst : Nat
  len : Nat
  ctrl : Nat
  blen : Nat
  next : Nat
  /-- The reserved byte 23 was 0. -/
  clean : Bool
  deriving DecidableEq, Repr

/-- What a channel is doing (R508 … R515). -/
inductive DmaPhase where
  | idle
  /-- A descriptor fetch is in progress. -/
  | fetch (addr : Nat)
  /-- `WAITING` on a descriptor that is not `VALID`. -/
  | wait
  /-- Ready for its next burst. -/
  | ready
  /-- A burst of so many bytes is in progress. -/
  | burst (n : Nat)
  /-- Every byte has been moved; the completion of R510 is due, after the acknowledgements if fenced. -/
  | finish
  deriving DecidableEq, Repr

/-- A `DMAC` object's own state (R517). -/
structure Dmac where
  chan : Nat
  phase : DmaPhase
  /-- Halted by a fault (`DMAC.STATE` 3). -/
  halted : Bool
  desc : Option Desc
  /-- Address of the descriptor running or last fetched. -/
  cur : Nat
  moved : Nat
  hops : Nat
  pending : Nat
  descCount : Nat
  chainCount : Nat
  bytes : Nat
  errAddr : Nat
  errInfo : Nat
  /-- Pulses lost since the last `REQ_OVERRUN`, and its time. -/
  lost : Nat
  lostPost : Option Nat
  /-- Acknowledgements owed (R510). -/
  acks : Nat
  /-- Data of remote reads received for the burst in progress. -/
  inData : List Byte
  /-- Time at which the first bulk frame of the descriptor left (R507). -/
  sentAt : Option Nat
  /-- Running time from which an answer is awaited (R513). -/
  since : Nat
  /-- The chain ends at the end of the burst: cause of `CHAIN_ABORTED` (R515, R519). -/
  abort : Option Nat
  deriving DecidableEq, Repr

/-- The engine: the channel object whose burst is in progress, and the channel served last at each of the four priorities (R502). -/
structure DmaEngine where
  busy : Option Nat
  last : List Nat
  deriving DecidableEq, Repr

end Sys2Proof.Machine
end

