-- ==== Sys2Proof/Machine/Dma.lean ====
section
/-! DEFINITION. DMA channels (chapter 17) as functions of one channel: descriptors, addresses, requests, bursts,
completion, faults. Moving the bytes and sending bulk packets is the die's part. -/

namespace Sys2Proof.Machine

open Sys2Proof

/-- The 48 bytes of a descriptor (R505). -/
def Desc.read (addr : Nat) (b : List Byte) : Desc :=
  { addr := addr, src := rdU b 0 8, dst := rdU b 8 8, len := rdU b 16 4, ctrl := rdU b 20 2, blen := rdU b 22 1 + 1
    next := rdU b 24 8, clean := rdU b 23 1 = 0 }

def Desc.valid (d : Desc) : Bool := bitOf d.ctrl 0
def Desc.srcInc (d : Desc) : Bool := bitOf d.ctrl 1
def Desc.dstInc (d : Desc) : Bool := bitOf d.ctrl 2
def Desc.srcW (d : Desc) : Nat := 2 ^ bitsOf d.ctrl 4 3
def Desc.dstW (d : Desc) : Nat := 2 ^ bitsOf d.ctrl 6 5
def Desc.fence (d : Desc) : Bool := bitOf d.ctrl 7
def Desc.notify (d : Desc) : Bool := bitOf d.ctrl 8
def Desc.tsReq (d : Desc) : Bool := bitOf d.ctrl 9
def Desc.wb (d : Desc) : Bool := bitOf d.ctrl 10

/-- The region of an address (R503). -/
def dmaRegion (a : Nat) : Nat := a / 2 ^ 60

/-- A descriptor's own place: 16-aligned, in region 0x0 or 0x2 (R505). -/
def descPlaceOk (a : Nat) : Bool := a % 16 = 0 && (dmaRegion a = 0 || dmaRegion a = 2)

/-- Does the descriptor keep R503, R505 and R506? -/
def Desc.ok (d : Desc) : Bool :=
  let regionOk (a : Nat) : Bool := dmaRegion a = 0 || dmaRegion a = 2 || dmaRegion a = 3 || dmaRegion a = 4
  d.clean && bitsOf d.ctrl 15 11 = 0 && decide (d.len ≤ 16777216) && regionOk d.src && regionOk d.dst
    && d.src % d.srcW = 0 && d.dst % d.dstW = 0 && d.len % (max d.srcW d.dstW) = 0

/-- What an access of the engine depends on: this die leads its package, the host link is up, which nodes can be reached. -/
structure DmaEnv where
  lead : Bool
  linkUp : Bool
  reach : Nat → Bool

/-- May the byte range of this die's SRAM be reached by DMA (R503, R546)? -/
def dmaSramOk (lead : Bool) (off n : Nat) : Bool :=
  decide (off + n ≤ 0x800000) && decide ((if lead then 0x3F0000 else 0x400000) ≤ off)

/-- Cause of a bus error that an access meets before any answer (R513): 3 outside, 4 unreachable, 5 no host link. -/
def dmaAccess (e : DmaEnv) (a n : Nat) : Option Nat :=
  if dmaRegion a = 0 then (if bitsOf a 59 23 = 0 ∧ dmaSramOk e.lead (bitsOf a 22 0) n then none else some 3)
  else if dmaRegion a = 2 then (if e.linkUp then none else some 5)
  else if dmaRegion a = 3 then (if bitsOf a 47 23 ≠ 0 then some 3 else if e.reach (bitsOf a 59 48) then none else some 4)
  else if dmaRegion a = 4 then (if bitsOf a 59 16 = 0 ∧ bitsOf a 15 13 = 0 ∧ bitsOf a 11 9 = 0 ∧ bitsOf a 7 0 = 0 then none else some 3)
  else some 3

/-- Address of byte `k` of a descriptor's data at an end that advances or stays (R505, R506). -/
def dmaAddr (base : Nat) (inc : Bool) (w k : Nat) : Nat := if inc then base + k else base + k % w

/-- Where an end lies in a window, is its use as R531 says: the receive window read, the transmit window written (log 163)? -/
def windowOk (a : Nat) (write inc : Bool) (w blen : Nat) : Bool :=
  dmaRegion a ≠ 4 || (bitOf a 8 == write && !inc && w = 8 && blen = 10)

/-- Bytes of the next burst (R506). -/
def Dmac.burstLen (c : Dmac) (d : Desc) : Nat := min (d.blen * d.dstW) (d.len - c.moved)

def Dmac.state (c : Dmac) : Nat :=
  if c.halted then 3 else match c.phase with
    | .idle => 0
    | .wait => 2
    | _ => 1

def Dmac.remain (c : Dmac) : Nat :=
  match c.desc with
  | some d => d.len - c.moved
  | none => 0

/-- `ERR_INFO` (R517). -/
def dmaErrInfo (write : Bool) (kind cause : Nat) : Nat := (if write then 1 else 0) + 2 * kind + 16 * cause

/-- Flag bits of `DMAC.FLAGS`. -/
def Dmac.flag (ps : Params) (bit : Nat) : Params := ps.set Par.dmacFlags 0 (ps.get Par.dmacFlags ||| BitVec.ofNat 64 (2 ^ bit))

/-- A bus error (R513): the latches, the fault report. Answers the channel and its fault event. -/
def Dmac.busError (c : Dmac) (addr : Nat) (write : Bool) (kind cause ns : Nat) : Dmac × Ev :=
  let info := dmaErrInfo write kind cause
  ({ c with phase := .idle, halted := true, errAddr := addr, errInfo := info, pending := 0, acks := 0, abort := none },
   faultEv Evt.dmaBusError ns (d64 addr ++ d16 info ++ [0, 0] ++ d32 (c.cur % 2 ^ 32)))

def Dmac.descError (c : Dmac) (ns : Nat) : Dmac × Ev :=
  ({ c with phase := .idle, halted := true, errAddr := c.cur, pending := 0, abort := none }, faultEv Evt.descError ns (d64 c.cur))

def Dmac.loopFault (c : Dmac) (ns : Nat) : Dmac × Ev :=
  ({ c with phase := .idle, halted := true, errAddr := c.cur, pending := 0, abort := none },
   faultEv Evt.loopFault ns (d64 c.cur ++ d16 c.hops))

/-- `DMA_START` (R518). -/
def Dmac.start (c : Dmac) (addr : Nat) : Dmac :=
  { c with phase := .fetch addr, cur := addr, desc := none, moved := 0, hops := 0, chainCount := 0, errAddr := 0, errInfo := 0, abort := none }

/-- What a completed fetch leads to. -/
inductive FetchEnd where
  | run | waiting | fault (e : Ev) (flag : Nat) (writeBack : Bool)
  deriving DecidableEq, Repr

/-- A fetch completed with these bytes (R508, R509, R514). -/
def Dmac.fetched (ps : Params) (c : Dmac) (b : List Byte) (ns : Nat) : Dmac × FetchEnd :=
  let d := Desc.read c.cur b
  let c := { c with desc := some d, moved := 0, sentAt := none }
  if !d.valid then ({ c with phase := .wait }, .waiting)
  else
    let c := { c with hops := c.hops + 1 }
    if ps.u Par.dmacHopLimit ≤ c.hops then
      let (c, e) := c.loopFault ns
      (c, .fault e 1 false)
    else if !d.ok then
      let (c, e) := c.descError ns
      (c, .fault e 3 d.wb)
    else ({ c with phase := if d.len = 0 then .finish else .ready }, .run)

/-- Is the channel ready to start a burst, given the level of a level request (R511, R512)? -/
def Dmac.wants (ps : Params) (c : Dmac) (level : Bool) : Bool :=
  c.phase = .ready && c.abort.isNone &&
    (let s := ps.u Par.dmacReqSrc
     if s = 0 then true else if s = 3 ∨ s = 4 then level else decide (0 < c.pending))

/-- A burst starts: its request is taken (R512). -/
def Dmac.begin (ps : Params) (c : Dmac) : Dmac :=
  match c.desc with
  | some d =>
    let s := ps.u Par.dmacReqSrc
    { c with phase := .burst (c.burstLen d), inData := [], pending := if s = 0 ∨ s = 3 ∨ s = 4 then c.pending else c.pending - 1 }
  | none => c

/-- A request pulse (R512). -/
def Dmac.pulse (c : Dmac) (ns : Nat) : Dmac × List Ev × Bool :=
  if c.pending < 16 then ({ c with pending := c.pending + 1 }, [], false)
  else
    let lost := c.lost + 1
    if c.lostPost.all (fun t => decide (t + 1000000 ≤ ns)) then
      ({ c with lost := 0, lostPost := some ns }, [report Evt.reqOverrun ns (d32 lost)], true)
    else ({ c with lost := lost }, [], true)

/-- The burst moved `n` bytes without an error. -/
def Dmac.burstDone (c : Dmac) (n : Nat) : Dmac :=
  let c := { c with moved := c.moved + n, bytes := (c.bytes + n) % 2 ^ 64, hops := if n = 0 then c.hops else 0 }
  { c with phase := if c.remain = 0 then .finish else .ready }

/-- Write-back bytes 32 … 47 (R507). -/
def writeBack (status moved : Nat) (stampNs : Nat) : List Byte :=
  d16 status ++ d16 0 ++ d32 moved ++ d32 (stampNs / 1000000000 % 2 ^ 32) ++ d32 (stampNs % 1000000000)

/-- Short stamp of a descriptor's write-back (R507). -/
def Dmac.stamp (c : Dmac) (d : Desc) (ns : Nat) : Nat :=
  if d.tsReq ∧ dmaRegion d.dst = 3 then c.sentAt.getD ns else ns

/-- The descriptor completed (R510): its reports, then the fetch of `NEXT` or the end of the chain. -/
def Dmac.complete (c : Dmac) (d : Desc) (ns : Nat) : Dmac × List Ev :=
  let e := if d.notify then [report Evt.descDone ns (d64 d.addr ++ d32 c.moved)] else []
  let c := { c with descCount := (c.descCount + 1) % 2 ^ 32, chainCount := c.chainCount + 1, desc := none, moved := 0 }
  if d.next = 0 then
    ({ c with phase := .idle }, e ++ [report Evt.chainDone ns (d64 d.addr ++ d32 c.chainCount)])
  else ({ c with phase := .fetch d.next, cur := d.next }, e)

/-- The chain ends after an abort or at a drain (R515). -/
def Dmac.aborted (c : Dmac) (cause ns : Nat) : Dmac × List Ev :=
  ({ c with phase := .idle, pending := 0, abort := none, acks := 0 },
   [report Evt.chainAborted ns (d64 c.cur ++ d32 c.moved ++ d8 cause)])

def Dmac.create (chan : Nat) : Dmac :=
  { chan := chan, phase := .idle, halted := false, desc := none, cur := 0, moved := 0, hops := 0, pending := 0, descCount := 0
    chainCount := 0, bytes := 0, errAddr := 0, errInfo := 0, lost := 0, lostPost := none, acks := 0, inData := [], sentAt := none
    since := 0, abort := none }

/-- `OBJECT_ENABLE`: counts restart (R517). -/
def Dmac.enable (c : Dmac) : Dmac := { Dmac.create c.chan with errAddr := c.errAddr, errInfo := c.errInfo, cur := c.cur }

/-- The winner among channels that want a burst: (slot, channel, priority), in turn after the channel that its priority served last (R502). -/
def dmaWinner (cs : List (Nat × Nat × Nat)) (lasts : List Nat) : Option (Nat × Nat × Nat) :=
  let best := cs.foldl (fun m (c : Nat × Nat × Nat) => max m c.2.2) 0
  let last := lasts.getD best 0
  let cs := cs.filter (fun c => c.2.2 = best)
  cs.foldl (fun (w : Option (Nat × Nat × Nat)) c =>
    let d (x : Nat × Nat × Nat) : Nat := (x.2.1 + 15 - last) % 16
    match w with
    | none => some c
    | some x => if d c < d x then some c else some x) none

end Sys2Proof.Machine
end

