-- ==== Sys2Proof/Machine/FabricTypes.lean ====
section
/-! DEFINITION. State of the Usric ports and of the fabric (chapter 15). Times are ns of the die's running time. -/

namespace Sys2Proof.Machine

open Sys2Proof

/-- A fabric packet with its type (R463). -/
structure FabMsg where
  ptype : Nat
  pkt : FabPkt
  deriving DecidableEq, Repr

/-- A frame kept until an `ACK` covers it (R455). -/
structure SentFrame where
  lseq : Nat
  msg : FabMsg
  /-- Times it has been sent. -/
  sends : Nat
  deriving DecidableEq, Repr

/-- Bytes of a frame in the replay buffer (R454, R455): `SOF`, the packet's blocks, `EOF`. -/
def SentFrame.size (s : SentFrame) : Nat := 16 + (16 + s.msg.pkt.payload.length + 7) / 8 * 8

/-- One port (R448 … R461). -/
structure Port where
  /-- Code of `PORT.LINK_STATE`: 0 DOWN, 1 TRAINING, 2 UP. -/
  link : Nat
  /-- Time of entering TRAINING; the training timeout has been reported (R452). -/
  since : Nat
  timedOut : Bool
  /-- `TRAIN` blocks with `READY` from the peer. -/
  ready : Nat
  /-- Preset the peer requests. -/
  preset : Nat
  /-- Transmit credits of the four classes, 64-byte units (R456). -/
  credits : List Nat
  txSeq : Nat
  sent : List SentFrame
  /-- Waiting frames, in order, by class. -/
  waiting : List FabMsg
  /-- `PORT.BULK_MIN`, and the units sent of each class since the last multiple of 10 µs of running time (R459, log 146). -/
  bulkMin : Nat
  tally : List Nat
  tallyAt : Nat
  rxSeq : Nat
  nakSent : Bool
  /-- Frames received since the last `ACK`. -/
  ackOwed : Nat
  /-- No new frame is taken; the withdrawal of R453 begins at this time at the latest. -/
  withdraw : Option Nat
  peerNode : Nat
  peerSerial : Nat
  downCount : Nat
  deriving DecidableEq, Repr

/-- What a port puts on its line. -/
inductive PortOut where
  | frame (lseq : Nat) (msg : FabMsg)
  | ack (lseq : Nat)
  | nak (lseq : Nat)
  | credit (cls units : Nat)
  | train (ready withdraw : Bool)
  deriving DecidableEq, Repr

/-- An election key (R467), compared in the order of its parts. -/
structure FabKey where
  prio : Nat
  serial : Nat
  die : Nat
  deriving DecidableEq, Repr

/-- Fields of a `DISC` payload (R463). -/
structure Disc where
  serial : Nat
  die : Nat
  fabLevel : Nat
  cmdLevel : Nat
  commit : Nat
  reqBase : Nat
  heldBase : Nat
  cand : FabKey
  prio : Nat
  heartbeat : Nat
  deriving DecidableEq, Repr

/-- A `TOPO` report (R463): state, cost and peer serial per port. -/
structure Topo where
  disc : Disc
  ports : List (Nat × Nat × Nat)
  deriving DecidableEq, Repr

/-- A route to a node (R472): primary and alternate port slot, 0xFF none, and cost. -/
structure Route where
  prim : Nat
  alt : Nat
  cost : Nat
  deriving DecidableEq, Repr

/-- Fabric part of a die. -/
structure Fab where
  /-- Node of this die, 0xFFFF before assignment, and base of its package (R469). -/
  node : Nat
  /-- Code of `SYSTEM.FABRIC_STATE`. -/
  st : Nat
  /-- Own key and requested base, as the parameters stood at boot (R478); own heartbeat number. -/
  own : FabKey
  reqBase : Nat
  ownHb : Nat
  /-- Running time at which boot enabled the ports, and the time limit of R471 has passed. -/
  begun : Nat
  alone : Bool
  cand : FabKey
  heartbeat : Nat
  /-- Time the candidate's last new heartbeat was seen, port it arrived on (none: own), time from which it is held. -/
  seenAt : Nat
  candPort : Option Nat
  since : Nat
  reported : Bool
  lastDisc : Nat
  reports : List Topo
  root : Option FabKey
  rootNode : Nat
  routes : List (Nat × Route)
  version : Nat
  /-- Version being received and its segments (R468). -/
  inVersion : Nat
  inSegs : List Nat
  inRoutes : List (Nat × Route)
  /-- The package is isolated by a base conflict (R470). -/
  isolated : Bool
  commit : Nat
  /-- A switch of the commit level: level and MTIME in ns (R475). -/
  switch : Option (Nat × Nat)
  /-- Fabric and command level reported by other nodes. -/
  levels : List (Nat × Nat × Nat)
  /-- Nodes that the root knows below the commit level (R476). -/
  below : List Nat
  /-- Command packets in flight toward a node (R461). -/
  e2e : List (Nat × Nat)
  /-- Time of the last `TARGET_UNREACHABLE`, by node, and the last primary port of a node (R473). -/
  tuPost : List (Nat × Nat)
  lastPrim : List (Nat × Nat)
  /-- Bulk bytes sent in the round in progress, by client (R460), and start of the round. -/
  bulkSent : List (Nat × Nat)
  bulkRound : Nat
  /-- Shares that the round in progress began with, by client, where they have been written since (R39). -/
  bulkOld : List (Nat × Nat)
  /-- Bulk packets waiting for the next round, with their client. -/
  bulkHeld : List (Nat × FabMsg)
  deriving DecidableEq, Repr

end Sys2Proof.Machine
end

