-- ==== Sys2Proof/Machine/Fabric.lean ====
section
/-! DEFINITION. Usric (chapter 15): packets, the link layer of a port, election, bases, routes and levels, as
functions of one port or of the fabric state. -/

namespace Sys2Proof.Machine

open Sys2Proof

/-! Packets (R462, R463). -/

/-- Traffic class of a packet type. -/
def ptypeClass (p : Nat) : Nat := if p = 1 then 0 else if p = 2 then 1 else if p ≤ 11 then 2 else 3

/-- A packet's bytes (R462). -/
def FabMsg.bytes (m : FabMsg) : List Byte :=
  d16 (m.pkt.dst % 4096) ++ d16 (m.pkt.src % 4096) ++ d8 m.ptype ++ d8 (m.pkt.level % 16) ++ d8 m.pkt.hops
    ++ d8 m.pkt.flags ++ d16 m.pkt.payload.length ++ d16 m.pkt.xtag ++ d32 m.pkt.xaux.toNat ++ m.pkt.payload

/-- A packet from its bytes; none where the length does not match (R462). -/
def parsePacket (b : List Byte) : Option FabMsg :=
  let n := rdU b 8 2
  if b.length < 16 + n ∨ 1024 < n ∨ n % 8 ≠ 0 then none
  else some ⟨rdU b 4 1, { dst := rdU b 0 2 % 4096, src := rdU b 2 2 % 4096, level := rdU b 5 1 % 16, hops := rdU b 6 1
                          flags := rdU b 7 1, xtag := rdU b 10 2, xaux := BitVec.ofNat 32 (rdU b 12 4)
                          payload := (b.drop 16).take n }⟩

/-- Credit units of a packet (R456). -/
def FabMsg.units (m : FabMsg) : Nat := (16 + m.pkt.payload.length + 63) / 64

/-! Link layer (R451 … R457). -/

/-- Receive buffers in 64-byte units, and their `TRAIN` codes (R451, R456). -/
def rxUnits : List Nat := [32, 128, 256, 256]

def Port.create : Port :=
  { link := 0, since := 0, timedOut := false, ready := 0, preset := 255, credits := [0, 0, 0, 0], txSeq := 0, sent := []
    waiting := [], bulkMin := 0, tally := [0, 0, 0, 0], tallyAt := 0, rxSeq := 0, nakSent := false, ackOwed := 0, withdraw := none, peerNode := 0xFFFF, peerSerial := 0
    downCount := 0 }

/-- Enter TRAINING (R451). -/
def Port.train (p : Port) (t : Nat) : Port :=
  { p with link := 1, since := t, timedOut := false, ready := 0, credits := [0, 0, 0, 0], txSeq := 0, rxSeq := 0
           nakSent := false, ackOwed := 0, sent := [], waiting := [], withdraw := none }

/-- Next frame that the strict priority of R458 and the credits of R456 let through. -/
def nextFrame (credits : List Nat) : List FabMsg → Nat → Option Nat
  | ms, cls =>
    match ms.findIdx? (fun m => ptypeClass m.ptype = cls) with
    | some i => match ms[i]? with
      | some m => if m.units ≤ credits.getD cls 0 then some i else none
      | none => none
    | none => none

/-- The port as of a running time: its bulk share, and what it has sent since the last multiple of 10 µs (R459, log 146). -/
def Port.clock (p : Port) (bulkMin now : Nat) : Port :=
  { p with bulkMin := bulkMin, tally := if p.tallyAt = now / 10000 then p.tally else [0, 0, 0, 0], tallyAt := now / 10000 }

/-- The order in which the classes are served: strict priority (R458), but that bulk below its share goes before the command class, and
before the sync class where taking the command class back would not be enough (R459). -/
def Port.classOrder (p : Port) : List Nat :=
  let s (k : Nat) : Nat := p.tally.getD k 0
  if s 3 * 64 < p.bulkMin * (s 0 + s 1 + s 3) then [0, 3, 1, 2]
  else if s 3 * 64 < p.bulkMin * (s 0 + s 1 + s 2 + s 3) then [0, 1, 3, 2]
  else [0, 1, 2, 3]

/-- Has the 32 KB replay buffer room for a frame (R455)? -/
def Port.replayRoom (p : Port) (m : FabMsg) : Bool :=
  decide ((p.sent.foldl (fun n s => n + s.size) 0) + (SentFrame.mk 0 m 1).size ≤ 32768)

/-- Send what may be sent (R455, R456, R458, R459). -/
def Port.pump (p : Port) : Nat → Port × List PortOut
  | 0 => (p, [])
  | n + 1 =>
    if p.link ≠ 2 ∨ p.withdraw.isSome then (p, [])
    else match p.classOrder.findSome? (fun c => nextFrame p.credits p.waiting c) with
      | none => (p, [])
      | some i => match p.waiting[i]? with
        | none => (p, [])
        | some m =>
          if !p.replayRoom m then (p, []) else
          let c := ptypeClass m.ptype
          let p := { p with waiting := p.waiting.eraseIdx i, credits := p.credits.set c (p.credits.getD c 0 - m.units)
                            tally := p.tally.set c (p.tally.getD c 0 + m.units)
                            sent := p.sent ++ [SentFrame.mk p.txSeq m 1], txSeq := (p.txSeq + 1) % 4096 }
          let (p', o) := p.pump n
          (p', .frame ((p.txSeq + 4095) % 4096) m :: o)

/-- Take a packet for sending. -/
def Port.enqueue (p : Port) (m : FabMsg) : Port × List PortOut :=
  ({ p with waiting := p.waiting ++ [m] }).pump (p.waiting.length + 1)

/-- `ACK`: every frame up to `lseq` is covered. -/
def Port.ack (p : Port) (lseq : Nat) : Port × List PortOut :=
  let covered (s : SentFrame) : Bool := decide ((lseq + 4096 - s.lseq) % 4096 < 2048)
  ({ p with sent := p.sent.filter (fun s => !covered s) }).pump p.waiting.length

/-- `NAK`: send again from the `LSEQ` named; the frames before it are covered (R455). Answers the replays. -/
def Port.nak (p : Port) (lseq : Nat) : Port × List PortOut × Nat :=
  let again (s : SentFrame) : Bool := decide ((s.lseq + 4096 - lseq) % 4096 < 2048)
  let keep := (p.sent.filter again).map (fun s => { s with sends := s.sends + 1 })
  ({ p with sent := keep }, keep.map (fun s => .frame s.lseq s.msg), if keep = [] then 0 else 1)

/-- `CREDIT` (R454). -/
def Port.credit (p : Port) (c n : Nat) : Port × List PortOut :=
  ({ p with credits := p.credits.set c (min 65535 (p.credits.getD c 0 + n)) }).pump p.waiting.length

/-- A frame has been sent 8 times without an `ACK` (R457). -/
def Port.replayLimit (p : Port) : Bool := p.sent.any (fun s => decide (8 ≤ s.sends))

/-- A received frame (R455, R456): accepted and delivered with the credits returned, or discarded with one `NAK`: for each frame that
fails its CRC, and for the first of the frames that follow a gap (log 161). -/
def Port.receive (p : Port) (lseq cls units : Nat) (crcOk : Bool) : Port × Bool × List PortOut :=
  if crcOk ∧ lseq = p.rxSeq then
    let owed := p.ackOwed + 1
    let p := { p with rxSeq := (p.rxSeq + 1) % 4096, nakSent := false, ackOwed := if owed = 16 then 0 else owed }
    (p, true, (if owed = 16 then [.ack lseq] else []) ++ [.credit cls units])
  else if crcOk ∧ p.nakSent then (p, false, [])
  else ({ p with nakSent := true }, false, [.nak p.rxSeq])

/-- The 1 µs `ACK` (R455). -/
def Port.ackTimer (p : Port) : Port × List PortOut :=
  if p.link = 2 ∧ p.ackOwed ≠ 0 then ({ p with ackOwed := 0 }, [.ack ((p.rxSeq + 4095) % 4096)]) else (p, [])

/-- Packets of a port that left UP, to be sent again (R473): classes 1 … 3, in their original order. -/
def Port.orphans (p : Port) : List FabMsg :=
  ((p.sent.map (fun s => s.msg)) ++ p.waiting).filter (fun m => ptypeClass m.ptype ≠ 0)

/-! Election (R467, R468). -/

def FabKey.lt (a b : FabKey) : Bool :=
  decide (a.prio < b.prio ∨ (a.prio = b.prio ∧ (a.serial < b.serial ∨ (a.serial = b.serial ∧ a.die < b.die))))

/-- `DISC` payload and its reading. -/
def Disc.encode (d : Disc) : List Byte :=
  d64 d.serial ++ d8 d.die ++ d8 d.fabLevel ++ d8 d.cmdLevel ++ d8 d.commit ++ d16 d.reqBase ++ d16 d.heldBase
    ++ d8 d.cand.prio ++ d8 d.cand.die ++ d8 d.prio ++ [0] ++ d64 d.cand.serial ++ d32 d.heartbeat

def Disc.decode (b : List Byte) : Disc :=
  { serial := rdU b 0 8, die := rdU b 8 1, fabLevel := rdU b 9 1, cmdLevel := rdU b 10 1, commit := rdU b 11 1
    reqBase := rdU b 12 2, heldBase := rdU b 14 2, cand := ⟨rdU b 16 1, rdU b 20 8, rdU b 17 1⟩, prio := rdU b 18 1
    heartbeat := rdU b 28 4 }

/-- `TOPO` payload and its reading: state and cost in bytes 0 and 1 of a port's eight, the serial in the rest. -/
def Topo.encode (x : Topo) : List Byte :=
  x.disc.encode ++ (x.ports.map (fun p => d8 p.1 ++ d8 p.2.1 ++ leBytes 6 p.2.2)).flatten

def Topo.decode (b : List Byte) : Topo :=
  ⟨Disc.decode b, (List.range 4).map (fun i => (rdU b (32 + 8 * i) 1, rdU b (33 + 8 * i) 1, rdU b (34 + 8 * i) 6))⟩

def Topo.key (x : Topo) : FabKey := ⟨x.disc.prio, x.disc.serial, x.disc.die⟩

/-- A candidate from a `DISC` packet on a port (R467, R468): a lower key is taken; a new heartbeat of the candidate held
is noted with the port it first arrived on. Answers the state and whether the packet is news to pass on. -/
def Fab.seeCand (f : Fab) (k : FabKey) (hb port t : Nat) : Fab × Bool :=
  if k.lt f.cand then
    ({ f with cand := k, heartbeat := hb, seenAt := t, candPort := some port, since := t, reported := false, reports := [] }, true)
  else if k = f.cand ∧ f.candPort.isSome ∧ 0 < (hb + 2 ^ 32 - f.heartbeat) % 2 ^ 32 ∧ (hb + 2 ^ 32 - f.heartbeat) % 2 ^ 32 < 2 ^ 31 then
    ({ f with heartbeat := hb, seenAt := t, candPort := some port }, true)
  else (f, false)

/-- The own key becomes the candidate (R467). -/
def Fab.ownCand (f : Fab) (t : Nat) : Fab :=
  { f with cand := f.own, candPort := none, since := t, seenAt := t, reported := false, reports := [], heartbeat := f.ownHb }

/-- A report at the candidate (R468). -/
def Fab.addReport (f : Fab) (x : Topo) : Fab :=
  { f with reports := x :: f.reports.filter (fun y => y.key ≠ x.key) }

/-- Has every package named as a peer reported (R468)? -/
def Fab.complete (f : Fab) : Bool :=
  let mask := 2 ^ 48
  f.reports.all (fun x => x.ports.all (fun p => p.1 ≠ 2 || f.reports.any (fun y => y.disc.serial % mask = p.2.2)))

/-! The root's work (R469 … R472). -/

/-- Dies of a package among the reports. -/
def diesOf (rs : List Topo) (serial : Nat) : Nat := (rs.filter (fun x => x.disc.serial = serial)).length

/-- Does a block overlap one given? -/
def overlapsBase (given : List (Nat × Nat × Nat)) (b n : Nat) : Option Nat :=
  (given.find? (fun g => decide (b < g.2.1 + g.2.2 ∧ g.2.1 < b + n))).map (fun g => g.1)

/-- Lowest free block of a size. -/
def lowestFree (given : List (Nat × Nat × Nat)) (n : Nat) : Nat → Nat → Nat
  | 0, b => b
  | k + 1, b => if (overlapsBase given b n).isNone then b else lowestFree given n k (b + 1)

/-- One package: its lead die's report in key order. -/
def leads (rs : List Topo) : List Topo :=
  sortBy (fun a b => !(b.key.lt a.key)) (rs.filter (fun x => x.disc.die = 0))

/-- Bases by the three passes of R469: (serial, base, dies), then packages isolated under R470, then conflicts:
(serial, requested, given, holder). -/
def assignBases (rs : List Topo) : List (Nat × Nat × Nat) × List Nat × List (Nat × Nat × Nat × Nat) :=
  let ls := leads rs
  let held := ls.foldl (fun (st : List (Nat × Nat × Nat) × List Nat × List (Nat × Nat × Nat × Nat)) x =>
    if x.disc.heldBase = 0xFFFF then st
    else
      let n := diesOf rs x.disc.serial
      match overlapsBase st.1 x.disc.heldBase n with
      | some h => (st.1, st.2.1 ++ [x.disc.serial], st.2.2 ++ [(x.disc.serial, x.disc.reqBase, 0xFFFF, h)])
      | none => (st.1 ++ [(x.disc.serial, x.disc.heldBase, n)], st.2.1, st.2.2)) ([], [], [])
  let requested := ls.foldl (fun (st : List (Nat × Nat × Nat) × List Nat × List (Nat × Nat × Nat × Nat)) x =>
    if x.disc.heldBase ≠ 0xFFFF ∨ x.disc.reqBase = 0xFFFF then st
    else
      let n := diesOf rs x.disc.serial
      if x.disc.reqBase + n - 1 ≤ 4095 ∧ (overlapsBase st.1 x.disc.reqBase n).isNone then
        (st.1 ++ [(x.disc.serial, x.disc.reqBase, n)], st.2)
      else st) held
  ls.foldl (fun (st : List (Nat × Nat × Nat) × List Nat × List (Nat × Nat × Nat × Nat)) x =>
    if x.disc.heldBase ≠ 0xFFFF ∨ st.1.any (fun g => g.1 = x.disc.serial) then st
    else
      let n := diesOf rs x.disc.serial
      let b := lowestFree st.1 n 4096 0
      let conf := if x.disc.reqBase = 0xFFFF then []
        else [(x.disc.serial, x.disc.reqBase, b, (overlapsBase st.1 x.disc.reqBase n).getD x.disc.serial)]
      (st.1 ++ [(x.disc.serial, b, n)], st.2.1, st.2.2 ++ conf)) requested

/-- Index of the k-th external port of a package toward another, over its dies in order: (die, port). -/
def extPorts (rs : List Topo) (serial peer : Nat) : List (Nat × Nat) :=
  (sortBy (fun a b => decide (a.disc.die ≤ b.disc.die)) (rs.filter (fun x => x.disc.serial = serial))).flatMap (fun x =>
    (List.range 2).filterMap (fun p => match x.ports[p]? with
      | some (2, _, s) => if s = peer % 2 ^ 48 then some (x.disc.die, p) else none
      | _ => none))

/-- The die a port leads to (R10, R463): on the ring by its place, outside by pairing the links of two packages in order. -/
def neighbour (rs : List Topo) (x : Topo) (port : Nat) : Option (Nat × Nat) :=
  match x.ports[port]? with
  | some (2, _, s) =>
    let n := diesOf rs x.disc.serial
    if port = 2 then some (x.disc.serial, (x.disc.die + n - 1) % n)
    else if port = 3 then some (x.disc.serial, (x.disc.die + 1) % n)
    else match rs.find? (fun y => y.disc.serial % 2 ^ 48 = s) with
      | none => none
      | some y =>
        let mine := extPorts rs x.disc.serial y.disc.serial
        match mine.findIdx? (fun e => e = (x.disc.die, port)) with
        | some i => ((extPorts rs y.disc.serial x.disc.serial)[i]?).map (fun e => (y.disc.serial, e.1))
        | none => none
  | _ => none

/-- Links of the fabric: (from, to, port, cost), dies by their place in the reports. -/
def fabLinks (rs : List Topo) : List (Nat × Nat × Nat × Nat) :=
  (rs.zipIdx).flatMap (fun x => (List.range 4).filterMap (fun p =>
    match neighbour rs x.1 p with
    | some (s, d) => match rs.findIdx? (fun y => y.disc.serial = s && y.disc.die = d) with
      | some j => some (x.2, j, p, ((x.1.ports[p]?).map (fun q => q.2.1)).getD 1)
      | none => none
    | none => none))

/-- Relaxation of distances to a destination, avoiding one die (R472). -/
def relax (ls : List (Nat × Nat × Nat × Nat)) (avoid : Nat) : Nat → List (Nat × Nat) → List (Nat × Nat)
  | 0, d => d
  | n + 1, d =>
    relax ls avoid n (ls.foldl (fun d l =>
      if l.1 = avoid ∨ l.2.1 = avoid then d
      else match alGet d l.2.1 with
        | some c => match alGet d l.1 with
          | some c0 => if c + l.2.2.2 < c0 then alSet d l.1 (c + l.2.2.2) else d
          | none => alSet d l.1 (c + l.2.2.2)
        | none => d) d)

/-- Cost by each port of a die toward a destination: (port, cost). -/
def portCosts (rs : List Topo) (ls : List (Nat × Nat × Nat × Nat)) (die dest : Nat) : List (Nat × Nat) :=
  let d := relax ls die rs.length [(dest, 0)]
  (ls.filter (fun l => l.1 = die)).filterMap (fun l => (alGet d l.2.1).map (fun c => (l.2.2.1, c + l.2.2.2)))

/-- Order of two ports of equal cost: inside a package port 1 first (R12), elsewhere the lower slot (R472). -/
def portBefore (inside : Bool) (a b : Nat × Nat) : Bool :=
  if a.2 ≠ b.2 then decide (a.2 < b.2)
  else if inside then decide (b.1 < a.1) else decide (a.1 < b.1)

/-- Route of a die to a destination (R472). -/
def routeOf (rs : List Topo) (ls : List (Nat × Nat × Nat × Nat)) (die dest : Nat) : Option Route :=
  let inside := ((rs[die]?).map (fun x => x.disc.serial)) = ((rs[dest]?).map (fun x => x.disc.serial))
  match sortBy (fun a b => !(portBefore inside b a)) (portCosts rs ls die dest) with
  | [] => none
  | a :: r =>
    let alt := match r.find? (fun x => x.1 ≠ a.1) with | some b => 6 + b.1 | none => 0xFF
    some ⟨6 + a.1, alt, a.2⟩

/-- Route table of a die: entries for every other node with a route. -/
def tableOf (rs : List Topo) (node : Nat → Option Nat) (die : Nat) : List (Nat × Route) :=
  let ls := fabLinks rs
  (List.range rs.length).foldl (fun tb j =>
    if j = die then tb
    else match node j, routeOf rs ls die j with
      | some n, some r => alSet tb n r
      | _, _ => tb) []

/-- A `ROUTE` segment's payload (R463) and its reading. -/
def encodeSegment (tb : List (Nat × Route)) (seg : Nat) : List Byte :=
  ((List.range 256).map (fun i => match alGet tb (256 * seg + i) with
    | some r => d8 r.prim ++ d8 r.alt ++ d16 r.cost
    | none => [0xFF, 0xFF, 0, 0])).flatten

def decodeSegment (b : List Byte) (seg : Nat) (tb : List (Nat × Route)) : List (Nat × Route) :=
  (List.range 256).foldl (fun tb i =>
    let n := 256 * seg + i
    let p := rdU b (4 * i) 1
    let a := rdU b (4 * i + 1) 1
    if p = 0xFF ∧ a = 0xFF then alDel tb n else alSet tb n ⟨p, a, rdU b (4 * i + 2) 2⟩) tb

/-! Levels (R474 … R476). -/

/-- The level in force for a pair. -/
def levelInForce (own peer commit : Nat) : Nat := min (min own peer) commit

/-- The switch time of `FABRIC_COMMIT` (R475). -/
def switchTime (now : Nat) (stamp : Option Nat) : Nat :=
  match stamp with
  | some s => if now + 5000000 ≤ s then s else (now + 10000000 + 999999) / 1000000 * 1000000
  | none => (now + 10000000 + 999999) / 1000000 * 1000000

def Fab.create (commit : Nat) (own : FabKey) (reqBase : Nat) : Fab :=
  { node := 0xFFFF, st := 1, own := own, reqBase := reqBase, ownHb := 0, begun := 0, alone := false, cand := own, heartbeat := 0, seenAt := 0, candPort := none, since := 0, reported := false
    lastDisc := 0, reports := [], root := none, rootNode := 0xFFFF, routes := [], version := 0
    inVersion := 0, inSegs := [], inRoutes := [], isolated := false, commit := commit, switch := none, levels := [], below := []
    e2e := [], tuPost := [], lastPrim := [], bulkSent := [], bulkRound := 0, bulkOld := [], bulkHeld := [] }

/-- The port a packet for a node takes (R472, R473): the primary while it is UP, else the alternate. -/
def Fab.portFor (f : Fab) (up : Nat → Bool) (node : Nat) : Option Nat :=
  match alGet f.routes node with
  | some r => if r.prim ≠ 0xFF ∧ up (r.prim - 6) then some (r.prim - 6)
      else if r.alt ≠ 0xFF ∧ up (r.alt - 6) then some (r.alt - 6) else none
  | none => none

end Sys2Proof.Machine
end

