-- ==== Sys2Proof/Machine/FieldTypes.lean ====
section
/-! DEFINITION. State of the 24 V field I/O of the F die (chapter 13). Times are ns of MTIME. -/

namespace Sys2Proof.Machine

open Sys2Proof

/-- Input part of a channel (R395 … R399). -/
structure ChanIn where
  /-- Level of the last sample, before the filter. -/
  last : Bool
  /-- Level taken, before `FIO.INVERT`; the levels taken that no tick has published yet, newest first, with their instants; the level
  before them (R397). -/
  level : Bool
  takes : List (Nat × Bool)
  before : Bool
  /-- First instant that showed a new level, while the filter runs. -/
  start : Option Nat
  /-- Published level (after inversion) of the last class 0 tick. -/
  pub : Bool
  /-- Consecutive samples classed and not classed `OPEN_WIRE`. -/
  openRun : Nat
  closedRun : Nat
  lastEdge : Nat
  edges : Nat
  deriving DecidableEq, Repr

/-- Output part of a channel (R400 … R405). -/
structure ChanOut where
  /-- Commanded level and state of the switch. -/
  cmd : Bool
  on : Bool
  /-- End of the `EVT` pulse in progress (R400). -/
  pulseEnd : Option Nat
  /-- Readback 0 LOW, 1 TEST, 2 HIGH, and consecutive samples: HIGH, not HIGH, TEST, LOW while commanded off. -/
  readback : Nat
  highRun : Nat
  notHigh : Nat
  testRun : Nat
  lowRun : Nat
  /-- Readback samples before this time are ignored (R401). -/
  blank : Nat
  /-- Start of the off-test pulse in progress and its HIGH samples (R404). -/
  test : Option Nat
  testHigh : Nat
  /-- Switched off by a shutdown; time of the next retry; time it was last switched on again (R405). -/
  shut : Bool
  retryAt : Option Nat
  retryOn : Option Nat
  /-- Cause of the first shutdown of the series (R405, R406). -/
  ovlCause : Nat
  /-- Output current, mA. -/
  ma : Nat
  deriving DecidableEq, Repr

/-- One channel. -/
structure Chan where
  /-- Role in force on the F die: 0 … 3 of R394, 0 while the object is not ENABLED. -/
  role : Nat
  inp : ChanIn
  out : ChanOut
  /-- `FIO.STATUS`. -/
  status : Nat
  ovlCount : Nat
  /-- Hold settings in force: `HOLD_MODE`, `HOLD_TIMEOUT` in ms, `FALLBACK` (R410). -/
  holdMode : Bool
  holdMs : Nat
  fallback : Bool
  /-- `FIO.OVL_MODE` = latching and `FIO.RETRY_MS` in force on the F die (R405, R410). -/
  latch : Bool
  retryMs : Nat
  /-- Held through a silence of the logic side, or after one (R410, R411); the fallback was taken. -/
  held : Bool
  fellBack : Bool
  deriving DecidableEq, Repr

/-- The field I/O of an F die. -/
structure Field where
  chans : List Chan
  /-- `FIELD_24V`, mV; below its threshold; the internal regulator runs (R409). -/
  mv : Nat
  low : Bool
  regulator : Bool
  /-- The logic side has been silent since (R410). -/
  silent : Option Nat
  /-- Of the last silence, for `FIELD_HOLD` (R411): held on, fell back, duration in ms; none once posted. -/
  holdReport : Option (Nat × Nat × Nat)
  /-- The regulator has restarted: the next class 0 tick applies the commanded levels (R409). -/
  reload : Bool
  deriving DecidableEq, Repr

end Sys2Proof.Machine
end

