-- ==== Sys2Proof/Machine/FieldIo.lean ====
section
/-! DEFINITION. Field I/O channels (chapter 13): samples, filters, outputs, diagnosis, hold, as functions of one
channel. Every event answered has the channel's object as its source. -/

namespace Sys2Proof.Machine

open Sys2Proof

/-- Bits of `FIO.STATUS` (R414). -/
def stBit (s i : Nat) : Bool := s.testBit i
def stSet (s i : Nat) (v : Bool) : Nat := if s.testBit i = v then s else if v then s + 2 ^ i else s - 2 ^ i

/-- Sampling period, ns; 0 continuous. -/
def fioPeriod (ps : Params) : Nat := ps.u Par.fioSamplePeriod * 1000

/-- Is `t` a sample instant of the channel (R395, R398)? -/
def fioInstant (ps : Params) (t : Nat) : Bool :=
  let p := fioPeriod ps
  p = 0 || t % p = 8000 % p

/-- Permitted sampling periods. -/
def fioPeriodOk (v : Int) : Bool := v = 0 || v = 50 || v = 100 || v = 200 || v = 250 || v = 500 || v = 1000 || v = 2000

/-- A sample's class (R396). -/
inductive FioSample where
  | openWire | off | on | prev
  deriving DecidableEq, Repr

/-- Classification from mV at the ball and µA drawn. -/
def fioClassify (ps : Params) (mv : Int) (ua : Nat) : FioSample :=
  if ps.u Par.fioOpenWireEn = 1 ∧ ua < 350 then .openWire
  else if mv ≤ 5000 ∨ ua ≤ 1500 then .off
  else if 2000 ≤ ua ∧ (if ps.u Par.fioConfig = 1 then 15000 else 11000) ≤ mv then .on
  else .prev

/-- A new level is taken at `t` with its pin time (R397). -/
def Chan.take (ps : Params) (c : Chan) (lv : Bool) (pin t : Nat) : Chan × List Ev :=
  let n := (c.inp.edges + 1) % 2 ^ 32
  let out := xor lv (ps.u Par.fioInvert = 1)
  let notify := bitOf (ps.u Par.fioNotify) (if out then 0 else 1)
  ({ c with inp := { c.inp with level := lv, takes := (t, lv) :: c.inp.takes, start := none, lastEdge := pin, edges := n } },
   if notify then [pinEv Evt.fioChanged pin
      (d8 (if out then 1 else 0) ++ d8 (if fioPeriod ps = 0 then 1 else 0) ++ [0, 0] ++ d32 n)] else [])

/-- The filter (R397, R398) for a sample of level `lv` at `t`. -/
def Chan.filter (ps : Params) (c : Chan) (lv : Bool) (t : Nat) : Chan × List Ev :=
  let c := { c with inp := { c.inp with last := lv } }
  if lv = c.inp.level then ({ c with inp := { c.inp with start := none } }, [])
  else
    let s := c.inp.start.getD t
    let c := { c with inp := { c.inp with start := some s } }
    if s + ps.u Par.fioFilter * 1000 ≤ t then c.take ps lv s t else (c, [])

/-- Open-wire detection (R399). -/
def Chan.openWire (ps : Params) (c : Chan) (opn : Bool) (ua t : Nat) : Chan × List Ev :=
  let o := if opn then min 4 (c.inp.openRun + 1) else 0
  let k := if opn then 0 else min 4 (c.inp.closedRun + 1)
  let c := { c with inp := { c.inp with openRun := o, closedRun := k } }
  let data := d16 (min ua 65535)
  if o = 4 ∧ ¬ stBit c.status 0 ∧ ps.u Par.fioOpenWireEn = 1 then
    ({ c with status := stSet c.status 0 true }, [faultEv Evt.openWire t data])
  else if k = 4 ∧ stBit c.status 0 then
    ({ c with status := stSet c.status 0 false }, [{ clearedEv Evt.openWire t data with fault := true }])
  else (c, [])

/-- An input sample (R396 … R399). -/
def Chan.sampleIn (ps : Params) (c : Chan) (mv : Int) (ua t : Nat) : Chan × List Ev :=
  let k := fioClassify ps mv ua
  let lv := match k with | .on => true | .prev => c.inp.last | _ => false
  let (c, e1) := c.filter ps lv t
  let (c, e2) := c.openWire ps (decide (k = .openWire)) ua t
  (c, e1 ++ e2)

/-- Readback of a voltage (R401). -/
def readbackOf (mv : Int) : Nat := if mv < 3000 then 0 else if mv < 11000 then 1 else 2

/-- Set or clear a diagnosis with its event; diagnosis events carry `FAULT` (R408, R417). -/
def Chan.diag (c : Chan) (bit code t : Nat) (on off : Bool) (data : List Byte) : Chan × List Ev :=
  if on ∧ ¬ stBit c.status bit then ({ c with status := stSet c.status bit true }, [faultEv code t data])
  else if off ∧ stBit c.status bit then
    ({ c with status := stSet c.status bit false }, [{ clearedEv code t data with fault := true }])
  else (c, [])

/-- A readback sample of an output (R401 … R404). `diagnose` is false while diagnosis is suspended (R409). -/
def Chan.sampleOut (ps : Params) (c : Chan) (mv : Int) (ma t : Nat) (diagnose : Bool) : Chan × List Ev :=
  let c := { c with out := { c.out with ma := min ma 1500 } }
  match c.out.test with
  | some t0 =>
    let rb := readbackOf mv
    if t = t0 + 240000 then
      ({ c with out := { c.out with readback := rb, testHigh := if rb = 2 then 1 else 0 } }, [])
    else if t = t0 + 290000 then
      let hit := diagnose && rb = 2 && c.out.testHigh = 1
      ({ c with out := { c.out with readback := rb, testHigh := 0 } },
       if hit then [faultEv Evt.extHigh t (d8 2)] else [])
    else if t < c.out.blank ∨ ¬ fioInstant ps t then (c, [])
    else ({ c with out := { c.out with readback := rb, highRun := 0, notHigh := 0, testRun := 0, lowRun := 0 } }, [])
  | none =>
    if t < c.out.blank ∨ ¬ fioInstant ps t then (c, [])
    else
      let rb := readbackOf mv
      let c := { c with out := { c.out with readback := rb } }
      if c.out.cmd ∨ ¬ diagnose then
        ({ c with out := { c.out with highRun := 0, notHigh := 0, testRun := 0, lowRun := 0 } }, [])
      else
        let o := { c.out with highRun := if rb = 2 then min 2 (c.out.highRun + 1) else 0
                              notHigh := if rb = 2 then 0 else min 2 (c.out.notHigh + 1)
                              testRun := if rb = 1 then min 2 (c.out.testRun + 1) else 0
                              lowRun := if rb = 0 then min 2 (c.out.lowRun + 1) else 0 }
        let c := { c with out := o }
        let (c, e1) := c.diag 1 Evt.extHigh t (decide (o.highRun = 2)) (decide (o.notHigh = 2)) (d8 1)
        let (c, e2) := c.diag 2 Evt.openLoad t (decide (o.testRun = 2) && ps.u Par.fioOpenLoadEn = 1)
          (decide (o.lowRun = 2)) []
        (c, e1 ++ e2)

/-- A commanded level takes effect at `t` (R400, R401, R404): a change abandons an off-test pulse. A latched switch stays off; a series of
retries ends with the level off, and the next level on begins its whole interval (R405, log 159). -/
def Chan.command (ps : Params) (c : Chan) (v : Bool) (t : Nat) : Chan :=
  if c.out.cmd = v ∧ c.out.pulseEnd.isNone then c
  else
    let latched := c.out.shut && stBit c.status 4
    let shut := latched || (v && c.out.shut && c.out.retryAt.isSome)
    let resumes := v && !shut && stBit c.status 3 && c.out.retryOn.isNone
    { c with out := { c.out with cmd := v, on := v && !shut, test := none, pulseEnd := none, shut := shut
                                 retryAt := if v then c.out.retryAt else none
                                 retryOn := if resumes then some t else if v then c.out.retryOn else none
                                 blank := t + ps.u Par.fioBlank * 1000 } }

/-- A pulse, set, clear or toggle of an `EVT` (R246, R251, R400) at its switching instant. -/
def Chan.evt (ps : Params) (c : Chan) (action width t : Nat) : Chan :=
  if c.role ≠ 3 then c
  else match action with
  | 0 =>
    let c' := { c.command ps true t with held := false }
    { c' with out := { c'.out with pulseEnd := some (t + (width + 999) / 1000 * 1000) } }
  | 1 => c.command ps true t
  | 2 => c.command ps false t
  | _ => c.command ps (!c.out.cmd) t

/-- The end of an `EVT` pulse. -/
def Chan.endPulse (ps : Params) (c : Chan) (t : Nat) : Chan := c.command ps false t

/-- A shutdown of the switch (R405, R406). -/
def Chan.shutdown (c : Chan) (cause t : Nat) (events : Bool) : Chan × List Ev :=
  let n := (c.ovlCount + 1) % 2 ^ 32
  let first := ¬ stBit c.status 3
  let st := stSet c.status 3 true
  ({ c with ovlCount := n, status := if c.latch then stSet st 4 true else st
            out := { c.out with on := false, shut := true, retryOn := none, ovlCause := if first then cause else c.out.ovlCause
                                retryAt := if c.latch then none else some (t + c.retryMs * 1000000) } },
   if first ∧ events then [faultEv Evt.overload t (d8 cause ++ d8 (if c.latch then 1 else 0) ++ [0, 0] ++ d32 n)] else [])

/-- When the next retry, or the end of a whole interval on, falls due (R405). -/
def Chan.retryDue (c : Chan) : Option Nat :=
  match c.out.retryAt with
  | some a => some a
  | none => c.out.retryOn.map (fun a => a + c.retryMs * 1000000)

/-- The retry instant, or the end of a whole interval on without a shutdown (R405). -/
def Chan.retry (c : Chan) (t : Nat) : Chan × List Ev :=
  match c.out.retryAt, c.out.retryOn with
  | some a, _ =>
    if a ≤ t ∧ c.out.cmd then
      ({ c with out := { c.out with on := true, shut := false, retryAt := none, retryOn := some t } }, [])
    else (c, [])
  | none, some a =>
    if a + c.retryMs * 1000000 ≤ t then
      let c := { c with out := { c.out with retryOn := none } }
      c.diag 3 Evt.overload t false true (d8 c.out.ovlCause ++ d8 (if c.latch then 1 else 0) ++ [0, 0] ++ d32 c.ovlCount)
    else (c, [])
  | none, none => (c, [])

/-- `FIO_RESET` (R408): a latched overload and every bit whose condition no longer holds. An overload under retry holds until its whole
interval on; a hold is over once the channel is ENABLED (log 159). -/
def Chan.reset (c : Chan) : Chan :=
  let latched := stBit c.status 4
  let retrying := !latched && (c.out.retryAt.isSome || c.out.retryOn.isSome)
  let s := stSet (stSet c.status 4 false) 5 false
  let s := if retrying then s else stSet s 3 false
  let s := if c.inp.openRun = 4 then s else stSet s 0 false
  let s := if c.out.highRun = 2 then s else stSet s 1 false
  let s := if c.out.testRun = 2 then s else stSet s 2 false
  if retrying then { c with status := s }
  else { c with status := s, out := { c.out with shut := false, retryAt := none, retryOn := none
                                                 on := if latched then c.out.cmd && c.out.test.isNone else c.out.on } }

/-- Start of the off-test pulse of the whole second in progress or to come (R404): the next at or after `now`. -/
def offTestAt (chan now : Nat) : Nat :=
  let off := chan * 31250000
  let s := now / 1000000000
  let t := s * 1000000000 + off
  if now ≤ t then t else t + 1000000000

/-- An off-test pulse begins (R404). -/
def Chan.offTest (ps : Params) (c : Chan) (t : Nat) : Chan :=
  if ps.u Par.fioOutTest = 1 ∧ c.out.cmd ∧ c.out.on ∧ c.out.test.isNone then
    { c with out := { c.out with test := some t, testHigh := 0, on := false, blank := t + ps.u Par.fioBlank * 1000 } }
  else c

/-- The end of an off-test pulse after 300 µs. -/
def Chan.offTestEnd (c : Chan) (t : Nat) : Chan :=
  match c.out.test with
  | some t0 => if t0 + 300000 ≤ t then { c with out := { c.out with test := none, on := c.out.cmd && !c.out.shut } } else c
  | none => c

/-- Publish at a class 0 tick (R397, R409). -/
def Chan.publish (ps : Params) (c : Chan) (t : Nat) : Chan :=
  let lv := match c.inp.takes.find? (fun x => decide (x.1 + 1000 ≤ t)) with | some x => x.2 | none => c.inp.before
  { c with inp := { c.inp with pub := xor lv (ps.u Par.fioInvert = 1), before := lv
                               takes := c.inp.takes.filter (fun x => decide (t < x.1 + 1000)) } }

def ChanIn.create : ChanIn :=
  { last := false, level := false, takes := [], before := false, start := none, pub := false, openRun := 0, closedRun := 0
    lastEdge := 0, edges := 0 }

def ChanOut.create : ChanOut :=
  { cmd := false, on := false, pulseEnd := none, readback := 0, highRun := 0, notHigh := 0, testRun := 0, lowRun := 0
    blank := 0, test := none, testHigh := 0, shut := false, retryAt := none, retryOn := none, ovlCause := 1, ma := 0 }

def Chan.create : Chan :=
  { role := 0, inp := ChanIn.create, out := ChanOut.create, status := 0, ovlCount := 0, holdMode := false, holdMs := 1000
    fallback := false, latch := false, retryMs := 100, held := false, fellBack := false }

/-- The field I/O as it leaves power-on: no channel configured, supply present. -/
def Field.create : Field :=
  { chans := List.replicate 32 Chan.create, mv := 24000, low := false, regulator := true, silent := none, holdReport := none
    reload := false }

/-- The settings the F die holds for an output (R405, R410). -/
def Chan.settings (ps : Params) (c : Chan) : Chan :=
  { c with holdMode := ps.u Par.fioHoldMode = 1, holdMs := ps.u Par.fioHoldTimeout, fallback := ps.u Par.fioFallback = 1
           latch := ps.u Par.fioOvlMode = 1, retryMs := ps.u Par.fioRetryMs }

/-- `OBJECT_ENABLE` of a channel (R411): a held output keeps its level, and `HELD` is set. -/
def Chan.enable (ps : Params) (c : Chan) (t : Nat) : Chan :=
  let role := ps.u Par.fioConfig
  let held := c.held && role = 3
  let c0 := Chan.create.settings ps
  if held then { c.settings ps with role := 3, held := false, status := stSet c.status 5 true
                                    inp := c0.inp, out := { c.out with blank := t + ps.u Par.fioBlank * 1000 } }
  else { c0 with role := role, ovlCount := c.ovlCount
                 out := { c0.out with cmd := ps.u Par.fioOut = 1 && role = 3, on := ps.u Par.fioOut = 1 && role = 3
                                      blank := t + ps.u Par.fioBlank * 1000 } }

/-- The channel leaves ENABLED by command or with its boundary (R412): the output is off. -/
def Chan.disable (c : Chan) : Chan := { Chan.create with ovlCount := c.ovlCount }

/-- The logic side falls silent (R410): an output that is commanded on is held. -/
def Chan.silence (c : Chan) : Chan := { c with held := decide (c.role = 3) || c.held, fellBack := false }

/-- The hold timeout of an output (R410). -/
def Chan.holdTimeout (c : Chan) (since t : Nat) : Chan :=
  if c.held ∧ c.holdMode ∧ ¬ c.fellBack ∧ since + c.holdMs * 1000000 ≤ t then
    { c with fellBack := true, out := { c.out with cmd := c.fallback, on := c.fallback && !c.out.shut, test := none } }
  else c

/-- The internal regulator stops (R409): outputs off, settings lost. A held channel is no longer held; of an ENABLED one the M die still has
its role and its commanded level. -/
def Chan.lose (c : Chan) : Chan :=
  { Chan.create with role := if c.held then 0 else c.role, ovlCount := c.ovlCount
                     out := { ChanOut.create with cmd := !c.held && c.out.cmd } }

/-- The switch of a channel whose F die has no regulator is off. -/
def Chan.powered (c : Chan) (on : Bool) : Chan := if on then c else { c with out := { c.out with on := false } }

/-- After a restart of the regulator the commanded level is applied (R409). -/
def Chan.reload (ps : Params) (c : Chan) (t : Nat) : Chan :=
  if c.role = 3 then { c with out := { c.out with on := c.out.cmd && !c.out.shut, blank := t + ps.u Par.fioBlank * 1000 } } else c

/-- Channels, by a predicate, as a mask. -/
def chanMask (l : List Chan) (f : Chan → Bool) : Nat :=
  (l.zipIdx).foldl (fun m x => if f x.1 then m + 2 ^ x.2 else m) 0

/-- Switch off in descending channel number until the sum is at most 4.0 A (R406): the channels to shut down. -/
def totalLimit : List (Nat × Nat) → Nat → List Nat
  | [], _ => []
  | (c, ma) :: r, sum => if sum ≤ 4000 then [] else c :: totalLimit r (sum - ma)

end Sys2Proof.Machine
end

