-- ==== Sys2Proof/Machine/LaneTypes.lean ====
section
/-! DEFINITION. State of a drive lane (chapter 12). -/

namespace Sys2Proof.Machine

open Sys2Proof

/-- One slot of a lane. -/
structure LaneSlot where
  /-- `UPD` of the words last sent (R373). -/
  upd : Nat
  /-- Mode and words last sent: bytes 0 (without `UPD`) … 7 of R372. -/
  words : List Byte
  /-- Duty words of the loop group, int16 (R384); none until the first after its enable. -/
  duty : Option (List Int)
  /-- Frames with v = 0 (R385). -/
  rest : Nat
  /-- Bytes of the last accepted uplink. -/
  up : List Byte
  stale : Bool
  staleRun : Nat
  staleReported : Bool
  /-- Axis fault or overcurrent was reported by the last uplink (R380). -/
  faultSeen : Bool
  deriving DecidableEq, Repr

/-- A drive lane. -/
structure Lane where
  /-- Code of `DLANE.LINK_STATE`: 0 DOWN, 1 TRAINING, 2 SYNC, 3 UP. -/
  link : Nat
  /-- Time of enable, ns (R366). -/
  since : Nat
  /-- `SEQ` of the frame of the tick in progress. -/
  seq : Nat
  slots : List LaneSlot
  /-- Twice the delay samples, newest first, at most 16 (R369), and `DLANE.DELAY_NS` once measured. -/
  samples : List Int
  delay : Option Nat
  turn : Nat
  /-- Valid uplinks received in SYNC. -/
  valid : Nat
  /-- Uplink accepted in the tick in progress, to be in force from the next (R378). -/
  pendingUp : Option (List Byte)
  lossRun : Nat
  ustat : Nat
  vbus : Int
  stageFault : Bool
  errCount : Nat
  errPost : Option Nat
  /-- Time of the last `AMP_LIMITED` (R385). -/
  ampPost : Option Nat
  /-- `LCTRL` of the next frame (R392). -/
  lctrl : Nat
  /-- Frames still to send while draining (R390). -/
  drain : Option Nat
  /-- Frame of the tick in progress. -/
  frame : List Byte
  deriving DecidableEq, Repr

end Sys2Proof.Machine
end

