-- ==== Sys2Proof/Machine/PathTypes.lean ====
section
/-! DEFINITION. State of a path group (R187 … R197). Lengths and coordinates are exact rationals in path units. -/

namespace Sys2Proof.Machine

open Sys2Proof

/-- The shape of a segment: a line, or an arc in the plane of two members (R189, R191). -/
inductive PathShape where
  | line
  /-- Plane axes, direction, full turns, centre in path units. -/
  | arc (ax1 ax2 dir turns : Nat) (c1 c2 : Rat)
  deriving DecidableEq, Repr

/-- A segment held by a group. -/
structure PathSeg where
  id : Nat
  blend : Bool
  /-- Feed, Q40.24; 0 for `PATH.VEL`. -/
  feed : Int
  shape : PathShape
  /-- Member coordinates at its ends, in path units. -/
  start : List Rat
  stop : List Rat
  /-- Junction before it (R192): distance d of the blend (0: none), and the corner speed (none: no limit). -/
  dIn : Rat
  vIn : Option Rat
  /-- `SEGMENT_DONE` has been posted for it. -/
  done : Bool
  deriving DecidableEq, Repr

/-- A path group. -/
structure Path where
  /-- Code of `PATH.MODE`: 0 at rest, 1 running, 2 stopping. -/
  mode : Nat
  /-- Segments of the geometry in force, the one in progress first. -/
  segs : List PathSeg
  /-- Length along the first segment at which the geometry in force begins. -/
  trim : Rat
  /-- Motion along the path from there. -/
  plan : Plan
  /-- Accepted during a stop, to start from the rest point (R195). -/
  next : List PathSeg
  /-- The geometry in force belongs to discarded segments (R195, R197). -/
  discarded : Bool
  /-- `PATH_FLUSH` in force: rest at the end of the segment in progress. -/
  stopWhy : Nat
  draining : Bool
  /-- Time at which the deceleration for lack of segments begins, and whether it has been posted (R194). -/
  starveAt : Option Nat
  starved : Bool
  segDone : Nat
  lastId : Nat
  /-- Where the group rests while it holds no geometry, in path units. -/
  hold : List Rat
  deriving DecidableEq, Repr

end Sys2Proof.Machine
end

