-- ==== Sys2Proof/Machine/Path.lean ====
section
/-! DEFINITION. Path groups (R187 … R197): geometry of lines, arcs and blends, corner speeds, the speed
plan along the path, and the samples of the members. -/

namespace Sys2Proof.Machine

open Sys2Proof

/-! Rational geometry. Results are kept to 2⁻⁶⁴ of a path unit. -/

/-- A rational kept to 2⁻⁶⁴. -/
def q64 (x : Rat) : Rat := (roundEven (x * ((2 ^ 64 : Nat) : Rat)) : Rat) / ((2 ^ 64 : Nat) : Rat)

def piR : Rat := 3141592653589793238462643 / 1000000000000000000000000

/-- Terms of the sine and cosine series from a given one. -/
def trigGo (x2 : Rat) : Nat → Nat → Rat → Rat
  | 0, _, _ => 0
  | n + 1, k, t => t + trigGo x2 n (k + 2) (q64 (-t * x2 / (((k + 1) * (k + 2) : Nat) : Rat)))

/-- The angle brought to [−π, π]. -/
def reduceAngle (x : Rat) : Rat := x - ((roundEven (x / (2 * piR))) : Rat) * 2 * piR

def sinR (x : Rat) : Rat := let y := q64 (reduceAngle x); trigGo (y * y) 16 1 y
def cosR (x : Rat) : Rat := let y := q64 (reduceAngle x); trigGo (y * y) 16 0 1

/-- Terms of the arctangent series. -/
def atanGo (x2 : Rat) : Nat → Nat → Rat → Rat
  | 0, _, _ => 0
  | n + 1, k, p => p / (k : Rat) + atanGo x2 n (k + 2) (q64 (-p * x2))

/-- Arctangent of a non-negative quotient y/x by three halvings of the angle. -/
def atanHalf : Nat → Rat → Rat → Rat
  | 0, x, y => if x = 0 then 0 else let t := q64 (y / x); atanGo (t * t) 20 1 t
  | n + 1, x, y => 2 * atanHalf n (x + sqrtR (x * x + y * y)) y

/-- The angle of a vector in [0, 2π). -/
def angleOf (x y : Rat) : Rat :=
  let a := q64 (atanHalf 3 (absR x) (absR y))
  if x ≥ 0 ∧ y ≥ 0 then a else if x < 0 ∧ y ≥ 0 then piR - a
  else if x < 0 then piR + a else if a = 0 then 0 else 2 * piR - a

def dot : List Rat → List Rat → Rat
  | a :: as, b :: bs => a * b + dot as bs
  | _, _ => 0

def subL : List Rat → List Rat → List Rat
  | a :: as, b :: bs => (a - b) :: subL as bs
  | _, _ => []

def addL : List Rat → List Rat → List Rat
  | a :: as, b :: bs => (a + b) :: addL as bs
  | _, _ => []

def scaleL (c : Rat) (l : List Rat) : List Rat := l.map (fun x => q64 (c * x))

def normL (l : List Rat) : Rat := q64 (sqrtR (dot l l))

/-! One segment (R189). -/

/-- Radius and start angle of an arc, and its sweep with its sign. -/
def arcGeom (g : PathSeg) (ax1 ax2 dir turns : Nat) (c1 c2 : Rat) : Rat × Rat × Rat :=
  let x0 := g.start.getD ax1 0 - c1
  let y0 := g.start.getD ax2 0 - c2
  let x1 := g.stop.getD ax1 0 - c1
  let y1 := g.stop.getD ax2 0 - c2
  let r := q64 (sqrtR (x0 * x0 + y0 * y0))
  let a0 := angleOf x0 y0
  let a1 := angleOf x1 y1
  let d := if dir = 0 then a1 - a0 else a0 - a1
  let d := if d < 0 then d + 2 * piR else d
  let d := if d = 0 ∧ turns = 0 then 2 * piR else d
  let sweep := d + 2 * piR * (turns : Rat)
  (r, a0, if dir = 0 then sweep else -sweep)

/-- Length of a segment (R189). -/
def PathSeg.len (g : PathSeg) : Rat :=
  match g.shape with
  | .line => normL (subL g.stop g.start)
  | .arc a b d t c1 c2 => let (r, _, s) := arcGeom g a b d t c1 c2; q64 (r * absR s)

/-- Point, unit tangent and curvature vector at a length along a segment. -/
def PathSeg.at (g : PathSeg) (x : Rat) : List Rat × List Rat × List Rat :=
  let l := g.len
  let dq := subL g.stop g.start
  let f := if l = 0 then 0 else x / l
  let lin := addL g.start (scaleL f dq)
  let tan := if l = 0 then dq.map (fun _ => 0) else scaleL (1 / l) dq
  match g.shape with
  | .line => (lin, tan, dq.map (fun _ => 0))
  | .arc a b d t c1 c2 =>
    let (r, a0, s) := arcGeom g a b d t c1 c2
    let th := a0 + s * f
    let c := cosR th
    let sn := sinR th
    let w : Rat := if s < 0 then -1 else 1
    let put (u v : Rat) (base : List Rat) : List Rat := (base.set a u).set b v
    -- the end radius may differ from the start radius within `PATH.ARC_TOL`: it changes linearly
    let x1 := g.stop.getD a 0 - c1
    let y1 := g.stop.getD b 0 - c2
    let rr := r + (q64 (sqrtR (x1 * x1 + y1 * y1)) - r) * f
    (put (c1 + rr * c) (c2 + rr * sn) lin, put (-w * sn) (w * c) tan,
     put (if r = 0 then 0 else -c / r) (if r = 0 then 0 else -sn / r) (dq.map (fun _ => 0)))

/-! Junctions (R192). -/

/-- The direction of a segment at a length: its tangent as a unit vector. -/
def PathSeg.dir (g : PathSeg) (x : Rat) : List Rat :=
  let t := (g.at x).2.1
  let n := normL t
  if n = 0 then t else scaleL (1 / n) t

/-- Cosine of the turn angle at the junction of two segments. -/
def turnCos (g h : PathSeg) : Rat := dot (g.dir g.len) (h.dir 0)

/-- The largest root of x³ ≤ c below a bound, by bisection. -/
def cubeRoot (c : Rat) : Nat → Rat → Rat → Rat
  | 0, lo, _ => lo
  | n + 1, lo, hi => let m := (lo + hi) / 2; if m * m * m ≤ c then cubeRoot c n m hi else cubeRoot c n lo m

/-- The smaller of a speed and the cube root of `c`. -/
def capCube (c v : Rat) : Rat := if v * v * v ≤ c then v else cubeRoot c 60 0 v

/-- Distance d of the blend at a junction; none where the turn is too small to count, and 0 for an exact corner. -/
def cornerDist (ps : Params) (g h : PathSeg) : Option Rat :=
  let c := turnCos g h
  let eps : Rat := 1 / 2097152 - 1 / 26388279066624
  let tol := ps.u Par.pathBlendTol
  if 1 - c ≤ eps then none
  else if ¬ g.blend ∨ tol = 0 then some 0
  else some (q64 (min (2 * (tol : Rat) / sqrtR (q64 ((1 - c) / 2))) (min (g.len / 2) (h.len / 2))))

/-- Corner speed of a blend of distance `d`, with the limits as they stand. -/
def cornerSpeed (ps : Params) (g h : PathSeg) (d feed1 feed2 : Rat) : Rat :=
  let c := turnCos g h
  let r := d * ((1 + c) / 2) / sqrtR (q64 ((1 - c) / 2))
  let a := min (accR (ps.u Par.pathAccel)) (accR (ps.u Par.pathDecel))
  let v := min (min feed1 feed2) (sqrtR (q64 (a * r)))
  let j := jerkR (ps.u Par.pathJerk)
  q64 (if j = 0 then v else capCube (j * r * r) v)

/-- A blend: from the point at distance d before the corner to the corner, and from there to the point d after it. -/
structure Bez where
  u : List Rat
  w : List Rat
  deriving DecidableEq, Repr

def bezOf (g h : PathSeg) (d : Rat) : Bez := ⟨subL h.start (g.at (g.len - d)).1, subL (h.at d).1 h.start⟩

/-- Speed along a blend's parameter, and its length up to `t` by Simpson's rule. -/
def Bez.speed (b : Bez) (t : Rat) : Rat :=
  2 * sqrtR (q64 ((1 - t) * (1 - t) * dot b.u b.u + 2 * t * (1 - t) * dot b.u b.w + t * t * dot b.w b.w))

def Bez.len (b : Bez) (t : Rat) : Rat :=
  let n := 16
  let h := t / 16
  let f (i : Nat) : Rat := b.speed (h * (i : Rat))
  q64 (((List.range (n + 1)).foldl (fun s i => s + f i * (if i = 0 ∨ i = n then 1 else if i % 2 = 1 then 4 else 2)) 0) * h / 3)

/-- Parameter of a blend at a length, by bisection. -/
def Bez.param (b : Bez) (x : Rat) : Nat → Rat → Rat → Rat
  | 0, lo, _ => lo
  | n + 1, lo, hi => let m := (lo + hi) / 2; if b.len m ≤ x then b.param x n m hi else b.param x n lo m

/-- A piece of the geometry: its length, the index of its segment, the length along that segment at which it
starts, and for a blend the distance d with the next segment. -/
structure PathPiece where
  len : Rat
  seg : Nat
  from_ : Rat
  blend : Option Rat
  deriving DecidableEq, Repr

/-- The pieces of the segments held from a start length on. -/
def pathPieces : List PathSeg → Nat → Rat → List PathPiece
  | [], _, _ => []
  | [g], i, x => [⟨g.len - x, i, x, none⟩]
  | g :: h :: r, i, x =>
    let d := h.dIn
    let body : PathPiece := ⟨g.len - d - x, i, x, none⟩
    if d = 0 then body :: pathPieces (h :: r) (i + 1) 0
    else body :: ⟨(bezOf g h d).len 1, i, 0, some d⟩ :: pathPieces (h :: r) (i + 1) d

def piecesLen (l : List PathPiece) : Rat := l.foldl (fun s p => s + p.len) 0

/-- The piece at a length along the geometry, with the length left inside it. -/
def pieceAt : List PathPiece → Rat → Option (PathPiece × Rat)
  | [], _ => none
  | [p], x => some (p, min x p.len)
  | p :: r, x => if x < p.len then some (p, x) else pieceAt r (x - p.len)

/-- Point, tangent and curvature vector of the geometry at a length. -/
def pathAt (segs : List PathSeg) (trim x : Rat) : Option (List Rat × List Rat × List Rat) :=
  match pieceAt (pathPieces segs 0 trim) x with
  | none => none
  | some (p, y) =>
    match p.blend, segs[p.seg]?, segs[p.seg + 1]? with
    | some d, some g, some h =>
      let b := bezOf g h d
      let t := b.param y 32 0 1
      let q := addL (subL h.start b.u) (addL (scaleL (2 * t - t * t) b.u) (scaleL (t * t) b.w))
      let b1 := addL (scaleL (2 * (1 - t)) b.u) (scaleL (2 * t) b.w)
      let n := normL b1
      let tan := scaleL (1 / n) b1
      let b2 := scaleL 2 (subL b.w b.u)
      (some (q, tan, scaleL (1 / (n * n)) (subL b2 (scaleL (dot b2 tan) tan))))
    | _, some g, _ => some (g.at (p.from_ + y))
    | _, none, _ => none

/-! The speed plan (R193). -/

/-- What the plan reads of a member: its scale, velocity limit and acceleration limit in counts. -/
structure MemberLim where
  scale : Rat
  vel : Rat
  acc : Rat
  deriving DecidableEq, Repr

/-- The largest magnitude of A cos θ + B sin θ over a turn of θ from 0 to an angle below π with cosine `c` and sine `sn`. -/
def sweepMax (A B c sn : Rat) : Rat :=
  if B * (B * c - A * sn) < 0 then sqrtR (q64 (A * A + B * B)) else max (absR A) (absR (A * c + B * sn))

/-- Largest tangent component of each member on a segment. -/
def tangentMax (g : PathSeg) : List Rat :=
  let t := (g.at 0).2.1
  match g.shape with
  | .line => t.map absR
  | .arc a b dir n c1 c2 =>
    let (_, a0, s) := arcGeom g a b dir n c1 c2
    let m (A B : Rat) : Rat := if piR ≤ absR s then 1 else sweepMax A B (cosR (absR s)) (sinR (absR s))
    ((t.map absR).set a (m (t.getD a 0) (-cosR a0))).set b (m (t.getD b 0) (-sinR a0))

/-- Largest tangent component of each member on a blend. -/
def Bez.tangentMax (b : Bez) : List Rat :=
  let e (l : List Rat) : List Rat := scaleL (1 / max (normL l) (1 / ((2 ^ 60 : Nat) : Rat))) l
  let t1 := e b.u
  let t2 := e b.w
  let c := dot t1 t2
  let sn := sqrtR (q64 (1 - c * c))
  (List.range t1.length).map (fun i =>
    let x := t1.getD i 0
    let y := t2.getD i 0
    if sn = 0 then max (absR x) (absR y) else sweepMax x ((y - c * x) / sn) c sn)

/-- Smallest quotient limit / (component × scale) over the members. -/
def memberCap (f : MemberLim → Rat) : List MemberLim → List Rat → Rat → Rat
  | m :: ms, t :: ts, c => memberCap f ms ts (if t * m.scale = 0 then c else min c (f m / (t * m.scale)))
  | _, _, c => c

/-- Limits with the caps of the members whose largest tangent components are `t` (R193). -/
def capMembers (ms : List MemberLim) (t : List Rat) (l : Lims) : Lims :=
  let a (x : Rat) : Rat := atLeastR (q64 (memberCap (fun m => m.acc) ms t x)) (accR 1)
  ⟨q64 (memberCap (fun m => m.vel) ms t l.vel), a l.acc, a l.dec, l.jerk⟩

/-- Cruise cap and limits of a segment (R192, R193). The cap is 0 where a limit or the feed scale is. -/
def segLims (ps : Params) (ms : List MemberLim) (g : PathSeg) : Lims :=
  let pv := velR (ps.i Par.pathVel)
  let feed := if g.feed = 0 then pv else velR g.feed
  let a := accR (ps.u Par.pathAccel)
  let d := accR (ps.u Par.pathDecel)
  let j := jerkR (ps.u Par.pathJerk)
  let l := capMembers ms (tangentMax g) ⟨min feed (pv * (ps.u Par.pathFeedScale : Rat) / 1000), a, d, j⟩
  match g.shape with
  | .line => l
  | .arc x y dir n c1 c2 =>
    let r := (arcGeom g x y dir n c1 c2).1
    let v := min l.vel (sqrtR (q64 (min a d * r)))
    { l with vel := q64 (if j = 0 then v else capCube (j * r * r) v) }

def minLims (a b : Lims) : Lims := ⟨min a.vel b.vel, min a.acc b.acc, min a.dec b.dec, a.jerk⟩

/-- A piece as the planner sees it: length, limits, and the largest speed at its end. -/
structure Span where
  len : Rat
  lims : Lims
  vEnd : Rat
  /-- The speed at its end is lowered for the sake of what follows, not for a corner or a cap. -/
  short : Bool
  deriving DecidableEq, Repr

/-- The limits on a blend between two segments. -/
def blendLims (ps : Params) (ms : List MemberLim) (g h : PathSeg) (d : Rat) : Lims :=
  let l := capMembers ms (bezOf g h d).tangentMax (minLims (segLims ps ms g) (segLims ps ms h))
  match h.vIn with
  | some v => { l with vel := min l.vel v }
  | none => l

/-- The spans of the geometry, the last one ending at rest. -/
def pathSpans (ps : Params) (ms : List MemberLim) (segs : List PathSeg) : List PathPiece → List Span
  | [] => []
  | p :: r =>
    let lims (x : PathPiece) : Lims := match x.blend, segs[x.seg]?, segs[x.seg + 1]? with
      | some d, some g, some h => blendLims ps ms g h d
      | _, some g, _ => segLims ps ms g
      | _, none, _ => ⟨0, accR 1, accR 1, 0⟩
    let l := lims p
    let ve := match r with
      | [] => 0
      | n :: _ =>
        let v := min l.vel (lims n).vel
        if p.blend.isSome ∨ n.blend.isSome then v
        else match (segs[n.seg]?).bind (fun h => h.vIn) with
          | some c => min c v
          | none => v
    ⟨p.len, l, ve, false⟩ :: pathSpans ps ms segs r

/-- Largest speed, at most `cap`, from which `v1` can be reached within `len`. -/
def entrySpeed (lm : Lims) (v1 len : Rat) : Nat → Rat → Rat → Rat
  | 0, lo, _ => lo
  | n + 1, lo, hi => let m := (lo + hi) / 2; if rampDist lm m 0 v1 ≤ len then entrySpeed lm v1 len n m hi else entrySpeed lm v1 len n lo m

/-- Lower each end speed to one from which the rest can be met; answers the entry speed of the list. -/
def backPass : List Span → List Span × Rat
  | [] => ([], 0)
  | s :: r =>
    let (r', v) := backPass r
    let ve := if r = [] then 0 else min s.vEnd v
    let top := s.lims.vel
    let vi := if rampDist s.lims top 0 ve ≤ s.len then top else entrySpeed s.lims ve s.len 40 ve top
    ({ s with vEnd := ve, short := decide (r ≠ [] ∧ ve < s.vEnd) } :: r', vi)

/-- Peak speed of a span between its entry and end speeds. -/
def spanPeak (lm : Lims) (v0 a0 v1 len : Rat) : Nat → Rat → Rat → Rat
  | 0, lo, _ => lo
  | n + 1, lo, hi =>
    let m := (lo + hi) / 2
    if rampDist lm v0 a0 m + rampDist lm m 0 v1 ≤ len then spanPeak lm v0 a0 v1 len n m hi
    else spanPeak lm v0 a0 v1 len n lo m

/-- Segments through one span that does not end at rest. -/
def spanSegs (lm : Lims) (k : Kin) (len v1 : Rat) : List Seg :=
  let full := rampDist lm k.v k.a lm.vel + rampDist lm lm.vel 0 v1
  let vp := if full ≤ len then lm.vel else spanPeak lm k.v k.a v1 len 40 (min k.v v1) lm.vel
  let up := rampSegs lm k vp
  let mid := segsAt up k (segsDur up)
  let dn := rampDist lm vp 0 v1
  let rest := len - (mid.p - k.p) - dn
  let c := if rest ≤ 0 ∨ vp ≤ 0 then 0 else (rest / vp * 1000000000).floor.toNat
  up ++ (if c = 0 then [] else [⟨c, 0, 0⟩]) ++ rampSegs lm ⟨0, vp, 0⟩ v1

/-- Time from the start of segments to their last deceleration. -/
def lastDown (g : List Seg) : Nat :=
  segsDur ((g.reverse.dropWhile (fun x => decide (x.acc < 0 ∨ (x.acc = 0 ∧ x.jerk < 0)))).reverse)

/-- The plan through the spans from a state, with the start of the deceleration that ends at rest where the spans end (R194): it may begin in
an earlier span, as far as the speeds are lowered for that end alone. -/
def planSpans : List Span → Kin → Rat → Nat → Option Nat → List Seg × Nat
  | [], _, _, t, c => ([], c.getD t)
  | s :: r, k, stop, t, c =>
    let stop := stop + s.len
    let g := if s.vEnd = 0 then moveSegs s.lims k (stop - k.p) else spanSegs s.lims k (stop - k.p) s.vEnd
    let e := segsAt g k (segsDur g)
    let down := c.getD (t + lastDown g)
    let (g', t') := planSpans r (if s.vEnd = 0 then { e with v := 0, a := 0 } else e) stop (t + segsDur g)
      (if r = [] ∨ s.short then some down else none)
    (g ++ g', t')

/-- Segments the plan may use at once: those up to the look-ahead limit (R193). -/
def lookAhead (ps : Params) (p : Path) : List PathSeg :=
  p.segs.take (ps.u Par.pathLookahead + (p.segs.filter (fun g => g.done)).length + 1)

/-- Corner speeds after a segment, with the limits as they stand. -/
def refreshFrom (ps : Params) (ms : List MemberLim) : PathSeg → List PathSeg → List PathSeg
  | _, [] => []
  | g, h :: r =>
    let v := h.vIn.map (fun _ => if h.dIn = 0 then 0 else cornerSpeed ps g h h.dIn (segLims ps ms g).vel (segLims ps ms h).vel)
    { h with vIn := v } :: refreshFrom ps ms h r

def refreshCorners (ps : Params) (ms : List MemberLim) : List PathSeg → List PathSeg
  | [] => []
  | g :: r => g :: refreshFrom ps ms g r

/-- The part of the geometry already passed is no longer planned. -/
def skipSpans : List Span → Rat → List Span
  | [], _ => []
  | [s], x => [{ s with len := s.len - x }]
  | s :: r, x => if x < s.len then { s with len := s.len - x } :: r else skipSpans r (x - s.len)

/-- Plan anew at `t` (R193). The group comes to rest before a span whose speed is capped at 0, and waits there. -/
def Path.replan (ps : Params) (ms : List MemberLim) (p : Path) (t : Nat) : Path :=
  let k := p.plan.at t
  let p := { p with segs := refreshCorners ps ms p.segs }
  let segs := lookAhead ps p
  let all := skipSpans (pathSpans ps ms segs (pathPieces segs 0 p.trim)) k.p
  let open_ := all.takeWhile (fun s => decide (0 < s.lims.vel))
  let whole := decide (open_.length = all.length)
  let (gs, dec) := match open_, all with
    | [], s :: _ => (rampSegs { s.lims with vel := absR k.v + 1 } k 0, t)
    | _, _ => planSpans (backPass open_).1 k k.p t none
  { p with mode := if gs = [] ∧ p.segs.all (fun g => g.done) then 0 else 1, plan := ⟨t, k, gs⟩
           starveAt := if whole ∧ segs.length = p.segs.length then some dec else none }

/-- Bring the group to rest along the path (R195 … R197). -/
def Path.stop (p : Path) (t : Nat) (dec jerk : Rat) (why : Nat) : Path :=
  let k := p.plan.at t
  { p with mode := 2, discarded := true, stopWhy := why, starveAt := none
           plan := ⟨t, k, rampSegs ⟨absR k.v + 1, dec, dec, jerk⟩ k 0⟩ }

/-- End of a segment along the geometry: the middle of its outgoing blend (R194). -/
def segEnd (segs : List PathSeg) (trim : Rat) : Rat :=
  match pathPieces segs 0 trim with
  | b :: n :: _ => if n.blend.isSome then b.len + n.len / 2 else b.len
  | [b] => b.len
  | [] => 0

/-- The point of the path at which the group is at `t`, in path units. -/
def Path.point (p : Path) (t : Nat) : List Rat :=
  match pathAt p.segs p.trim (p.plan.at t).p with
  | some (q, _, _) => q
  | none => p.hold

/-- Member samples (R189): the path state projected on the members. -/
def memberSample (q t c : Rat) (k : Kin) (scale : Rat) : KSample :=
  sampleOf ⟨q * scale, t * k.v * scale, (t * k.a + c * k.v * k.v) * scale⟩

def Path.samples (p : Path) (t : Nat) (scales : List Rat) : Option (List KSample) :=
  let k := p.plan.at t
  match pathAt p.segs p.trim k.p with
  | none => if p.hold = [] then none
      else some ((List.range p.hold.length).map (fun i => sampleOf ⟨p.hold.getD i 0 * scales.getD i 1, 0, 0⟩))
  | some (q, tn, c) => some ((List.range q.length).map (fun i =>
      memberSample (q.getD i 0) (tn.getD i 0) (c.getD i 0) k (scales.getD i 1)))

/-- Drop a segment whose outgoing blend is behind; post `SEGMENT_DONE` where its end is passed. -/
def Path.advance (p : Path) (t : Nat) : Nat → Path × List Ev
  | 0 => (p, [])
  | n + 1 =>
    let x := (p.plan.at t).p
    match p.segs with
    | [] => (p, [])
    | g :: r =>
      let held := if p.discarded then 0 else r.length
      if ¬ g.done ∧ segEnd p.segs p.trim ≤ x then
        let p' := { p with segs := { g with done := true } :: r, segDone := (p.segDone + 1) % 2 ^ 32, lastId := g.id }
        let (p'', es) := p'.advance t n
        (p'', report Evt.segmentDone t (d16 g.id ++ d16 held) :: es)
      else
        match r with
        | [] => (p, [])
        | h :: _ =>
          let body := (pathPieces p.segs 0 p.trim).takeWhile (fun q => q.seg = 0)
          let l := piecesLen body
          if g.done ∧ l ≤ x then
            ({ p with segs := r, trim := h.dIn
                      plan := { p.plan with start := { p.plan.start with p := p.plan.start.p - l } } }).advance t n
          else (p, [])

/-- Is the group at rest at `t`? -/
def Path.atRest (p : Path) (t : Nat) : Bool := decide (p.plan.endsAt ≤ t)

/-- Segments held, for `PATH.QUEUED`. -/
def Path.queued (p : Path) : Nat :=
  (if p.discarded then 0 else (p.segs.filter (fun g => ¬ g.done)).length) + p.next.length

/-- Append a segment at a tick (R190 … R192): with its junction, when the one before it still runs. -/
def Path.append (ps : Params) (ms : List MemberLim) (p : Path) (g : PathSeg) (t : Nat) : Path :=
  if p.mode = 2 then { p with next := p.next ++ [g] }
  else
    let live := p.segs.filter (fun s => ¬ s.done)
    match live.getLast? with
    | none => ({ p with segs := [g], trim := 0, discarded := false, starved := false
                        plan := Plan.rest t 0 }).replan ps ms t
    | some h =>
      let d := cornerDist ps h g
      let left := piecesLen (pathPieces p.segs 0 p.trim) - (p.plan.at t).p
      let d := d.map (fun x => if left < x then 0 else x)
      ({ p with segs := p.segs ++ [{ g with dIn := d.getD 0, vIn := d.map (fun _ => 0) }], starved := false }).replan ps ms t

def Path.create : Path :=
  { mode := 0, segs := [], trim := 0, plan := Plan.rest 0 0, next := [], discarded := false, stopWhy := 0
    draining := false, starveAt := none, starved := false, segDone := 0, lastId := 0, hold := [] }

/-- The start point of the next segment: the end of the last one held, none when the members' set-points
are to be taken (R190). -/
def Path.startPoint (p : Path) : Option (List Rat) :=
  match p.next.getLast? with
  | some g => some g.stop
  | none => if p.discarded ∨ p.mode = 2 then none
    else match (p.segs.filter (fun s => ¬ s.done)).getLast? with
      | some g => some g.stop
      | none => none

/-- Scale of a member, counts per path unit (R189). -/
def pathScale (ps : Params) (i : Nat) : Rat := (ps.u Par.pathScale i : Rat) / ((2 ^ 32 : Nat) : Rat)

/-- The segment a body describes, from a start point (R190, R191, R200). -/
def pathSeg (op : Op) (ps : Params) (b : List Byte) (start : List Rat) : PathSeg :=
  let coord (i : Nat) (c : Int) : Rat := (c : Rat) / pathScale ps i
  let arc := op == .pathArc
  let ends := if arc then 32 else 16
  let a1 := rdU b 3 1 % 8
  let a2 := rdU b 3 1 / 16 % 8
  { id := rdU b 0 2, blend := bitOf (rdU b 2 1) 0, feed := rdI b 8 8
    shape := if arc then .arc a1 a2 (rdU b 2 1 / 2 % 2) (rdU b 4 1) (coord a1 (rdI b 16 8)) (coord a2 (rdI b 24 8)) else .line
    start := start, stop := (List.range 8).map (fun i => coord i (rdI b (ends + 8 * i) 8)), dIn := 0, vIn := none, done := false }

/-- The parameters of the group's planner (R193). -/
def isPathLimit (id : Nat) : Bool :=
  [Par.pathVel, Par.pathAccel, Par.pathDecel, Par.pathJerk, Par.pathLookahead, Par.pathFeedScale].contains id

/-- The segments `PATH_FLUSH` keeps of a running group (R195): those that have begun; a segment whose incoming blend has begun is one. -/
def Path.flushKeep (p : Path) (t : Nat) : Nat :=
  let inBlend : Bool := match pieceAt (pathPieces p.segs 0 p.trim) (p.plan.at t).p with
    | some (x, _) => x.blend.isSome
    | none => false
  let firstDone : Bool := (p.segs.head?.map (fun g => g.done)).getD false
  if inBlend || firstDone then 2 else 1

/-- `PATH_FLUSH` (R195): segments that have not begun are discarded; answers how many. -/
def Path.flush (ps : Params) (ms : List MemberLim) (p : Path) (t : Nat) : Path × Nat :=
  if p.mode ≠ 1 then ({ p with next := [] }, p.next.length)
  else
    let keep := p.flushKeep t
    ({ p with segs := p.segs.take keep }.replan ps ms t, p.segs.length - keep)

/-- The stop of a group along the path (R195 … R197). -/
def Path.halt (ps : Params) (p : Path) (t : Nat) (quick : Bool) (why : Nat) (drain : Bool) : Path :=
  let dec := atLeastR (accR (ps.u (if quick then Par.pathQuickDecel else Par.pathDecel))) (accR 1)
  { p.stop t dec (jerkR (ps.u Par.pathJerk)) why with draining := p.draining || drain, next := [] }

/-- Does a `STOP` or `STOP_QUICK` leave the group as it is (R195)? A quick stop in progress keeps its ramp. -/
def Path.stopHeld (p : Path) (quick : Bool) : Bool := p.mode == 0 || (p.mode == 2 && (!quick || p.stopWhy == 2 || p.stopWhy == 3))

/-- After a stop the group rests, and what was accepted during it starts from there (R195). -/
def Path.afterStop (ps : Params) (ms : List MemberLim) (p : Path) (t : Nat) : Path :=
  let rest := p.point t
  p.next.foldl (fun (q : Path) (g : PathSeg) => q.append ps ms { g with start := q.startPoint.getD rest } t)
    { p with mode := 0, segs := [], discarded := false, next := [], trim := 0, plan := Plan.rest t 0, hold := rest }

/-- What the group has come to at a tick, as its horizon foresees it: segments passed, the rest after them or after a stop. -/
def Path.foresee (ps : Params) (ms : List MemberLim) (p : Path) (t : Nat) : Path :=
  let (p, _) := p.advance t 128
  if ¬ p.atRest t ∨ p.draining then p
  else if p.mode = 1 ∧ (p.segs.filter (fun g => !g.done)) = [] then { p with mode := 0 }
  else if p.mode = 2 then p.afterStop ps ms t
  else p

/-- The checks of an arc (R191). -/
def arcCheck (ps : Params) (g : PathSeg) (used : Nat → Bool) (stopping : Bool) : Option Status :=
  match g.shape with
  | .line => none
  | .arc a b _ _ c1 c2 =>
    if a = b ∨ ¬ used a ∨ ¬ used b then some .badParam
    else
      let sq (l : List Rat) : Rat :=
        (l.getD a 0 - c1) * (l.getD a 0 - c1) + (l.getD b 0 - c2) * (l.getD b 0 - c2)
      let r0 := sqrtR (sq g.start)
      let r1 := sqrtR (sq g.stop)
      if stopping then some .wrongState
      else if r0 = 0 ∨ r1 = 0 ∨ (ps.u Par.pathArcTol : Rat) < absR (r0 - r1) then some .infeasible
      else none

end Sys2Proof.Machine
end

