-- ==== Sys2Proof/Machine/PwmTypes.lean ====
section
/-! DEFINITION. State of PWM groups and sigma-delta inputs (chapter 11). Times are in counter clocks of 2.5 ns
from MTIME 0, unless they are called ns. -/

namespace Sys2Proof.Machine

open Sys2Proof

/-- Values of a pair (R343), in prescaled clocks and counter clocks. -/
structure PairSet where
  on : Nat
  off : Nat
  dead : Nat
  deriving DecidableEq, Repr

/-- A transfer set of a group (R343); pairs by pair number 0 … 11. -/
structure PwmSet where
  period : Nat
  cmpa : Nat
  cmpb : Nat
  pairs : List PairSet
  deriving DecidableEq, Repr

/-- A PWM group. -/
structure Pwmg where
  mask : Nat
  /-- Active set; none until the first transfer after enable (R343). -/
  active : Option PwmSet
  /-- Start of the carrier period in progress, none before the first boundary, and the next boundary. -/
  start : Option Nat
  next : Nat
  loadPending : Bool
  /-- Pairs whose words of a Loop Engine the pending request transfers, as a mask (R347, R351). -/
  engineReq : Nat
  unalignedDone : Bool
  /-- Trigger events counted, for both triggers, and the time up to which events have been counted (R348). -/
  trigCount : List Nat
  trigSeen : Nat
  /-- Safe pattern held by a fault input (R349, R350), with the time (ns) from which every input is high. -/
  faultHold : Bool
  highAt : Option Nat
  /-- Pattern of `PWM_FORCE` and of the standstill, by pair: none where it does not act (R351, R352). -/
  force : List (Option Nat)
  still : List (Option Nat)
  /-- Pairs whose loop group has been enabled again since: its next word ends their standstill (R351). -/
  wake : Nat
  /-- Times (ns) of the last events of R342, R345 and R350, and writes discarded since. -/
  stretchPost : Option Nat
  wwpPost : Option Nat
  wwpCount : Nat
  cyclePost : Option Nat
  stretchCount : Nat
  cycleFaults : Nat
  deriving DecidableEq, Repr

/-- What drives a pair (R336, R337, R352, R353): nothing (high impedance), a pattern (H, L), its carrier, or the levels it had. -/
inductive GateSrc where
  | off
  | pattern (h l : Bool)
  | carrier
  | hold
  deriving DecidableEq, Repr

/-- The outputs of a pair. Times are counter clocks. -/
structure GatePair where
  src : GateSrc
  /-- When the source took over, and the levels at that time. -/
  since : Nat
  was : Bool × Bool
  /-- Levels before `PWMG.POLARITY`, and at the balls; none: high impedance. -/
  now : Bool × Bool
  ball : Option (Bool × Bool)
  /-- When the high side and the low side last turned off, none: never. -/
  offAt : Option Nat × Option Nat
  /-- Time up to which edges have left. -/
  seen : Nat
  deriving DecidableEq, Repr

def GatePair.create : GatePair :=
  { src := .off, since := 0, was := (false, false), now := (false, false), ball := none, offAt := (none, none), seen := 0 }

/-- A sigma-delta input (R355 … R358). -/
structure Sdin where
  result : Int
  /-- Instant of the result, ns. -/
  time : Nat
  /-- Results with the time at which each reaches the Loop island (R354, R358): the last one a gate has seen, and those after it. -/
  arrivals : List (Nat × Int)
  clips : Nat
  clipOn : Bool
  /-- Trigger firing that awaits its result, ns (R357). -/
  trigAt : Option Nat
  deriving DecidableEq, Repr

end Sys2Proof.Machine
end

