-- ==== Sys2Proof/Machine/Pwm.lean ====
section
/-! DEFINITION. The PWM generator and the sigma-delta inputs (chapter 11), as functions of one object. -/

namespace Sys2Proof.Machine

open Sys2Proof

/-- Counter clocks at a time in ns that begins on an edge or later, and back (R338). -/
def ccOf (ns : Nat) : Nat := 2 * ns / 5
def nsOfCc (cc : Nat) : Nat := 5 * cc / 2

def pwmPresc (ps : Params) : Nat := ps.u Par.pwmgPrescale

/-- The shadow set (R343). -/
def shadowSet (ps : Params) : PwmSet :=
  { period := ps.u Par.pwmgPeriod, cmpa := ps.u Par.pwmgCmpa, cmpb := ps.u Par.pwmgCmpb
    pairs := (List.range 12).map (fun i => ⟨ps.u Par.pwmgOn i, ps.u Par.pwmgOff i, ps.u Par.pwmgDead i⟩) }

/-- Pairs of a mask. -/
def pairsOf (mask : Nat) : List Nat := (List.range 12).filter (fun i => mask.testBit i)

/-- Nominal carrier period of a set (R338). -/
def carrier (ps : Params) (s : PwmSet) : Nat := (if ps.u Par.pwmgMode = 0 then 2 else 1) * s.period * pwmPresc ps

/-- C_min of R342. -/
def carrierMin (ps : Params) (mask : Nat) (s : PwmSet) : Nat :=
  let v (i : Nat) : Nat := let x := s.pairs.getD i ⟨0, 0, 0⟩
    (if ps.u Par.pwmgMode = 1 then x.on else x.off) * pwmPresc ps + x.dead + ps.u Par.pwmgMinPulse
  (pairsOf mask).foldl (fun m i => max m (v i)) 0

/-- The period run (R342): the nominal one, or C_min rounded up to a whole prescaled clock. -/
def carrierRun (ps : Params) (mask : Nat) (s : PwmSet) : Nat :=
  let c := carrier ps s
  if ps.u Par.pwmgMode = 0 then c
  else
    let m := carrierMin ps mask s
    if c < m then (m + pwmPresc ps - 1) / pwmPresc ps * pwmPresc ps else c

/-- High-side interval of a pair in a period of length C (R338, R341): start, end, limited. -/
def highSide (ps : Params) (s : PwmSet) (C i : Nat) : Nat × Nat × Bool :=
  let x := s.pairs.getD i ⟨0, 0, 0⟩
  let p := pwmPresc ps
  match ps.u Par.pwmgMode with
  | 0 =>
    let top := C - x.dead - ps.u Par.pwmgMinPulse
    let w := min (x.on * p) top
    (C / 2 - w / 2, C / 2 + (w + 1) / 2, decide (top < x.on * p))
  | 1 => (0, x.on * p, false)
  | _ => (0, C - x.off * p, false)

/-- Is the high-side pulse of a pair dropped (R340)? -/
def pulseDropped (ps : Params) (s : PwmSet) (C i : Nat) : Bool :=
  let (a, b, _) := highSide ps s C i
  let x := s.pairs.getD i ⟨0, 0, 0⟩
  decide (a < b ∧ x.dead < b - a ∧ (b - a) - x.dead < ps.u Par.pwmgMinPulse)

/-- Carrier levels (H, L) of a pair at an offset into its period (R340). -/
def carrierLevel (ps : Params) (s : PwmSet) (C i off : Nat) : Bool × Bool :=
  let (a, b, _) := highSide ps s C i
  let d := (s.pairs.getD i ⟨0, 0, 0⟩).dead
  if a = b ∨ pulseDropped ps s C i then (false, true)
  else (decide (a + d ≤ off ∧ off < b), decide (off < a ∨ b + d ≤ off))

/-- Levels of a safe pattern or a force pattern. -/
def patternLevel (p : Nat) : Bool × Bool := (p.testBit 0, p.testBit 1)

/-- What drives a pair of a group (R337, R343, R352, R353). `life` tells whether the group is ENABLED or DRAINING. After a freeze a
carrier has no start until its next boundary. -/
def pairSource (ps : Params) (g : Pwmg) (life : Bool) (i : Nat) : GateSrc :=
  let fixed (l : Bool × Bool) : GateSrc := .pattern l.1 l.2
  if g.faultHold ∨ ¬ life then fixed (patternLevel (ps.u Par.pwmgSafe i))
  else match g.force.getD i none with
    | some p => fixed (patternLevel p)
    | none => match g.still.getD i none with
      | some m => fixed (false, decide (m = 1))
      | none => match g.active, g.start with
        | none, _ => fixed (false, false)
        | some _, none => .hold
        | some _, some _ => .carrier

/-- Dead time of a pair: that of the active set, else the one to be loaded (R340). -/
def pairDead (ps : Params) (g : Pwmg) (i : Nat) : Nat :=
  match g.active with
  | some s => (s.pairs.getD i ⟨0, 0, 0⟩).dead
  | none => ps.u Par.pwmgDead i

/-- Levels of a pair before `PWMG.POLARITY` at counter clock `cc`. An output that a pattern turns on waits `DEAD` (R349, R351); one that
the carrier turns on waits `DEAD` from the end of the other (R340). -/
def GatePair.levelAt (x : GatePair) (ps : Params) (g : Option Pwmg) (i cc : Nat) : Bool × Bool :=
  let dead := match g with | some g => pairDead ps g i | none => 0
  match x.src with
  | .off => (false, false)
  | .hold => x.was
  | .pattern h l => let on : Bool := decide (x.since + dead ≤ cc); (h && (x.was.1 || on), l && (x.was.2 || on))
  | .carrier => match g with
    | none => (false, false)
    | some g => match g.active, g.start with
      | some s, some b =>
        let c := carrierLevel ps s (carrierRun ps g.mask s) i (cc - b)
        (c.1 && x.offAt.2.all (fun t => decide (t + dead ≤ cc)), c.2 && x.offAt.1.all (fun t => decide (t + dead ≤ cc)))
      | _, _ => x.was

/-- Counter clocks at which the levels of a pair can change. -/
def GatePair.changes (x : GatePair) (ps : Params) (g : Option Pwmg) (i : Nat) : List Nat :=
  match g with
  | none => [x.since]
  | some g =>
    let dead := pairDead ps g i
    match x.src, g.active, g.start with
    | .carrier, some s, some b =>
      let (u, v, _) := highSide ps s (carrierRun ps g.mask s) i
      [x.since, b, b + u, b + u + dead, b + v, b + v + dead] ++ (x.offAt.1.toList ++ x.offAt.2.toList).map (fun t => t + dead)
    | _, _, _ => [x.since, x.since + dead]

/-- `PWMG.POLARITY` (R359). -/
def polarised (ps : Params) (i : Nat) (l : Bool × Bool) : Bool × Bool :=
  let p := ps.u Par.pwmgPolarity
  (xor l.1 (bitOf p i), xor l.2 (bitOf p (16 + i)))

/-- First boundary of a group enabled at tick `t` (ns) (R339). -/
def firstBoundary (ps : Params) (t : Nat) : Nat :=
  let cc := ccOf t
  if ps.u Par.pwmgMode = 0 then
    let C := carrier ps (shadowSet ps)
    let ph := ps.u Par.pwmgPhase % max 1 C
    let base := cc / max 1 C * C + ph
    if cc ≤ base then (if cc + C ≤ base then base - C else base) else base + C
  else cc

/-- `OBJECT_ENABLE` in mode 0 needs a period that divides 16 s (R339). -/
def pwmEnableOk (ps : Params) : Bool :=
  let C := carrier ps (shadowSet ps)
  ps.u Par.pwmgMode ≠ 0 || (C ≠ 0 && 6400000000 % C = 0)

def Pwmg.create (mask : Nat) : Pwmg :=
  { mask := mask, active := none, start := none, next := 0, loadPending := false, engineReq := 0
    unalignedDone := false, trigCount := [0, 0], trigSeen := 0, faultHold := false, highAt := none
    force := List.replicate 12 none, still := List.replicate 12 none, wake := 0, stretchPost := none, wwpPost := none
    wwpCount := 0, cyclePost := none, stretchCount := 0, cycleFaults := 0 }

def Pwmg.enable (ps : Params) (g : Pwmg) (t : Nat) : Pwmg :=
  let b := firstBoundary ps t
  { g with active := none, start := none, next := b, loadPending := false, engineReq := 0, unalignedDone := false
           trigCount := [0, 0], trigSeen := b, faultHold := false, highAt := none }

/-- At most one event per 1 ms. -/
def msDue (last : Option Nat) (t : Nat) : Bool :=
  match last with | none => true | some t0 => decide (t0 + 1000000 ≤ t)

/-- A shadow write applied while a load is pending (R345): counted and reported, not stored. -/
def Pwmg.discard (g : Pwmg) (t n : Nat) : Pwmg × List Ev :=
  let c := g.wwpCount + n
  if msDue g.wwpPost t then
    ({ g with wwpPost := some t, wwpCount := 0 }, [report Evt.writeWhilePending t (d32 c)])
  else ({ g with wwpCount := c }, [])

/-- `LOAD_ALL` (R345), with the pairs whose words a Loop Engine has just written; none of them was stored if a request is pending. -/
def Pwmg.loadAll (g : Pwmg) (pairs : Nat) : Pwmg :=
  { g with loadPending := true, engineReq := g.engineReq ||| (if g.loadPending then 0 else pairs) }

/-- Is a group aligned with a loop group's class (R347)? -/
def pwmAligned (ps : Params) (classPeriodNs : Nat) : Bool :=
  let C := carrier ps (shadowSet ps)
  ps.u Par.pwmgMode = 0 && ps.u Par.pwmgPhase = 0 && C ≠ 0 && (ccOf classPeriodNs) % C = 0

/-- Events of a carrier period: (offset, bit of `PWMG.TRIG_SRC`) (R348). -/
def carrierEvents (ps : Params) (mask : Nat) (s : PwmSet) : List (Nat × Nat) :=
  let C := carrierRun ps mask s
  let p := pwmPresc ps
  let half := if ps.u Par.pwmgMode = 0 then C / 2 else (highSide ps s C ((pairsOf mask).headD 0)).2.1
  [(0, 0)] ++ (if half < C then [(half, 1)] else [])
    ++ (if s.cmpa * p < C then [(s.cmpa * p, 2)] else []) ++ (if s.cmpb * p < C then [(s.cmpb * p, 3)] else [])

/-- Count the trigger events up to a time: firings (trigger, time), in order of time (R348). -/
def Pwmg.triggers (ps : Params) (g : Pwmg) (upTo : Nat) : Pwmg × List (Nat × Nat) :=
  match g.active, g.start with
  | some s, some b =>
    let due := ((carrierEvents ps g.mask s).map (fun x => (b + x.1, x.2))).filter
      (fun x => decide (g.trigSeen ≤ x.1 ∧ x.1 ≤ upTo ∧ x.1 < g.next))
    let due := sortBy (fun x y => decide (x.1 ≤ y.1)) due
    let step (st : List Nat × List (Nat × Nat)) (x : Nat × Nat) : List Nat × List (Nat × Nat) :=
      (List.range 2).foldl (fun st i =>
        if bitOf (ps.u Par.pwmgTrigSrc i) x.2 then
          let n := st.1.getD i 0 + 1
          if n % max 1 (ps.u Par.pwmgTrigDiv i) = 0 then (st.1.set i 0, st.2 ++ [(i, x.1)]) else (st.1.set i n, st.2)
        else st) st
    let (c, f) := due.foldl step (g.trigCount, [])
    ({ g with trigCount := c, trigSeen := max g.trigSeen (upTo + 1) }, f)
  | _, _ => (g, [])

/-- Outcome of a boundary: the group, its events, bits of `PWMG.FLAGS`. -/
structure PwmOut where
  g : Pwmg
  evs : List Ev
  flags : Nat
  deriving DecidableEq, Repr

/-- A carrier boundary (R342 … R345, R350). `inputs` are the fault inputs that are low; `t` is the tick of the events. -/
def Pwmg.boundary (ps : Params) (g : Pwmg) (inputs t : Nat) : PwmOut :=
  let b := g.next
  let low := inputs &&& ps.u Par.pwmgFaultSel
  let transfer := g.active.isNone || g.loadPending
  let s := if transfer then shadowSet ps else g.active.getD (shadowSet ps)
  let C := carrierRun ps g.mask s
  let nom := carrier ps s
  let stretched := decide (nom < C)
  let prs := pairsOf g.mask
  let lim := prs.any (fun i => (highSide ps s C i).2.2)
  let drop := prs.any (fun i => pulseDropped ps s C i)
  let release := g.faultHold && low = 0
  let woken := if transfer then g.engineReq &&& g.wake else 0
  let still := (g.still.zipIdx).map (fun x => if bitOf woken x.2 then none else x.1)
  let sp := stretched && msDue g.stretchPost t
  let cyc := g.faultHold && low ≠ 0
  let cp := cyc && msDue g.cyclePost t
  let cyn := if cyc then (g.cycleFaults + 1) % 2 ^ 32 else g.cycleFaults
  -- inputs high for the whole of the period that ends here end the report (R350)
  let clr := match g.highAt, g.start with | some h, some b0 => decide (ccOf h ≤ b0) | _, _ => false
  { g := { g with active := some s, start := some b, next := b + max 1 C
                  loadPending := if transfer then false else g.loadPending
                  engineReq := if transfer then 0 else g.engineReq
                  faultHold := g.faultHold && !release, still := still, wake := g.wake - woken
                  highAt := if clr then none else g.highAt
                  stretchPost := if sp then some t else g.stretchPost
                  stretchCount := if stretched then (g.stretchCount + 1) % 2 ^ 32 else g.stretchCount
                  cyclePost := if cp then some t else g.cyclePost, cycleFaults := cyn }
    evs := (if sp then [report Evt.periodStretch t (d32 nom ++ d32 C)] else [])
      ++ (if cp then [report Evt.faultCycle t (d8 low ++ [0, 0, 0] ++ d32 cyn)] else [])
      ++ (if clr then [clearedEv Evt.faultCycle t (d8 low ++ [0, 0, 0] ++ d32 cyn)] else [])
    flags := (if stretched then 2 else 0) + (if lim then 4 else 0) + (if drop then 8 else 0) }

/-- A fault input has been low for longer than its filter (R349, R350): cycle-by-cycle mode. -/
def Pwmg.cycleFault (g : Pwmg) (low t : Nat) : Pwmg × List Ev :=
  let n := (g.cycleFaults + 1) % 2 ^ 32
  let p := msDue g.cyclePost t
  ({ g with faultHold := true, highAt := none, cycleFaults := n, cyclePost := if p then some t else g.cyclePost },
   if p then [report Evt.faultCycle t (d8 low ++ [0, 0, 0] ++ d32 n)] else [])

/-! Sigma-delta inputs (R355 … R358). -/

/-- Moving sums of a window of r. -/
def boxSum (r : Nat) (l : List Int) : List Int :=
  (List.range (l.length + 1 - r)).map (fun i => ((l.drop i).take r).foldl (· + ·) 0)

/-- The sinc3 sum of 3R − 2 bits (R356). -/
def sinc3 (r : Nat) (bits : List Bool) : Int :=
  let v : List Int := bits.map (fun b => if b then 1 else -1)
  (boxSum r (boxSum r (boxSum r v))).headD 0

/-- A result at an instant (ns): the input, its events, bits of `SDIN.FLAGS` (R356). -/
def Sdin.form (ps : Params) (x : Sdin) (bits : List Bool) (at_ t : Nat) : Sdin × List Ev × Nat :=
  let r := ps.u Par.sdinDecim
  let v := sinc3 r bits
  let clip := decide (v.natAbs = r ^ 3)
  let n := if clip then min 65536 (x.clips + 1) else 0
  let on := clip && decide (ps.u Par.sdinClipLimit ≤ n)
  let evs := if on && !x.clipOn then [report Evt.sdClipped t (di32 v)]
    else if x.clipOn && !clip then [clearedEv Evt.sdClipped t (di32 v)] else []
  ({ x with result := v, time := at_, clips := n, clipOn := on || (x.clipOn && clip), trigAt := none },
   evs, if clip then 1 else 0)

def Sdin.create : Sdin := { result := 0, time := 0, arrivals := [], clips := 0, clipOn := false, trigAt := none }

/-- A result formed at an instant reaches the Loop island after a delay within the bounds of R354: 150 … 300 ns. -/
def Sdin.deliver (x : Sdin) (delay : Nat) : Sdin := { x with arrivals := x.arrivals ++ [(x.time + 150 + delay, x.result)] }

/-- What a gate at a time latches (R358): the last result that has arrived, and whether none has since the previous gate. -/
def Sdin.latched (x : Sdin) (gate : Nat) (prev : Option Nat) : Int × Bool :=
  match (x.arrivals.filter (fun a => decide (a.1 ≤ gate))).getLast? with
  | some a => (a.2, match prev with | some p => decide (a.1 ≤ p) | none => false)
  | none => (0, true)

/-- After a gate only the last arrival before it, and those still to come, can be latched. -/
def Sdin.gateDone (x : Sdin) (gate : Nat) : Sdin :=
  let old := x.arrivals.filter (fun a => decide (a.1 ≤ gate))
  { x with arrivals := old.drop (old.length - 1) ++ x.arrivals.filter (fun a => decide (gate < a.1)) }

/-- Bits a result needs. -/
def sdinBits (ps : Params) : Nat := 3 * ps.u Par.sdinDecim - 2

/-- Next free-running instant after a time (R357). -/
def sdinNext (ps : Params) (now : Nat) : Nat := let u := ps.u Par.sdinDecim * 50; (now / u + 1) * u

end Sys2Proof.Machine
end

