-- ==== Sys2Proof/Machine/Lanes.lean ====
section
/-! DEFINITION. Drive lanes (chapter 12): downlink frames, the microstep generator, uplinks, staleness and loss,
as functions of one lane. -/

namespace Sys2Proof.Machine

open Sys2Proof

def laneAxes (ps : Params) : Nat := ps.u Par.dlaneAxes

/-- Arctangent of any rational, in radians. -/
def atanR (w : Rat) : Rat := if w < 0 then -(atanHalf 3 1 (-w)) else atanHalf 3 1 w

/-- The checks of R370. -/
def laneTimingOk (ps : Params) : Bool :=
  let n := laneAxes ps
  decide ((14 + 8 * n) * 50 + 400 ≤ ps.u Par.dlaneApplyAt ∧ (14 + 16 * n) * 50 + 1500 ≤ ps.u Par.dlaneSampleLead)

/-- Content of a slot in its standstill mode (R388). -/
def stillWords (short : Bool) : List Byte := (if short then 1 else 0) :: List.replicate 7 0

/-- The microstep generator (R385): words, bytes of `AMP_LIMITED` where the amplitude is clamped. -/
def microstep (ps : Params) (s rest : Nat) (p v : Rat) : List Byte × Option Nat :=
  let E : Rat := (ps.u Par.dlaneEcycle s : Rat)
  let x := p - (ps.i Par.dlaneZero s : Rat)
  let phi := x - ((x / E).floor : Rat) * E
  let fe := v / E
  let w := 2 * piR * fe * (ps.u Par.dlaneTauNs s : Rat) / 1000000000
  let lead := roundEven (1024 * atanR w / (2 * piR))
  let addr := ((1024 * phi / E).floor + lead) % 1024
  let a : Rat := if v = 0 ∧ ps.u Par.dlaneHoldDelay s ≤ rest then (ps.u Par.dlaneAHold s : Rat)
    else (ps.u Par.dlaneARun s : Rat) * sqrtR (1 + w * w) + (ps.u Par.dlaneKBemf s : Rat) / 65536 * absR fe
  let r := roundEven a
  let mx : Int := ps.u Par.dlaneAMax s
  let amp := min r mx
  let arate := satI 16 (roundEven (v * 65536 / (E * 62500)))
  ([3, 0] ++ d16 addr.toNat ++ d16 amp.toNat ++ leInt 2 arate,
   if mx < r then some (min r 65535).toNat else none)

/-- Delay in use (R368). -/
def Lane.d (l : Lane) : Nat := l.delay.getD 0

/-- A slot after its words are chosen: `UPD` advances only with new words (R373). -/
def LaneSlot.put (x : LaneSlot) (ws : List Byte) (fresh : Bool) : LaneSlot :=
  if fresh || x.words ≠ ws then { x with words := ws, upd := (x.upd + 1) % 16 } else x

/-- The downlink frame of a tick (R371). -/
def Lane.build (ps : Params) (l : Lane) (frozen : Bool) (shorts : List Bool) : Lane :=
  let n := laneAxes ps
  let seq := (l.seq + 1) % 256
  let hdr := d8 ((n - 1) + (if frozen then 4 else 0) + (if l.link = 2 then 8 else 0) + 16) ++ d8 seq
    ++ leInt 2 ((ps.u Par.dlaneApplyAt : Int) - 50 - l.d) ++ leInt 2 (16000 - (ps.u Par.dlaneSampleLead : Int) - 50 - l.d)
    ++ d8 l.lctrl ++ d8 ((shorts.zipIdx).foldl (fun m x => if x.1 then m + 2 ^ x.2 else m) 0)
  let slots := ((l.slots.take n).map (fun x =>
    let w := if frozen ∧ (byteAt x.words 0).toNat = 3 then x.words.take 6 ++ [0, 0] else x.words
    d8 ((byteAt w 0).toNat + 16 * x.upd) ++ w.drop 1)).flatten
  let body := hdr ++ slots
  { l with seq := seq, lctrl := 0, frame := body ++ d32 (crc32 body).toNat }

/-! Uplinks (R374 … R380). -/

/-- What makes a lane reject an uplink (R377). -/
inductive UplinkFault where
  | crc | late | seq | other
  deriving DecidableEq, Repr

/-- The acceptance test: everything a frame fails by. `code` code violation, `eof` ns after the tick at which `EOF` ends. The header of a
frame that fails the first test is not read. -/
def Lane.judge (ps : Params) (l : Lane) (code : Bool) (eof : Nat) (b : List Byte) : List UplinkFault :=
  let len := b.length - 4
  let late := if 16000 < eof then [UplinkFault.late] else []
  if code ∨ b.length < 12 ∨ (crc32 (b.take len)).toNat ≠ rdU b len 4 then .crc :: late
  else late ++ (if bitsOf (rdU b 0 1) 1 0 + 1 ≠ laneAxes ps ∨ len ≠ 8 + 16 * laneAxes ps then [.other] else [])
    ++ (if rdU b 1 1 ≠ l.seq then [.seq] else [])

/-- Mean of 16 delay samples, given doubled, to the nearest ns (R369); a mean half-way is rounded either way (log 10). -/
def delayMean (l : List Int) : Nat :=
  let s := l.foldl (· + ·) 0
  (if s % 32 = 16 then divOpen 18 s 32 else divNearestEven s 32).toNat

/-- Accept an uplink (R369, R366): `sof` ns after the tick until the last bit of its `SOF` is received. -/
def Lane.accept (l : Lane) (sof t : Nat) (b : List Byte) : Lane × List Ev :=
  let turn := rdU b 2 2
  let samples := (((sof : Int) - 100 - turn) :: l.samples).take 16
  let delay := if samples.length = 16 then some (delayMean samples) else l.delay
  let l := { l with samples := samples, delay := delay, turn := turn, pendingUp := some b
                    valid := if l.link = 2 then min 16 (l.valid + 1) else l.valid }
  if l.link = 2 ∧ l.valid = 16 ∧ l.delay.isSome then
    ({ l with link := 3 }, [report Evt.laneUp t (d16 l.d ++ d16 turn)])
  else (l, [])

/-- Reports of an accepted uplink (R380): lane after it, events, `DLANE.FLAGS` bits, and the first fault event where the action faults. -/
def Lane.reports (ps : Params) (l : Lane) (b : List Byte) (t : Nat) : Lane × List Ev × Nat × Option Ev :=
  let us := rdU b 6 2
  let n := laneAxes ps
  let sst (s : Nat) : Nat := rdU b (8 + 16 * s + 6) 2
  let bad (s : Nat) : Bool := bitOf (sst s) 0 || bitOf (sst s) 1
  let act := ps.u Par.dlaneStageFaultAction = 1
  let ev (slot ss : Nat) : Ev := { code := Evt.stageFault, ns := t, fault := act, data := d8 slot ++ [0] ++ d16 ss ++ d16 us }
  let lane := if bitOf us 0 && !l.stageFault then [ev 0xFF 0] else []
  let axs := ((List.range n).filter (fun s => bad s && !((l.slots[s]?.map (fun x => x.faultSeen)).getD false))).map
    (fun s => ev s (sst s))
  let evs := lane ++ axs
  let errs := if bitOf us 4 then l.errCount + 1 else l.errCount
  let post := bitOf us 4 && msDue l.errPost t
  let e2 := if post then [report Evt.dlErrorReported t (d32 errs)] else []
  let slots := (l.slots.zipIdx).map (fun x => if x.2 < n then { x.1 with faultSeen := bad x.2 } else x.1)
  ({ l with stageFault := bitOf us 0, slots := slots, errCount := if post then 0 else errs
            errPost := if post then some t else l.errPost },
   evs ++ e2, (if evs = [] then 0 else 2) + (if bitOf us 4 then 8 else 0),
   if act then evs.head? else none)

/-- What a tick finds of the uplink of the tick before (R378, R379): the lane, slots newly stale and newly fresh. -/
def Lane.tickUplink (ps : Params) (l : Lane) : Lane × Nat × Nat :=
  let n := laneAxes ps
  let lim := ps.u Par.dlaneStaleLimit
  let one (x : LaneSlot) (s : Nat) : LaneSlot :=
    let b := (l.pendingUp.getD []).drop (8 + 16 * s)
    let ok := l.pendingUp.isSome && bitOf (rdU b 6 2) 3
    let x := if l.pendingUp.isSome then { x with up := b.take 16 } else x
    if ok then { x with stale := false, staleRun := 0, staleReported := false }
    else { x with stale := true, staleRun := min 65535 (x.staleRun + 1), staleReported := x.staleReported || decide (lim ≤ x.staleRun + 1) }
  let slots := (l.slots.zipIdx).map (fun x => if x.2 < n then one x.1 x.2 else x.1)
  let bits (f : LaneSlot → LaneSlot → Bool) : Nat :=
    ((l.slots.zip slots).zipIdx).foldl (fun m x => if f x.1.1 x.1.2 then m + 2 ^ x.2 else m) 0
  let newStale := bits (fun a b => !a.staleReported && b.staleReported)
  let newFresh := bits (fun a b => a.staleReported && !b.staleReported)
  let us := match l.pendingUp with | some b => rdU b 6 2 | none => l.ustat
  let vb := match l.pendingUp with | some b => rdI b 4 2 | none => l.vbus
  ({ l with slots := slots, ustat := us, vbus := vb, lossRun := if l.pendingUp.isSome then 0 else min 65536 (l.lossRun + 1)
            pendingUp := none }, newStale, newFresh)

/-- Uplink word w of a slot (R376). -/
def Lane.word (l : Lane) (s w : Nat) : Int :=
  if w = 3 then l.vbus else rdI ((l.slots[s]?.map (fun x => x.up)).getD []) (2 * w) 2

def LaneSlot.create : LaneSlot :=
  { upd := 0, words := stillWords false, duty := none, rest := 0
    up := List.replicate 16 0, stale := false, staleRun := 0, staleReported := false, faultSeen := false }

def Lane.create : Lane :=
  { link := 0, since := 0, seq := 0, slots := List.replicate 4 LaneSlot.create, samples := [], delay := none, turn := 0
    valid := 0, pendingUp := none, lossRun := 0, ustat := 0, vbus := 0, stageFault := false, errCount := 0
    errPost := none, ampPost := none, lctrl := 0, drain := none, frame := [] }

/-- At enable (R366): TRAINING, everything measured anew. -/
def Lane.enable (l : Lane) (t : Nat) : Lane := { Lane.create with link := 1, since := t, seq := l.seq }

/-- `DLANE_GET_UPLINK` (R392). -/
def Lane.uplinkWords (l : Lane) (s : Nat) : Result :=
  let b := (l.slots[s]?.map (fun x => x.up)).getD []
  ⟨BitVec.ofNat 64 (rdU b 0 8), BitVec.ofNat 64 (rdU b 8 8)⟩

end Sys2Proof.Machine
end

