-- ==== Sys2Proof/Machine/LoopTypes.lean ====
section
/-! DEFINITION. State of loop groups, their engine contexts and trace buffers (chapters 09 and 10). Signals are
integer images: Q1.15 for y, z, u, Q1.31 for states, integrators and row results. -/

namespace Sys2Proof.Machine

open Sys2Proof

/-- Dimensions of a section (R271). -/
structure SecDims where
  n : Nat
  m : Nat
  p : Nat
  nz : Nat
  q : Nat
  deriving DecidableEq, Repr

/-- The register context of a section (R301): `A`, `M`, `B`, `L`, and `EFLAGS` (R299). -/
structure EngCtx where
  a : List Nat
  m : List Int
  b : List Nat
  l : List Nat
  eflags : Nat
  deriving DecidableEq, Repr

/-- Signals of a section (R278). -/
structure LoopSec where
  dims : SecDims
  xs : List Int
  qs : List Int
  us : List Int
  ys : List Int
  zs : List Int
  vs : List Int
  ctx : EngCtx
  /-- Step list in force (R304): the host's; a generated list is not held as words. -/
  steps : List U64
  deriving DecidableEq, Repr

/-- A loop group. -/
structure Lgrp where
  word : Nat
  engine : Nat
  inner : LoopSec
  outer : Option LoopSec
  /-- Coefficient banks A and B. -/
  bankA : List Byte
  bankB : List Byte
  active : Nat
  /-- A swap is to be completed at the next gate (R287). -/
  swapNow : Bool
  /-- Data area of host lists (R300). -/
  data : List Byte
  /-- Value of `LGRP.LIST_CHECK`. -/
  listCheck : Nat
  feCount : List Nat
  /-- Axes whose counter has reached its limit in the excursion that lasts (R290). -/
  feHit : List Bool
  feNow : List Int
  satFlags : Nat
  /-- `SAT_FLAGS` at the start of the tick read (R295). -/
  satStart : Nat
  /-- Flags newly set and not yet reported, and the time of the last `SATURATION` (R288). -/
  satNew : Nat
  /-- Section and first element of the first of them (R296). -/
  satWhere : Nat × Nat
  satPost : Option Nat
  satCount : Nat
  /-- Start of the last tick whose gate has run. -/
  gateTick : Option Nat
  /-- Output words of the last run, by control input, for the next tick (R282). -/
  staged : List (Nat × Int)
  /-- Consecutive ticks with every axis at rest while draining (R291). -/
  settle : Nat
  /-- Destinations take standstill and the group ends at the next tick (R292). -/
  dropAt : Option Nat
  /-- The axes then stop on their quick ramps (R183, R292). -/
  dropQuick : Bool
  /-- `LGRP.PARK_COUNT` and `LGRP.START_DELAY_MAX` (R329, R332). -/
  parkCount : Nat
  startMax : Nat
  deriving DecidableEq, Repr

/-- A trace buffer (R331). `st` has the codes of `TRACE.STATE`. -/
structure Trace where
  st : Nat
  addr : Nat
  bytes : Nat
  /-- Records and bytes of a record of the ring allocated (R331). -/
  depth : Nat
  size : Nat
  writeIdx : Nat
  trigIdx : Nat
  /-- Runs of the inner section since the arm. -/
  runs : Nat
  postLeft : Nat
  trigSeen : Bool
  deriving DecidableEq, Repr

end Sys2Proof.Machine
end

