-- ==== Sys2Proof/Machine/Datapath.lean ====
section
/-! DEFINITION. The Loop Engine (chapter 10): number formats, address registers, step words, their execution
in list order, and the check of a host list. -/

namespace Sys2Proof.Machine

open Sys2Proof

/-! Formats and rounding (R297 … R299). -/

/-- a × 2^e rounded to nearest, ties to even. -/
def shiftRound (a : Int) (e : Int) : Int :=
  if 0 ≤ e then a * 2 ^ e.toNat else divNearestEven a (2 ^ (-e).toNat)

/-- Q1.31 read as Q1.15 (R298). -/
def round15 (v : Int) : Int := satI 16 (divNearestEven v 65536)

/-- Sum of products into a saturating accumulator: the value and whether it saturated (R299). -/
def accumulate (bits : Nat) (l : List Int) : Int × Bool :=
  l.foldl (fun s x => let v := s.1 + x; (satI bits v, s.2 || decide (satI bits v ≠ v))) (0, false)

/-- Accumulator × 2^s rounded into a target of the given width; `frac` is the number of fraction bits dropped
with s = 0. -/
def rowResult (acc : Int) (s frac : Int) (bits : Nat) : Int × Bool :=
  let v := shiftRound acc (s - frac)
  (satI bits v, decide (satI bits v ≠ v))

/-- A value of the given width that no rule gives: a signal a section does not have, a record outside its range (log 156). -/
def openSignal (bits site : Nat) (l : List Int) : Int := asSigned bits ((Config.openSignal site l).toNat % 2 ^ bits)

/-- A clamp; with its bounds crossed, which only a host's records can bring about, its result is open (log 156). -/
def clampOpen (lo hi v : Int) : Int := if lo ≤ hi then clampI lo hi v else openSignal 32 1 [lo, hi, v]

/-! Step fields (R304, R305). -/

def stOp (w : Nat) : Nat := bitsOf w 63 60
def stWait (w : Nat) : Bool := w.testBit 59
def stCm (w : Nat) : Bool := w.testBit 58
def stD (w : Nat) : Nat := bitsOf w 57 55
def stS (w : Nat) : Nat := bitsOf w 54 52
def stC (w : Nat) : Nat := bitsOf w 51 49
def stPD (w : Nat) : Bool := w.testBit 48
def stPS (w : Nat) : Bool := w.testBit 47
def stPC (w : Nat) : Bool := w.testBit 46
/-- Format F: shift, N, K, registers `T` and `U`, their post-modify bits, immediate. -/
def stSH (w : Nat) : Int := asSigned 6 (bitsOf w 45 40)
def stN (w : Nat) : Nat := bitsOf w 39 32 + 1
def stK (w : Nat) : Nat := bitsOf w 31 24 + 1
def stFT (w : Nat) : Nat := bitsOf w 23 21
def stFU (w : Nat) : Nat := bitsOf w 20 18
def stFPT (w : Nat) : Bool := w.testBit 17
def stFPU (w : Nat) : Bool := w.testBit 16
def stImm (w : Nat) : Nat := bitsOf w 15 0
/-- Format M: registers `T`, `H`, `G`, segment-1 length, width and post-modify bits. -/
def stMT (w : Nat) : Nat := bitsOf w 45 43
def stH (w : Nat) : Nat := bitsOf w 42 40
def stK1 (w : Nat) : Nat := bitsOf w 23 16 + 256 * bitsOf w 8 8
def stVW (w : Nat) : Bool := w.testBit 15
def stMPT (w : Nat) : Bool := w.testBit 14
def stPH (w : Nat) : Bool := w.testBit 13
def stG (w : Nat) : Nat := bitsOf w 12 10
def stPG (w : Nat) : Bool := w.testBit 9
/-- Format L. -/
def stKind (w : Nat) : Nat := bitsOf w 45 44
def stValue (w : Nat) : Nat := bitsOf w 17 0

/-- Whole groups of n. -/
def groupsOf (k n : Nat) : Nat := (n + k - 1) / k

/-- Issue cycles of a step (R306). -/
def stCycles (w : Nat) : Nat :=
  let n := stN w
  let k := stK w
  match stOp w with
  | 0 => 1 + bitsOf w 7 0
  | 1 => 1
  | 2 | 3 => if stCm w then 4 * groupsOf 8 n * k + 10 else groupsOf 8 n * k + 6
  | 4 => groupsOf 8 n * k + n + 6
  | 5 => 3 * n + 5
  | 6 => if stCm w then 4 * groupsOf 8 k + 9 else groupsOf 8 k + 5
  | 7 => 3 * n
  | 8 => 2 * n
  | 9 => 4 * n
  | 10 => groupsOf 8 n + 2
  | 11 => groupsOf 8 n + 1
  | 12 => n + 2
  | 13 => groupsOf 4 n + 2
  | 14 => 1
  | _ => 2

/-- Result latency of a step (R306); 0 for a step without a result. -/
def stLatency (w : Nat) : Nat :=
  let c := stCycles w
  match stOp w with
  | 1 => 2
  | 2 => if stCm w then c + 3 else c + 2
  | 3 | 4 => c + 3
  | 6 => if stCm w then c + 3 else c + 2
  | 5 | 7 | 9 => c + 2
  | 8 | 10 | 11 | 12 => c + 1
  | 14 => 1
  | _ => 0

/-- Flags a step can set (R306), as an `EFLAGS` mask. -/
def stFlags (w : Nat) : Nat :=
  match stOp w with
  | 1 => 0x80 | 2 => 0x03 | 3 => 0x07 | 4 => 0x07 | 5 => 0x03 | 6 => 0x03 | 7 => 0x08 | 8 => 0x10
  | 9 => 0x20 | 10 => 0x02 | 11 => 0x02 | 12 => 0x40 | _ => 0

/-! Addresses (R301 … R303). -/

def two18 : Nat := 262144

/-- The address at a byte offset from `Ak`, wrapped into its buffer when `Lk` ≠ 0. -/
def wrapAddr (a b l : Nat) (off : Int) : Nat :=
  let x := (((a : Int) + off) % two18).toNat
  if l = 0 then x else (b + ((x + two18 - b) % two18) % l) % two18

def EngCtx.addr (c : EngCtx) (k : Nat) (off : Int) : Nat :=
  wrapAddr (c.a.getD k 0) (c.b.getD k 0) (c.l.getD k 0) off

/-- Post-modify of a register. -/
def EngCtx.post (c : EngCtx) (k : Nat) (on : Bool) : EngCtx :=
  if on then { c with a := c.a.set k (c.addr k (c.m.getD k 0)) } else c

def EngCtx.flag (c : EngCtx) (bit : Nat) (on : Bool) : EngCtx :=
  if on && !c.eflags.testBit bit then { c with eflags := c.eflags + 2 ^ bit } else c

/-- `LOAD` (R303). -/
def EngCtx.load (c : EngCtx) (kind k v : Nat) : EngCtx :=
  match kind with
  | 0 => { c with a := c.a.set k v }
  | 1 => { c with m := c.m.set k (asSigned 18 v) }
  | _ =>
    let c := if kind = 2 then { c with b := c.b.set k v } else { c with l := c.l.set k v }
    let l := c.l.getD k 0
    let b := c.b.getD k 0
    let off := (c.a.getD k 0 + two18 - b) % two18
    if l ≠ 0 ∧ l ≤ off then ({ c with a := c.a.set k ((b + off % l) % two18) }).flag 7 true else c

def EngCtx.zero : EngCtx :=
  ⟨List.replicate 8 0, List.replicate 8 0, List.replicate 8 0, List.replicate 8 0, 0⟩

/-! Execution (R307 … R320, R324). -/

/-- What a run reads besides its context: active bank, gate area, and per output slot the destination range. -/
structure EngEnv where
  bank : List Byte
  gate : List Byte
  dst : Nat → Option (Int × Int)
  p : Nat

/-- A run in progress. -/
structure EngRun where
  ctx : EngCtx
  data : List Byte
  outs : List (Nat × Int)
  /-- Control inputs its `OUT` steps read, by slot. -/
  us : List (Nat × Int)
  trace : List Int
  /-- `SAT_FLAGS` bits set by `SATCHK`. -/
  sat : Nat
  ended : Bool
  deriving DecidableEq, Repr

/-- A byte of the step address space (R300). -/
def EngRun.byte (e : EngEnv) (r : EngRun) (addr : Nat) : Byte :=
  match addr / 0x10000 with
  | 0 => byteAt e.bank addr
  | 1 => byteAt r.data (addr - 0x10000)
  | 2 => byteAt e.gate (addr - 0x20000)
  | _ => 0

/-- The signed element of n bytes at an address. -/
def EngRun.rd (e : EngEnv) (r : EngRun) (addr n : Nat) : Int :=
  asSigned (8 * n) (leNat ((List.range n).map (fun i => r.byte e (addr + i))))

/-- Element i of an operand of register k. -/
def EngRun.el (e : EngEnv) (r : EngRun) (k n i : Nat) : Int := r.rd e (r.ctx.addr k (i * n : Nat)) n

def EngRun.els (e : EngEnv) (r : EngRun) (k n cnt : Nat) : List Int := (List.range cnt).map (fun i => r.el e k n i)

/-- Write an element into the data area. -/
def EngRun.wr (r : EngRun) (addr n : Nat) (v : Int) : EngRun :=
  if addr / 0x10000 = 1 then
    { r with data := ((leInt n v).zipIdx).foldl (fun d x => d.set (addr - 0x10000 + x.2) x.1) r.data }
  else r

def EngRun.wrEls (r : EngRun) (k n : Nat) (vs : List Int) : EngRun :=
  let c := r.ctx
  (vs.zipIdx).foldl (fun r x => r.wr (c.addr k (x.2 * n : Nat)) n x.1) r

def EngRun.flag (r : EngRun) (bit : Nat) (on : Bool) : EngRun := { r with ctx := r.ctx.flag bit on }

def EngRun.posts (r : EngRun) (l : List (Nat × Bool)) : EngRun :=
  { r with ctx := l.foldl (fun c x => c.post x.1 x.2) r.ctx }

def clampShift (s : Int) : Int := clampI (-8) 9 s

/-- Row results of a matrix step: values in Q1.31, `AOVF`, `RSAT`. -/
def matRows (e : EngEnv) (r : EngRun) (w : Nat) (x : List Int) : List Int × Bool × Bool :=
  let k := stK w
  let rows := (List.range (stN w)).map (fun i =>
    let s := clampShift (r.el e (stH w) 1 i)
    if stCm w then
      let ps := (x.zipIdx).map (fun v =>
        let at_ := r.ctx.addr (stC w) ((i * k + v.2) * 8 : Nat)
        r.rd e at_ 4 * v.1 / 2 ^ ((r.rd e (at_ + 4) 4) % 32).toNat)
      let (a, o) := accumulate 72 ps
      let (v, t) := rowResult a s 31 32
      (v, o, t)
    else
      let ps := (x.zipIdx).map (fun v => r.el e (stC w) 2 (i * k + v.2) * v.1)
      let (a, o) := accumulate 40 ps
      let (v, t) := rowResult a s (-1) 32
      (v, o, t))
  (rows.map (fun x => x.1), rows.any (fun x => x.2.1), rows.any (fun x => x.2.2))

/-- Vector of a `MATVEC` (R307). -/
def matVec (e : EngEnv) (r : EngRun) (w : Nat) : List Int :=
  let k1 := stK1 w
  let s1 := if stCm w then r.els e (stS w) 4 k1
    else if stVW w then (r.els e (stS w) 4 k1).map round15 else r.els e (stS w) 2 k1
  s1 ++ r.els e (stMT w) (if stCm w then 4 else 2) (stK w - k1)

/-- One section of a `BIQUAD` chain (R309): output, new state, saturations. -/
def biquadSec (c s : List Int) (x : Int) (sh : Int) : Int × List Int × Bool × Bool :=
  let g := fun (l : List Int) i => l.getD i 0
  let (a, o) := accumulate 40 [g c 0 * x, g c 1 * g s 0, g c 2 * g s 1, g c 3 * g s 2, g c 4 * g s 3]
  let (y, t) := rowResult a sh 15 16
  (y, [x, g s 0, y, g s 2], o, t)

def biquadAll (e : EngEnv) (w : Nat) : Nat → Nat → EngRun → Int → EngRun × Int
  | 0, _, r, x => (r, x)
  | n + 1, j, r, x =>
    let c := (List.range 5).map (fun i => r.el e (stC w) 2 (5 * j + i))
    let s := (List.range 4).map (fun i => r.el e (stFT w) 2 (4 * j + i))
    let (y, s', o, t) := biquadSec c s x (stSH w)
    let r := (s'.zipIdx).foldl (fun r v => r.wr (r.ctx.addr (stFT w) ((4 * j + v.2) * 2 : Nat)) 2 v.1) r
    biquadAll e w n (j + 1) ((r.flag 0 o).flag 1 t) y

/-- One integrator of R280: value after it. `u` is the applied input with its limits. -/
def integOne (q y ki ks u ulo uhi qlo qhi : Int) : Int :=
  let p := y * ki
  if (u = uhi ∧ 0 < p) ∨ (u = ulo ∧ p < 0) then q
  else
    let e := ks + 1
    let v := if 0 ≤ e then q + p * 2 ^ e.toNat else divNearestEven (q * 2 ^ (-e).toNat + p) (2 ^ (-e).toNat)
    clampOpen (qlo * 65536) (qhi * 65536) v

/-- An output word (R277, R316): the value and whether a limit changed it. -/
def outWord (u gain off lo hi : Int) : Int × Bool :=
  let w := divNearestEven (u * gain) 32768 + off
  let c := clampOpen lo hi w
  (c, decide (c ≠ w))

/-- Execute one step. -/
def engStep (e : EngEnv) (r : EngRun) (w : Nat) : EngRun :=
  let n := stN w
  let pF := [(stD w, stPD w), (stS w, stPS w), (stC w, stPC w), (stFT w, stFPT w), (stFU w, stFPU w)]
  let pM := [(stD w, stPD w), (stS w, stPS w), (stC w, stPC w), (stMT w, stMPT w), (stH w, stPH w), (stG w, stPG w)]
  let narrow (bits : Nat) (v : Int) : Int × Bool := (satI bits v, decide (satI bits v ≠ v))
  match stOp w with
  | 0 => r
  | 1 => { r with ctx := r.ctx.load (stKind w) (stD w) (stValue w) }
  | 2 =>
    let (v, o, t) := matRows e r w (matVec e r w)
    (((r.wrEls (stD w) 4 v).flag 0 o).flag 1 t).posts pM
  | 3 =>
    let (v, o, t) := matRows e r w (matVec e r w)
    let s := (v.zip (r.els e (stG w) 4 n)).map (fun x => narrow 32 (x.1 + x.2))
    ((((r.wrEls (stD w) 4 (s.map (fun x => x.1))).flag 0 o).flag 1 t).flag 2 (s.any (fun x => x.2))).posts pM
  | 4 =>
    let xs := r.els e (stD w) 4 n
    let vec := xs.map round15 ++ r.els e (stMT w) 2 (stK w - n)
    let (v, o, t) := matRows e r w vec
    let s := (v.zip xs).map (fun x => narrow 32 (x.1 + x.2))
    ((((r.wrEls (stD w) 4 (s.map (fun x => x.1))).flag 0 o).flag 1 t).flag 2 (s.any (fun x => x.2))).posts pM
  | 5 =>
    let (r', y) := biquadAll e w n 0 r (r.el e (stS w) 2 0)
    (r'.wrEls (stD w) 2 [y]).posts pF
  | 6 =>
    let b := if stCm w then 4 else 2
    let x := r.el e (stFT w) b 0
    let r := { r with ctx := { r.ctx with a := r.ctx.a.set (stS w) (r.ctx.addr (stS w) (b : Nat)) } }
    let r := r.wr (r.ctx.a.getD (stS w) 0) b x
    let ps := (List.range (stK w)).map (fun i =>
      let v := r.rd e (r.ctx.addr (stS w) (-((b * i : Nat) : Int))) b
      if stCm w then
        let at_ := r.ctx.addr (stC w) (8 * i : Nat)
        r.rd e at_ 4 * v / 2 ^ ((r.rd e (at_ + 4) 4) % 32).toNat
      else r.el e (stC w) 2 i * v)
    let (a, o) := accumulate (if stCm w then 72 else 40) ps
    let (y, t) := if stCm w then rowResult a (stSH w) 31 32 else rowResult a (stSH w) 15 16
    (((r.wrEls (stD w) b [y]).flag 0 o).flag 1 t).posts [(stD w, stPD w), (stC w, stPC w), (stFT w, stFPT w)]
  | 7 =>
    let s := (List.range n).map (fun i =>
      let at_ := r.ctx.addr (stC w) (8 * i : Nat)
      let sh := (r.rd e (at_ + 4) 1 % 256).toNat
      if sh ≤ 63 then narrow 16 (divNearestEven (r.el e (stS w) 8 i * r.rd e at_ 4) (2 ^ sh))
      else (openSignal 16 2 [r.el e (stS w) 8 i, r.rd e at_ 4, sh], false))
    ((r.wrEls (stD w) 2 (s.map (fun x => x.1))).flag 3 (s.any (fun x => x.2))).posts pF
  | 8 =>
    let s := (List.range n).map (fun i =>
      let v := r.el e (stS w) 4 i
      let at_ := r.ctx.addr (stC w) (4 * i : Nat)
      let c := clampOpen (r.rd e at_ 2 * 65536) (r.rd e (at_ + 2) 2 * 65536) v
      (round15 c, decide (c ≠ v)))
    ((r.wrEls (stD w) 2 (s.map (fun x => x.1))).flag 4 (s.any (fun x => x.2))).posts pF
  | 9 =>
    let s := (List.range n).map (fun i =>
      let at_ := r.ctx.addr (stC w) (8 * i : Nat)
      let ua := r.ctx.addr (stFU w) (4 * i : Nat)
      let qlo := r.rd e (at_ + 4) 2
      let qhi := r.rd e (at_ + 6) 2
      let y := r.el e (stS w) 2 (r.rd e (at_ + 3) 1 % 256).toNat
      let q := integOne (r.el e (stD w) 4 i) y (r.rd e at_ 2) (clampShift (r.rd e (at_ + 2) 1))
        (r.el e (stFT w) 2 i) (r.rd e ua 2) (r.rd e (ua + 2) 2) qlo qhi
      (q, decide (q = qlo * 65536 ∨ q = qhi * 65536)))
    ((r.wrEls (stD w) 4 (s.map (fun x => x.1))).flag 5 (s.any (fun x => x.2))).posts pF
  | 10 =>
    let b := if bitOf (stImm w) 15 then 4 else 2
    let ss := r.els e (stS w) b n
    let s := (ss.zip (r.els e (stFT w) b n)).map (fun x => narrow (8 * b) (x.1 - x.2))
    let r := r.wrEls (stD w) b (s.map (fun x => x.1))
    let r := if bitOf (stImm w) 14 then r.wrEls (stFT w) b ss else r
    (r.flag 1 (s.any (fun x => x.2))).posts pF
  | 11 =>
    let c := bitsOf (stImm w) 15 14
    let ss := r.els e (stS w) (if c = 1 ∨ c = 2 then 4 else 2) n
    let s : List (Int × Bool) := ss.map (fun v => if c = 2 then (round15 v, decide (divNearestEven v 65536 ≠ round15 v))
      else if c = 3 then (v * 65536, false) else (v, false))
    ((r.wrEls (stD w) (if c = 1 ∨ c = 3 then 4 else 2) (s.map (fun x => x.1))).flag 1 (s.any (fun x => x.2))).posts pF
  | 12 =>
    let s : List (Nat × Int × Bool) := (List.range n).map (fun i =>
      let slot := stImm w % 4 + i
      let at_ := r.ctx.addr (stC w) (16 * i : Nat)
      let (lo, hi) := match e.dst slot with
        | some (lo, hi) => (max (r.rd e (at_ + 8) 4) lo, min (r.rd e (at_ + 12) 4) hi)
        | none => (r.rd e (at_ + 8) 4, r.rd e (at_ + 12) 4)
      let (v, c) := outWord (r.el e (stS w) 2 i) (r.rd e at_ 4) (r.rd e (at_ + 4) 4) lo hi
      (slot, v, c))
    let us : List (Nat × Int) := (List.range n).map (fun i => (stImm w % 4 + i, r.el e (stS w) 2 i))
    let r := { r with outs := s.foldl (fun o (x : Nat × Int × Bool) => alSet o x.1 x.2.1) r.outs
                      us := us.foldl (fun o (x : Nat × Int) => alSet o x.1 x.2) r.us }
    (r.flag 6 (s.any (fun x => x.2.2))).posts pF
  | 13 =>
    let b := if bitOf (stImm w) 15 then 4 else 2
    ({ r with trace := r.trace ++ r.els e (stS w) b n }).posts pF
  | 14 =>
    let mask := stImm w % 256
    let hit := r.ctx.eflags &&& mask
    let bit := bitsOf (stImm w) 11 8
    let r := if hit ≠ 0 ∧ ¬ r.sat.testBit bit then { r with sat := r.sat + 2 ^ bit } else r
    { r with ctx := { r.ctx with eflags := r.ctx.eflags - hit } }
  | _ => { r with ended := true }

/-- A run of a host list (R321: results do not depend on the cycle at which they arrive). -/
def engRun (e : EngEnv) : List U64 → EngRun → EngRun
  | [], r => r
  | w :: ws, r => if r.ended then r else engRun e ws (engStep e r w.toNat)

/-! The list check (R327). -/

/-- One operand of a step: register, element size, count, alignment, written, a `FIR` buffer of its size. -/
structure Opnd where
  reg : Nat
  size : Nat
  count : Nat
  align : Nat
  write : Bool
  deriving DecidableEq, Repr

/-- Operands of a step; `p` is the number of measured outputs of the section. Elements are aligned to their size, a compatibility
coefficient among them, and records to 4 bytes; a pair of limits is two elements, as R285 places it (R301, log 157). -/
def stOpnds (w p : Nat) : List Opnd :=
  let n := stN w
  let k := stK w
  let k1 := stK1 w
  let e := if stCm w then 4 else 2
  let coef : Opnd := if stCm w then ⟨stC w, 8, n * k, 8, false⟩ else ⟨stC w, 2, n * k, 2, false⟩
  match stOp w with
  | 2 => [coef, ⟨stH w, 1, n, 1, false⟩, ⟨stS w, if stCm w ∨ stVW w then 4 else 2, k1, if stCm w ∨ stVW w then 4 else 2, false⟩,
          ⟨stMT w, e, k - k1, e, false⟩, ⟨stD w, 4, n, 4, true⟩]
  | 3 => [coef, ⟨stH w, 1, n, 1, false⟩, ⟨stS w, if stCm w ∨ stVW w then 4 else 2, k1, if stCm w ∨ stVW w then 4 else 2, false⟩,
          ⟨stMT w, e, k - k1, e, false⟩, ⟨stG w, 4, n, 4, false⟩, ⟨stD w, 4, n, 4, true⟩]
  | 4 => [coef, ⟨stH w, 1, n, 1, false⟩, ⟨stD w, 4, n, 4, false⟩, ⟨stMT w, 2, k - n, 2, false⟩, ⟨stD w, 4, n, 4, true⟩]
  | 5 => [⟨stS w, 2, 1, 2, false⟩, ⟨stC w, 2, 5 * n, 2, false⟩, ⟨stFT w, 2, 4 * n, 2, false⟩, ⟨stFT w, 2, 4 * n, 2, true⟩,
          ⟨stD w, 2, 1, 2, true⟩]
  | 6 => [⟨stFT w, e, 1, e, false⟩, (if stCm w then ⟨stC w, 8, k, 8, false⟩ else ⟨stC w, 2, k, 2, false⟩),
          ⟨stS w, e, k, e, false⟩, ⟨stS w, e, 1, e, true⟩, ⟨stD w, e, 1, e, true⟩]
  | 7 => [⟨stS w, 8, n, 8, false⟩, ⟨stC w, 8, n, 4, false⟩, ⟨stD w, 2, n, 2, true⟩]
  | 8 => [⟨stS w, 4, n, 4, false⟩, ⟨stC w, 4, n, 2, false⟩, ⟨stD w, 2, n, 2, true⟩]
  | 9 => [⟨stD w, 4, n, 4, false⟩, ⟨stS w, 2, p, 2, false⟩, ⟨stC w, 8, n, 4, false⟩, ⟨stFT w, 2, n, 2, false⟩,
          ⟨stFU w, 4, n, 2, false⟩, ⟨stD w, 4, n, 4, true⟩]
  | 10 =>
    let b := if bitOf (stImm w) 15 then 4 else 2
    [⟨stS w, b, n, b, false⟩, ⟨stFT w, b, n, b, false⟩, ⟨stD w, b, n, b, true⟩]
      ++ (if bitOf (stImm w) 14 then [⟨stFT w, b, n, b, true⟩] else [])
  | 11 =>
    let c := bitsOf (stImm w) 15 14
    let bs := if c = 1 ∨ c = 2 then 4 else 2
    let bd := if c = 1 ∨ c = 3 then 4 else 2
    [⟨stS w, bs, n, bs, false⟩, ⟨stD w, bd, n, bd, true⟩]
  | 12 => [⟨stS w, 2, n, 2, false⟩, ⟨stC w, 16, n, 4, false⟩]
  | 13 => let b := if bitOf (stImm w) 15 then 4 else 2; [⟨stS w, b, n, b, false⟩]
  | _ => []

/-- Registers post-modified by a step. -/
def stPosts (w : Nat) : List Nat :=
  let l := match stOp w with
    | 2 | 3 | 4 => [(stD w, stPD w), (stS w, stPS w), (stC w, stPC w), (stMT w, stMPT w), (stH w, stPH w), (stG w, stPG w)]
    | 0 | 1 | 14 | 15 => []
    | _ => [(stD w, stPD w), (stS w, stPS w), (stC w, stPC w), (stFT w, stFPT w), (stFU w, stFPU w)]
  (l.filter (fun x => x.2)).map (fun x => x.1)

/-- Bits a step may use (R304, R305). -/
def stMask (w : Nat) : Nat :=
  let base := 0xF800000000000000
  let rD := 7 * 2 ^ 55
  let rS := 7 * 2 ^ 52
  let rC := 7 * 2 ^ 49
  let pD := 2 ^ 48
  let pS := 2 ^ 47
  let pC := 2 ^ 46
  let sh := 63 * 2 ^ 40
  let n := 255 * 2 ^ 32
  let k := 255 * 2 ^ 24
  let t := 7 * 2 ^ 21
  let u := 7 * 2 ^ 18
  let pT := 2 ^ 17
  let pU := 2 ^ 16
  let cm := 2 ^ 58
  let mat := rD + rS + rC + pD + pS + pC + 63 * 2 ^ 40 + n + k + 255 * 2 ^ 16 + 2 ^ 14 + 2 ^ 13 + 2 ^ 8
  base + match stOp w with
    | 0 => 255
    | 1 => rD + 3 * 2 ^ 44 + 0x3FFFF
    | 2 => cm + mat + 2 ^ 15
    | 3 => cm + mat + 2 ^ 15 + 7 * 2 ^ 10 + 2 ^ 9
    | 4 => rD + rC + pD + pC + 63 * 2 ^ 40 + n + k + 2 ^ 14 + 2 ^ 13
    | 5 => rD + rS + rC + pD + pS + pC + sh + n + t + pT
    | 6 => cm + rD + rS + rC + pD + pC + sh + k + t + pT
    | 7 | 8 => rD + rS + rC + pD + pS + pC + n
    | 9 => rD + rS + rC + pD + pS + pC + n + t + u + pT + pU
    | 10 => rD + rS + pD + pS + n + t + pT + 0xC000
    | 11 => rD + rS + pD + pS + n + 0xC000
    | 12 => rS + rC + pS + pC + n + 3
    | 13 => rS + pS + n + 0x8000
    | 14 => 0xFFF
    | _ => 0

/-- Cause 1 of R327. -/
def stBadField (w : Nat) : Bool :=
  let shOk := decide (-8 ≤ stSH w ∧ stSH w ≤ 9)
  (w &&& stMask w ≠ w) ||
  match stOp w with
  | 1 => stKind w = 3 && (stValue w % 2 = 1 || decide (32768 < stValue w))
  | 2 | 3 => decide (stK w < stK1 w)
  | 4 => decide (stK w < stN w)
  | 5 => !shOk || decide (16 < stN w)
  | 6 => !shOk
  | 14 => stImm w % 256 = 0 || decide (9 < bitsOf (stImm w) 11 8)
  | _ => false

/-- Register knowledge of the check: not written, a known value, or carried inside its buffer. -/
inductive RegKnow where
  | unset
  | val (v : Nat)
  | carried
  deriving DecidableEq, Repr

/-- State of the check. -/
structure Chk where
  cyc : Nat
  a : List RegKnow
  m : List (Option Int)
  b : List (Option Nat)
  l : List (Option Nat)
  /-- Register results not yet readable: (kind × 8 + index, cycle). -/
  regReady : List (Nat × Nat)
  /-- Locations with results not yet readable: first address, end, cycle. -/
  memReady : List (Nat × Nat × Nat)
  /-- Flag bits not yet readable: mask, cycle. -/
  flReady : List (Nat × Nat)
  deriving DecidableEq, Repr

/-- Does the list load a register of a kind anywhere? -/
def loadsReg (ws : List U64) (kind k : Nat) : Bool :=
  ws.any (fun w => stOp w.toNat = 1 && stKind w.toNat = kind && stD w.toNat = k)

/-- Addresses an operand may touch: (address, size) of its elements, or the whole buffer of a carried pointer. With `back` the
elements of a `FIR`'s samples: from the one after the pointer downward (R310). -/
def opndLocs (s : Chk) (o : Opnd) (back : Bool) : List (Nat × Nat) :=
  let l := (s.l.getD o.reg none).getD 0
  let b := (s.b.getD o.reg none).getD 0
  match s.a.getD o.reg .unset with
  | .val v => (List.range o.count).map (fun i =>
      (wrapAddr v b l (if back then (o.size : Int) - ((i * o.size : Nat) : Int) else ((i * o.size : Nat) : Int)), o.size))
  | _ => [(b, l)]

/-- Is every location inside its window, aligned, and writable if written (cause 4)? -/
def locsOk (bank data : Nat) (o : Opnd) (ls : List (Nat × Nat)) : Bool :=
  ls.all (fun x =>
    let win := x.1 / 0x10000
    let lim := if win = 0 then bank else if win = 1 then 0x10000 + data else if win = 2 then 0x20200 else 0
    (x.1 % o.align = 0) && decide (x.1 + x.2 ≤ lim) && (!o.write || win = 1))

def overlaps (a b : Nat × Nat) : Bool := decide (a.1 < b.1 + b.2 ∧ b.1 < a.1 + a.2)

/-- Check one step: its cause, or the state after it. Where several causes hold, R327 does not say which is reported (log 156). -/
def chkStep (ws : List U64) (bank data m p : Nat) (s : Chk) (w : Nat) : Except Nat Chk :=
  if stBadField w then .error 1
  else if 256 < stCycles w then .error 7
  else
    let ready := (s.regReady.map (fun x => x.2)) ++ (s.memReady.map (fun x => x.2.2)) ++ (s.flReady.map (fun x => x.2))
    let c := if stWait w then ready.foldl max s.cyc else s.cyc
    let s := { s with cyc := c, regReady := s.regReady.filter (fun x => c < x.2)
                      memReady := s.memReady.filter (fun x => c < x.2.2), flReady := s.flReady.filter (fun x => c < x.2) }
    let ops := (stOpnds w p).filter (fun o => o.count ≠ 0)
    let posts := stPosts w
    let used := (ops.map (fun o => o.reg)) ++ posts
    let unset := used.any (fun k =>
      let bl (kind : Nat) (x : Option Nat) : Bool := x.isNone && loadsReg ws kind k
      (bl 3 (s.l.getD k none)) || ((s.l.getD k none).isSome && (s.l.getD k none) ≠ some 0 && (s.b.getD k none).isNone) ||
      (match s.a.getD k .unset with
       | .val _ => false
       | _ => !((s.l.getD k none).isSome && (s.l.getD k none) ≠ some 0 && (s.b.getD k none).isSome))) || posts.any (fun k => (s.m.getD k none).isNone)
    if unset then .error 3
    else if used.any (fun k => s.regReady.any (fun x => x.1 % 8 = k)) then .error 5
    else
      let isFir := stOp w = 6
      let locs := ops.map (fun o => (o, opndLocs s o (isFir && o.reg = stS w)))
      let firShort := isFir && decide ((s.l.getD (stS w) none).getD 0 < stK w * (if stCm w then 4 else 2))
      let bufBad := used.any (fun k =>
        let l := (s.l.getD k none).getD 0
        let b := (s.b.getD k none).getD 0
        decide (l ≠ 0 ∧ b / 0x10000 ≠ (b + l - 1) / 0x10000))
      if firShort || bufBad then .error 8
      else if locs.any (fun x => !locsOk bank data x.1 x.2) then .error 4
      else
        let hits (wr : Bool) : Bool := locs.any (fun x => x.1.write = wr &&
          x.2.any (fun y => s.memReady.any (fun z => overlaps y (z.1, z.2.1 - z.1))))
        if hits false then .error 5
        else if stOp w = 14 ∧ s.flReady.any (fun x => x.1 &&& (stImm w % 256) ≠ 0) then .error 5
        else if hits true then .error 6
        else if stOp w = 12 ∧ m < stImm w % 4 + stN w then .error 9
        else
          let lat := stLatency w
          let memW := (locs.filter (fun x => x.1.write)).flatMap (fun x => x.2.map (fun y => (y.1, y.1 + y.2, c + lat)))
          let s := { s with memReady := s.memReady ++ memW
                            flReady := if stFlags w = 0 then s.flReady else s.flReady ++ [(stFlags w, c + lat)]
                            cyc := c + stCycles w }
          let s := if isFir then
              { s with a := s.a.set (stS w) (match s.a.getD (stS w) .unset with
                  | .val v => .val (wrapAddr v ((s.b.getD (stS w) none).getD 0) ((s.l.getD (stS w) none).getD 0) (if stCm w then 4 else 2))
                  | x => if x = .unset then .carried else x) } else s
          let s := posts.foldl (fun s k =>
            { s with a := s.a.set k (match s.a.getD k .unset with
                | .val v => .val (wrapAddr v ((s.b.getD k none).getD 0) ((s.l.getD k none).getD 0) ((s.m.getD k none).getD 0))
                | _ => .carried)
                     regReady := s.regReady ++ [(k, c + 1)] }) s
          if stOp w = 1 then
            let k := stD w
            let v := stValue w
            let s := { s with regReady := s.regReady ++ [(8 * stKind w + k, c + 2)] }
            match stKind w with
            | 0 => .ok { s with a := s.a.set k (.val v) }
            | 1 => .ok { s with m := s.m.set k (some (asSigned 18 v)) }
            | kind =>
              let s := if kind = 2 then { s with b := s.b.set k (some v) } else { s with l := s.l.set k (some v) }
              let l := (s.l.getD k none).getD 0
              let b := (s.b.getD k none).getD 0
              match s.a.getD k .unset with
              | .val x =>
                let off := (x + two18 - b) % two18
                .ok (if l ≠ 0 ∧ l ≤ off then { s with a := s.a.set k (.val ((b + off % l) % two18)) } else s)
              | _ => .ok s
          else .ok s

def Chk.start : Chk :=
  ⟨0, List.replicate 8 .unset, List.replicate 8 none, List.replicate 8 none, List.replicate 8 none, [], [], []⟩

/-- Outcome of the check of one list: step index and cause, or the cycles of a run. -/
def chkGo (all : List U64) (bank data m p : Nat) : List U64 → Nat → Chk → Except (Nat × Nat) Nat
  | [], i, _ => .error (i, 2)
  | w :: ws, i, s =>
    match chkStep all bank data m p s w.toNat with
    | .error e => .error (i, e)
    | .ok s' =>
      if stOp w.toNat = 15 then (if ws = [] then .ok s'.cyc else .error (i, 2))
      else chkGo all bank data m p ws (i + 1) s'

def listCheck (ws : List U64) (bank data m p : Nat) : Except (Nat × Nat) Nat :=
  if 1024 < ws.length then .error (1024, 2) else chkGo ws bank data m p ws 0 Chk.start

end Sys2Proof.Machine
end

