-- ==== Sys2Proof/Machine/Loop.lean ====
section
/-! DEFINITION. Loop groups (chapter 09): coefficient banks, the computation of one section and one tick,
admission, following error, flags and trace records, as functions of one group. -/

namespace Sys2Proof.Machine

open Sys2Proof

/-! Create word and admission (R271, R272, R283). -/

/-- Dimensions from bits [21:5] of a create word. -/
def dimsOf (w : Nat) : SecDims :=
  ⟨bitsOf w 8 5 + 1, bitsOf w 10 9 + 1, bitsOf w 13 11 + 1, bitsOf w 18 14, bitsOf w 21 19⟩

def dimsRange (d : SecDims) : Bool := decide (d.nz ≤ 16 ∧ d.q ≤ d.m)

/-- The create word check of R271. -/
def lgrpCreateCheck (w : Nat) : Option Status :=
  if bitsOf w 31 23 ≠ 0 ∨ bitsOf w 4 3 = 3 then some .badParam
  else if 4 < bitsOf w 2 0 ∨ ¬ dimsRange (dimsOf w) then some .outOfRange
  else none

/-- Cycle cost of a section (R283). -/
def secCost (d : SecDims) : Nat :=
  64 + 3 * d.p + 3 * d.nz + (d.n + d.nz + 6) + 2 * d.m + (groupsOf 8 d.n * (d.n + d.m + d.p) + 6) + d.n + 4 * d.q
    + (if d.q = 0 then 0 else d.n + d.nz + 6)

/-- Rate of a class in ticks/s as a multiple of 1/64: the class 0 period is 16 µs. -/
def classRate (c : Nat) : Rat := 62500 / ((2 ^ c : Nat) : Rat)

/-- Load of a group from its section costs (R283). -/
def loadOf (cin cout cls div : Nat) : Rat :=
  (cin : Rat) * classRate cls + (if div = 0 then 0 else (cout : Rat) * classRate cls / (div : Rat))

/-- Budget of an engine, cycles/s. -/
def engineBudget : Rat := 360000000

/-! Coefficient blocks (R285, R286). -/

def pad8 (n : Nat) : Nat := (n + 7) / 8 * 8

/-- Bytes of a section body. -/
def bodyBytes (d : SecDims) : Nat :=
  let u := 2 * d.m * (d.n + d.nz)
  let x := 2 * d.n * (d.n + d.m + d.p)
  pad8 (u + x + (d.m + d.n + 1) / 2 * 2 + 4 * d.m + 8 * d.q)

/-- Bytes of a block. -/
def bankBytes (inner : SecDims) (outer : Option SecDims) : Nat :=
  32 + bodyBytes inner + (match outer with | some d => bodyBytes d | none => 0)

/-- Offsets inside a body. -/
def offX (d : SecDims) : Nat := 2 * d.m * (d.n + d.nz)
def offS (d : SecDims) : Nat := offX d + 2 * d.n * (d.n + d.m + d.p)
def offLim (d : SecDims) : Nat := offS d + (d.m + d.n + 1) / 2 * 2
def offInt (d : SecDims) : Nat := offLim d + 4 * d.m

/-- Coefficients of a body that starts at `o` in the block. -/
def coefU (b : List Byte) (o : Nat) (d : SecDims) (i j : Nat) : Int := rdI b (o + 2 * (i * (d.n + d.nz) + j)) 2
def coefX (b : List Byte) (o : Nat) (d : SecDims) (i j : Nat) : Int :=
  rdI b (o + offX d + 2 * (i * (d.n + d.m + d.p) + j)) 2
def rowShift (b : List Byte) (o : Nat) (d : SecDims) (i : Nat) : Int := rdI b (o + offS d + i) 1
def limLo (b : List Byte) (o : Nat) (d : SecDims) (j : Nat) : Int := rdI b (o + offLim d + 4 * j) 2
def limHi (b : List Byte) (o : Nat) (d : SecDims) (j : Nat) : Int := rdI b (o + offLim d + 4 * j + 2) 2
def intKi (b : List Byte) (o : Nat) (d : SecDims) (j : Nat) : Int := rdI b (o + offInt d + 8 * j) 2
def intShift (b : List Byte) (o : Nat) (d : SecDims) (j : Nat) : Int := rdI b (o + offInt d + 8 * j + 2) 1
def intSrc (b : List Byte) (o : Nat) (d : SecDims) (j : Nat) : Nat := rdU b (o + offInt d + 8 * j + 3) 1
def intLo (b : List Byte) (o : Nat) (d : SecDims) (j : Nat) : Int := rdI b (o + offInt d + 8 * j + 4) 2
def intHi (b : List Byte) (o : Nat) (d : SecDims) (j : Nat) : Int := rdI b (o + offInt d + 8 * j + 6) 2

/-- Are the shifts in range and the limits ordered? -/
def bodyOk (b : List Byte) (o : Nat) (d : SecDims) : Bool :=
  let sh (s : Int) : Bool := decide (-8 ≤ s ∧ s ≤ 9)
  (List.range (d.m + d.n)).all (fun i => sh (rowShift b o d i))
    && (List.range d.m).all (fun j => decide (limLo b o d j ≤ limHi b o d j))
    && (List.range d.q).all (fun j => sh (intShift b o d j) && decide (intLo b o d j ≤ intHi b o d j))

def dimsBytes (d : SecDims) : List Nat := [d.n, d.m, d.p, d.nz, d.q]

/-- The check of a block (R286, R287, R326): a cause, or none where it is valid. -/
def bankCheck (b : List Byte) (inner : SecDims) (outer : Option SecDims) (host : Bool) : Option Nat :=
  if rdU b 0 4 ≠ 0x4C424B31 ∨ rdU b 4 2 ≠ 1 then some 1
  else if (List.range 5).map (fun i => rdU b (8 + i) 1) ≠ dimsBytes inner
      ∨ (List.range 5).map (fun i => rdU b (16 + i) 1) ≠ (match outer with | some d => dimsBytes d | none => [0, 0, 0, 0, 0])
    then some 2
  else if (crc32 (b.drop 32)).toNat ≠ rdU b 28 4 then some 3
  else if host then none
  else if ¬ bodyOk b 32 inner then some 4
  else match outer with
    | some d => if bodyOk b (32 + bodyBytes inner) d then none else some 4
    | none => none

/-! One section (R275 … R280). -/

/-- What a section's run brings about: its signals, flags with the element concerned, output words. -/
structure SecOut where
  sec : LoopSec
  flags : List (Nat × Nat)
  outs : List (Nat × Int)
  deriving DecidableEq, Repr

/-- Scaling of R275 and R276. -/
def scaleIn (v gain : Int) (shift : Nat) : Int × Bool :=
  let x := divNearestEven (v * gain) (2 ^ shift)
  (satI 16 x, decide (satI 16 x ≠ x))

/-- Flags of a list of results: the bit with the index of the first element limited. -/
def firstFlag (bit : Nat) (l : List (Int × Bool)) : List (Nat × Nat) :=
  match l.findIdx? (fun x => x.2) with
  | some i => [(bit, i)]
  | none => []

/-- A row product (R279): the row result in Q1.31, and whether anything was limited. -/
def rowProduct (cs xs : List Int) (s : Int) : Int × Bool :=
  let (a, o) := accumulate 40 ((cs.zip xs).map (fun x => x.1 * x.2))
  let (v, t) := rowResult a s (-1) 32
  (v, o || t)

/-- Row j of the U-pass. -/
def uRow (b : List Byte) (o : Nat) (d : SecDims) (xz : List Int) (j : Nat) : Int × Bool :=
  rowProduct ((List.range (d.n + d.nz)).map (fun k => coefU b o d j k)) xz (rowShift b o d j)

/-- U-pass and limits: (v, u) with flags (R278 step 2). -/
def uPass (b : List Byte) (o : Nat) (s : LoopSec) (zs : List Int) : List Int × List Int × List (Nat × Nat) :=
  let d := s.dims
  let xz := s.xs.map round15 ++ zs
  let v := (List.range d.m).map (fun j =>
    let (r, t) := uRow b o d xz j
    let w := r + (if j < d.q then s.qs.getD j 0 else 0)
    (satI 32 w, t || decide (satI 32 w ≠ w)))
  let u := (v.zipIdx).map (fun x =>
    let c := clampI (limLo b o d x.2 * 65536) (limHi b o d x.2 * 65536) x.1.1
    (round15 c, decide (c ≠ x.1.1)))
  (v.map (fun x => x.1), u.map (fun x => x.1), firstFlag 6 v ++ firstFlag 2 u)

/-- Output words of a section (R277); `dst` gives the range of a destination, none for type 0. -/
def outWords (ps : Params) (base : Nat) (us : List Int) (dst : Nat → Option (Int × Int)) : List (Nat × Int × Bool) :=
  (us.zipIdx).filterMap (fun x =>
    match dst x.2 with
    | none => none
    | some (lo, hi) =>
      let (w, c) := outWord x.1 (ps.i Par.lgrpUGain (base + x.2)) (ps.i Par.lgrpUOffset (base + x.2)) lo hi
      some (x.2, w, c))

/-- The measured output an integrator names; one that the section does not have is open (log 156). -/
def isrcOf (s : LoopSec) (ys us : List Int) (i : Nat) : Int :=
  if i < s.dims.p then ys.getD i 0 else openSignal 16 3 ((i : Int) :: (s.xs ++ us ++ ys))

/-- One run of a generated section. `base` is 0 for the inner and 16 for the outer section, `o` the offset of its
body in the bank; `ds` (with a further shift each) and `zv` are the values latched at the gate. -/
def runSection (ps : Params) (base : Nat) (bank : List Byte) (o : Nat) (s : LoopSec) (ds : List (Int × Nat)) (zv : List Int)
    (dst : Nat → Option (Int × Int)) : SecOut :=
  let d := s.dims
  let ys := (ds.zipIdx).map (fun x => scaleIn x.1.1 (ps.i Par.lgrpYGain (base + x.2)) (ps.u Par.lgrpYShift (base + x.2) + x.1.2))
  let zs := (zv.zipIdx).map (fun x => scaleIn x.1 (ps.i Par.lgrpZGain (base + x.2)) (ps.u Par.lgrpZShift (base + x.2)))
  let y := ys.map (fun x => x.1)
  let z := zs.map (fun x => x.1)
  let (v, u, f1) := uPass bank o s z
  let ow := outWords ps base u dst
  let vec := s.xs.map round15 ++ u ++ y
  let dx := (List.range d.n).map (fun i =>
    rowProduct ((List.range (d.n + d.m + d.p)).map (fun k => coefX bank o d i k)) vec (rowShift bank o d (d.m + i)))
  let xs := (s.xs.zip dx).map (fun x => let w := x.1 + x.2.1; (satI 32 w, decide (satI 32 w ≠ w)))
  let qs := (List.range d.q).map (fun j =>
    let q := integOne (s.qs.getD j 0) (isrcOf s y u (intSrc bank o d j)) (intKi bank o d j) (intShift bank o d j)
      (u.getD j 0) (limLo bank o d j) (limHi bank o d j) (intLo bank o d j) (intHi bank o d j)
    (q, decide (q = intLo bank o d j * 65536 ∨ q = intHi bank o d j * 65536)))
  { sec := { s with xs := xs.map (fun x => x.1), qs := qs.map (fun x => x.1), us := u, ys := y, zs := z, vs := v }
    flags := firstFlag 0 ys ++ firstFlag 1 zs ++ f1 ++ firstFlag 3 xs ++ firstFlag 4 qs
      ++ firstFlag 6 dx ++ (match ow.find? (fun x => x.2.2) with | some x => [(7, x.1)] | none => [])
    outs := ow.map (fun x => (x.1, x.2.1)) }

/-- Integrators after a bank swap (R287), with the bits of those a limit moved. -/
def swapIntegrators (bumpless : Bool) (old new : List Byte) (o : Nat) (s : LoopSec) (zs : List Int) : List Int × Nat :=
  let d := s.dims
  let uOld := (uPass old o s zs).2.1
  let xz := s.xs.map round15 ++ zs
  let qs := (List.range d.q).map (fun j =>
    let q := if bumpless then satI 32 (uOld.getD j 0 * 65536 - (uRow new o d xz j).1) else s.qs.getD j 0
    let c := clampI (intLo new o d j * 65536) (intHi new o d j * 65536) q
    (c, decide (c ≠ q)))
  (qs.map (fun x => x.1), (qs.zipIdx).foldl (fun n x => if x.1.2 then n + 2 ^ x.2 else n) 0)

/-! Host lists (R326). -/

/-- The gate area of a section (R300): measured values in 2⁻¹⁶ count or their own unit, references, following errors in counts, whose
rounding to whole numbers R300 does not give (log 10). -/
def gateArea (ds : List (Int × Nat)) (zv fe : List Int) : List Byte :=
  let f (n : Nat) (l : List Int) : List Byte := ((List.range n).map (fun i => leInt 8 (l.getD i 0))).flatten
  fitBytes 256 (f 8 (ds.map (fun x => if x.2 = 0 then x.1 else divOpen 12 x.1 (2 ^ x.2))) ++ f 16 zv ++ f 4 (fe.map (fun e => divOpen 14 e oneCount)))

/-- A run of a host section: state after it, data area, `SAT_FLAGS` bits, output words, traced values. -/
def runHost (bank gate data : List Byte) (s : LoopSec) (dst : Nat → Option (Int × Int)) : EngRun :=
  engRun ⟨bank, gate, dst, s.dims.p⟩ s.steps ⟨s.ctx, data, [], [], [], 0, false⟩

/-! Life. -/

def LoopSec.create (d : SecDims) : LoopSec :=
  { dims := d, xs := List.replicate d.n 0, qs := List.replicate d.q 0, us := List.replicate d.m 0
    ys := List.replicate d.p 0, zs := List.replicate d.nz 0, vs := List.replicate d.m 0, ctx := EngCtx.zero, steps := [] }

/-- States, integrators and registers at enable (R274, R301). -/
def LoopSec.start (s : LoopSec) : LoopSec := { LoopSec.create s.dims with steps := s.steps }

def Lgrp.outerDims (g : Lgrp) : Option SecDims := g.outer.map (fun s => s.dims)

/-- Bytes of a block in force (R285, R326). -/
def Lgrp.bytes (ps : Params) (g : Lgrp) : Nat :=
  if ps.u Par.lgrpListMode = 1 then ps.u Par.lgrpHostBankBytes else bankBytes g.inner.dims g.outerDims

/-- Room in coefficient RAM a group takes: both banks, and the data area of a host list. -/
def Lgrp.cram (ps : Params) (g : Lgrp) : Nat := 2 * g.bytes ps + g.data.length

def Lgrp.create (w engine : Nat) : Lgrp :=
  let d := dimsOf w
  let outer : Option LoopSec := if bitOf w 22 then some (LoopSec.create (dimsOf 0)) else none
  let n := bankBytes d (outer.map (fun s => s.dims))
  { word := w, engine := engine, inner := LoopSec.create d, outer := outer, bankA := List.replicate n 0
    bankB := List.replicate n 0, active := 0, swapNow := false, data := [], listCheck := 0
    feCount := [0, 0, 0, 0], feHit := [false, false, false, false], feNow := [0, 0, 0, 0], satFlags := 0, satStart := 0, satNew := 0
    satWhere := (0, 0), satPost := none
    satCount := 0, gateTick := none, staged := [], settle := 0, dropAt := none, dropQuick := false, parkCount := 0
    startMax := 0 }

def Lgrp.bank (g : Lgrp) (i : Nat) : List Byte := if i = 0 then g.bankA else g.bankB

def Lgrp.bankCause (ps : Params) (g : Lgrp) (i : Nat) : Option Nat :=
  bankCheck (g.bank i) g.inner.dims g.outerDims (ps.u Par.lgrpListMode = 1)

/-- `LGRP_COEF_WRITE` (R295). -/
def Lgrp.coefWrite (g : Lgrp) (bank off : Nat) (data : List Byte) : Lgrp :=
  let put (b : List Byte) : List Byte := b.take off ++ data ++ b.drop (off + data.length)
  if bank = 0 then { g with bankA := put g.bankA } else { g with bankB := put g.bankB }

/-- Both banks anew at a size, and both invalid (R326). -/
def Lgrp.realloc (g : Lgrp) (n : Nat) : Lgrp :=
  { g with bankA := List.replicate n 0, bankB := List.replicate n 0 }

/-- Cost of the sections of a group: inner, outer. A host list that the check refuses, as before its enable, costs nothing yet
(R326, log 87). -/
def Lgrp.costs (ps : Params) (g : Lgrp) : Nat × Nat :=
  let host (s : LoopSec) : Nat :=
    match Sys2Proof.Machine.listCheck s.steps (g.bytes ps) (ps.u Par.lgrpDataBytes) s.dims.m s.dims.p with
    | .ok c => c + 24
    | .error _ => 0
  if ps.u Par.lgrpListMode = 1 then (host g.inner, match g.outer with | some s => host s | none => 0)
  else (secCost g.inner.dims, match g.outer with | some s => secCost s.dims | none => 0)

/-- Load of a group, cycles/s. -/
def Lgrp.load (ps : Params) (g : Lgrp) : Rat :=
  let (a, b) := g.costs ps
  loadOf a b (ps.u Par.lgrpRateClass) (if g.outer.isSome then ps.u Par.lgrpOuterDiv else 0)

/-! Supervision (R288, R290). -/

/-- Take flags of a run into `SAT_FLAGS`; the event comes at most once per ms (R288). -/
def Lgrp.addFlags (g : Lgrp) (t sec : Nat) (fl : List (Nat × Nat)) : Lgrp × List Ev :=
  let all := fl.foldl (fun n x => if bitOf n x.1 then n else n + 2 ^ x.1) 0
  let new := all &&& (0xFFFF ^^^ g.satFlags)
  let el := match fl.find? (fun x => bitOf new x.1) with | some x => x.2 | none => 0
  let g := { g with satFlags := g.satFlags ||| all, satNew := g.satNew ||| new, satWhere := if g.satNew = 0 then (sec, el) else g.satWhere }
  let due : Bool := match g.satPost with | none => true | some t0 => decide (t0 + 1000000 ≤ t)
  if g.satNew ≠ 0 ∧ due then
    ({ g with satNew := 0, satPost := some t }, [report Evt.saturation t (d16 g.satNew ++ d8 g.satWhere.1 ++ d8 g.satWhere.2)])
  else (g, [])

/-- One axis of the following-error check (R290): the counter, and whether it stands at its limit or above. -/
def feStep (limit time count : Nat) (e : Int) : Nat × Bool :=
  if limit = 0 then (0, false)
  else if limit * 2 ^ 32 < e.natAbs then
    let n := min 65535 (count + 1)
    (n, decide (time ≤ n))
  else (0, false)

/-- Counts of a position difference, rounded toward zero. -/
def countsTrunc (e : Int) : Int := e.tdiv oneCount

/-- `LGRP_RESET_STATE` (R295). -/
def Lgrp.resetState (g : Lgrp) (x q outer : Bool) : Lgrp :=
  let f (s : LoopSec) : LoopSec :=
    { s with xs := if x then s.xs.map (fun _ => 0) else s.xs, qs := if q then s.qs.map (fun _ => 0) else s.qs }
  { g with inner := f g.inner, outer := if outer then g.outer.map f else g.outer }

/-! Trace (R331). -/

/-- A selected value of a record (R331, R333); an element the group does not have is open (log 156). -/
def traceValue (g : Lgrp) (sel : Nat) : Int :=
  let kind := bitsOf sel 3 0
  let i := bitsOf sel 15 5
  let sec : Option LoopSec := if bitOf sel 4 then g.outer else some g.inner
  let vals : List Int := match kind, sec with
    | 7, _ => g.feNow.map (fun e => satI 32 (countsTrunc e))
    | _, none => []
    | 1, some s => s.ys
    | 2, some s => s.zs
    | 3, some s => s.us
    | 4, some s => s.xs
    | 5, some s => s.qs
    | 6, some s => s.vs
    | _, _ => []
  (vals[i]?).getD (openSignal 32 4 [(sel : Int), (g.satCount : Int)])

/-- Bytes of a record (R331). -/
def traceRecBytes (host : Bool) (ps : Params) : Nat :=
  let v := if host then 16 else ((List.range 16).filter (fun i => bitsOf (ps.u Par.traceSelect i) 3 0 ≠ 0)).length
  pad8 (16 + 4 * v)

/-- A record at tick `t`. -/
def traceRecord (size t idx eflags sat : Nat) (vs : List Int) : List Byte :=
  fitBytes size (d32 (t / 1000000000) ++ d32 (t % 1000000000) ++ d32 idx ++ d8 vs.length ++ d8 eflags ++ d16 sat
    ++ (vs.map di32).flatten)

def Trace.create : Trace :=
  { st := 0, addr := 0, bytes := 0, depth := 0, size := 0, writeIdx := 0, trigIdx := 0, runs := 0, postLeft := 0, trigSeen := false }

/-- `TRACE_ARM`. -/
def Trace.arm (x : Trace) : Trace :=
  { x with st := 1, writeIdx := 0, trigIdx := 0, runs := 0, postLeft := 0, trigSeen := false }

/-- Recording stops: `TRACE_STOPPED` (R335). -/
def Trace.halt (x : Trace) (t cause : Nat) : Trace × List Ev :=
  if x.st = 1 ∨ x.st = 2 then
    ({ x with st := 3 }, [report Evt.traceStopped t (d8 cause ++ List.replicate 3 0 ++ d32 x.writeIdx)])
  else (x, [])

/-- One run of the group: whether a record is written, the buffer after it, its events (R331). With `TRACE.DECIM` = n the n-th run
from the arm makes the first record (log 157). -/
def Trace.run (ps : Params) (x : Trace) (t newFlags : Nat) : Bool × Trace × List Ev :=
  if x.st ≠ 1 ∧ x.st ≠ 2 then (false, x, [])
  else
    let x1 := { x with runs := x.runs + 1 }
    let hit := x1.runs % max 1 (ps.u Par.traceDecim) = 0
    let trig := newFlags &&& ps.u Par.traceTrigFlags
    let fire := ps.u Par.traceMode = 2 ∧ x.st = 1 ∧ trig ≠ 0
    let (x2, e2) := if fire then
        ({ x1 with st := 2, trigIdx := x1.writeIdx, postLeft := ps.u Par.tracePost },
         [report Evt.traceTriggered t (d32 x1.writeIdx ++ d16 trig)])
      else (x1, [])
    if ¬ hit then
      if fire ∧ x2.postLeft = 0 then
        let (x3, e3) := x2.halt t 2
        (false, x3, e2 ++ e3)
      else (false, x2, e2)
    else
      let x3 := { x2 with writeIdx := (x2.writeIdx + 1) % 2 ^ 32 }
      if ps.u Par.traceMode = 1 ∧ x3.writeIdx = ps.u Par.traceDepth then
        let (x4, e4) := x3.halt t 1
        (true, x4, e2 ++ e4)
      else if x3.st = 2 ∧ ¬ fire then
        let x4 := { x3 with postLeft := x3.postLeft - 1 }
        if x4.postLeft = 0 then let (x5, e5) := x4.halt t 2; (true, x5, e2 ++ e5) else (true, x4, e2)
      else if x3.st = 2 ∧ x3.postLeft = 0 then
        let (x5, e5) := x3.halt t 2
        (true, x5, e2 ++ e5)
      else (true, x3, e2)

end Sys2Proof.Machine
end

