-- ==== Sys2Proof/Machine/MeridianTypes.lean ====
section
/-! DEFINITION. State of Meridian on one M die (chapter 16). Times called local are ns of the die's running time. -/

namespace Sys2Proof.Machine

open Sys2Proof

/-- A grandmaster key (R483), compared in the order of its parts. -/
structure GmKey where
  prio : Nat
  qual : Nat
  serial : Nat
  die : Nat
  deriving DecidableEq, Repr

/-- A time message (R485). `corr` is in 2⁻¹⁶ ns. -/
structure TimeMsg where
  mtype : Nat
  tseq : Nat
  originS : Nat
  originNs : Nat
  corr : Int
  gmNode : Nat
  key : GmKey
  hops : Nat
  heartbeat : Nat
  deriving DecidableEq, Repr

/-- Delay measurement of one port (R488). -/
structure PdLane where
  /-- The last delay samples since UP, newest first, twice each in 2⁻¹⁶ ns; at most 16. -/
  samples : List Int
  /-- The request outstanding: t1. -/
  req : Option Nat
  deriving DecidableEq, Repr

/-- The `TIME` object's own state. -/
structure Meridian where
  /-- `TIME.STATE` (R490). -/
  st : Nat
  isGm : Bool
  /-- The candidate (none: no die is one), its node, its heartbeat, when last seen, and the port it came by (none: own). -/
  cand : Option GmKey
  candNode : Nat
  heartbeat : Nat
  seenAt : Nat
  candPort : Option Nat
  /-- The grandmaster changed since the last accepted offset (cause of R500). -/
  gmFresh : Bool
  /-- Consecutive offsets inside and outside the window (R490). -/
  win : Nat
  out : Nat
  /-- Last offset, ps, and frequency correction, ppb, with the outputs of the last second: (local time, ppb), newest first. -/
  offset : Int
  freqAdj : Int
  hist : List (Nat × Int)
  lanes : List PdLane
  /-- `TSEQ` of the four types. -/
  tseq : List Nat
  hops : Nat
  /-- Local time of the last accepted `SYNC`. -/
  lastSync : Nat
  /-- Refused offset in ns and its number (R492). -/
  stepPending : Int
  stepId : Nat
  /-- Local time at which holdover or step refusal was entered. -/
  heldAt : Option Nat
  /-- Cause with which the present holdover was reported (R491, R500). -/
  holdCause : Nat
  /-- `TIME.PPS_IN_LAST`, and the local time of the last edge taken (R495). -/
  ppsLast : U64
  ppsAt : Option Nat
  /-- The die has read LOCKED under `PPS_IN` discipline as grandmaster, and has followed no other since (R483, R490). -/
  disciplined : Bool
  /-- Local time at which the present `PPS_OUT` pulse ends (R494). -/
  ppsUntil : Option Nat
  /-- Seconds to take at the next whole second (R499). -/
  setSecs : Option Nat
  /-- Local times of the last `ANNOUNCE`, `SYNC` and `PDELAY_REQ` sent. -/
  annAt : Nat
  syncAt : Nat
  pdelAt : Nat
  deriving DecidableEq, Repr

end Sys2Proof.Machine
end

