-- ==== Sys2Proof/Machine/Meridian.lean ====
section
/-! DEFINITION. Meridian network time (chapter 16): keys and messages, link delay, offsets, the states of the servo,
step refusal, PPS. A function that steps MTIME answers the step in ns. -/

namespace Sys2Proof.Machine

open Sys2Proof

def GmKey.lt (a b : GmKey) : Bool :=
  decide (a.prio < b.prio ∨ (a.prio = b.prio ∧ (a.qual < b.qual ∨ (a.qual = b.qual ∧
    (a.serial < b.serial ∨ (a.serial = b.serial ∧ a.die < b.die))))))

/-- Two keys of one die. -/
def GmKey.sameDie (a b : GmKey) : Bool := a.serial = b.serial && a.die = b.die

/-- The 48-byte payload of R485 and its reading. -/
def TimeMsg.encode (m : TimeMsg) : List Byte :=
  d8 m.mtype ++ d8 1 ++ d16 m.tseq ++ d64 m.originS ++ d32 m.originNs ++ di64 m.corr ++ d16 m.gmNode ++ d8 m.key.prio
    ++ d8 m.key.qual ++ d64 m.key.serial ++ d8 m.key.die ++ d8 m.hops ++ [0, 0] ++ d32 m.heartbeat ++ [0, 0, 0, 0]

def TimeMsg.decode (b : List Byte) : TimeMsg :=
  { mtype := rdU b 0 1, tseq := rdU b 2 2, originS := rdU b 4 8, originNs := rdU b 12 4, corr := rdI b 16 8
    gmNode := rdU b 24 2, key := ⟨rdU b 26 1, rdU b 27 1, rdU b 28 8, rdU b 36 1⟩, hops := rdU b 37 1
    heartbeat := rdU b 40 4 }

/-- Quality of the own key (R483, R490). -/
def Meridian.quality (m : Meridian) : Nat :=
  if m.isGm ∧ m.st = 2 then 0 else if m.disciplined then 1 else 2

/-! Link delay (R488). -/

/-- Parts of a nanosecond in which offsets are computed: every term of R487 and R488 is a whole number of them. -/
def timeUnit : Int := 32 * 65536 * 1000

/-- May `SYNC` use the port? An external lane needs its 16 samples; on-package ports are calibrated. -/
def Meridian.measured (m : Meridian) (port : Nat) : Bool :=
  decide (2 ≤ port) || decide (((m.lanes[port]?).map (fun l => l.samples.length)).getD 0 = 16)

/-- Mean delay of a port, in `timeUnit` parts. -/
def Meridian.meanDelay (m : Meridian) (port : Nat) : Int :=
  if 2 ≤ port then (Config.packageDelay port : Int) * (32 * 65536)
  else match m.lanes[port]? with
    | some l => if l.samples = [] then 0 else (l.samples.foldl (fun a b => a + b) 0) * (16 * 1000) / l.samples.length
    | none => 0

/-- Link delay in the receive direction, in `timeUnit` parts. -/
def Meridian.linkDelay (ps : Params) (m : Meridian) (port : Nat) : Int :=
  m.meanDelay port + ps.i Par.timeAsym port * (16 * 65536)

/-- `TIME.PEER_DELAY` of a port, ps. -/
def Meridian.peerDelay (m : Meridian) (port : Nat) : Nat :=
  if m.measured port then (divOpen 160 (m.meanDelay port) (32 * 65536)).toNat else 0

/-- Take a delay sample from an answer that arrived at t4 while a request is outstanding (R488). `TSEQ` counts per sender, so it
does not join an answer to a request (R485). -/
def Meridian.delaySample (m : Meridian) (port t4 : Nat) (msg : TimeMsg) : Meridian :=
  match m.lanes[port]? with
  | some l => match l.req with
    | some t1 =>
      let sample := ((t4 : Int) - t1) * 65536 - msg.corr
      { m with lanes := m.lanes.set port ⟨(sample :: l.samples).take 16, none⟩ }
    | none => m
  | none => m

/-- A port left UP: its samples no longer count. -/
def Meridian.laneDown (m : Meridian) (port : Nat) : Meridian :=
  { m with lanes := listMod m.lanes port (fun _ => ⟨[], none⟩) }

/-! Frequency correction (R490, R491). -/

/-- The servo's output after an offset: its rule is stated by bandwidth only, so the value is free within the slew limit. -/
def servoOut (ps : Params) (free : Nat) : Int :=
  let lim := 1000 * ps.u Par.timeSlewMax
  (Config.free free (2 * lim + 1) : Int) % (2 * lim + 1) - lim

def Meridian.servo (ps : Params) (m : Meridian) (free now : Nat) : Meridian :=
  let f := servoOut ps free
  { m with freqAdj := f, hist := (now, f) :: m.hist.takeWhile (fun x => decide (now < x.1 + 1000000000)) }

/-- Mean output of the last second: each output weighs as long as it was in force. -/
def meanOut (now : Nat) (cur : Int) : Nat → List (Nat × Int) → Int
  | _, [] => cur
  | upto, (t, f) :: r =>
    let start := max t (now - 1000000000)
    f * ((upto : Int) - start) + (if r = [] then 0 else meanOut now 0 t r)

def Meridian.meanServo (m : Meridian) (now : Nat) : Int :=
  match m.hist.getLast? with
  | none => m.freqAdj
  | some l =>
    let start := max l.1 (now - 1000000000)
    if start < now then divOpen 161 (meanOut now 0 now m.hist) ((now : Int) - start) else m.freqAdj

/-! States. -/

def evLocked (m : Meridian) (ns : Nat) (cleared : Bool) : Ev :=
  { code := Evt.timeLocked, data := di64 m.offset, ns := ns, cleared := cleared }

def evHoldover (ns cause : Nat) (cleared : Bool) : Ev :=
  { code := Evt.timeHoldover, data := d8 cause, ns := ns, cleared := cleared }

def evRefused (m : Meridian) (ns cause : Nat) (cleared : Bool) : Ev :=
  { code := Evt.timeJumpRefused, data := di64 m.stepPending ++ d16 m.stepId ++ d8 cause, ns := ns, fault := true, cleared := cleared }

def evStepped (ns : Nat) (step : Int) (cause : Nat) : Ev := report Evt.timeStepped ns (di64 step ++ d8 cause)

def evGm (m : Meridian) (ns : Nat) : Ev :=
  match m.cand with
  | some k => report Evt.gmChanged ns (d16 m.candNode ++ d8 k.prio ++ d8 k.qual ++ [0, 0, 0, 0] ++ d64 k.serial)
  | none => report Evt.gmChanged ns (d16 0xFFFF ++ List.replicate 14 0)

/-- Leave the present state for another (R490, R491): the events of leaving lock, holdover or refusal; entering
holdover or refusal keeps the mean output. `cause` is the cause of `TIME_HOLDOVER`. -/
def Meridian.enter (m : Meridian) (st cause ns now : Nat) : Meridian × List Ev :=
  if m.st = st then (m, [])
  else
    let held := decide (3 ≤ m.st)
    let left := (if m.st = 2 then [evLocked m ns true] else []) ++
      (if held then [evHoldover ns m.holdCause true] else [])
    let hold := decide (3 ≤ st)
    let m' := { m with st := st, win := 0, out := 0
                       freqAdj := if hold && !held then m.meanServo now else m.freqAdj
                       heldAt := if hold then (if held then m.heldAt else some now) else none
                       holdCause := if hold then cause else 0
                       stepPending := if st = 4 then m.stepPending else 0 }
    (m', left ++ (if st = 2 then [evLocked m' ns false] else []) ++ (if hold then [evHoldover ns cause false] else []))

/-- Count an offset against the window (R490). -/
def Meridian.window (m : Meridian) (inside : Bool) (ns now : Nat) : Meridian × List Ev :=
  let m := if inside then { m with win := min 16 (m.win + 1), out := 0 } else { m with win := 0, out := min 16 (m.out + 1) }
  if m.st = 1 ∧ m.win = 16 then m.enter 2 0 ns now
  else if m.st = 2 ∧ m.out = 16 then m.enter 1 0 ns now
  else (m, [])

/-- Take a measured offset, in parts of a nanosecond (`d` of them), into the servo and the states (R490 … R492). The
step answered is made by the die. -/
def Meridian.take (ps : Params) (m : Meridian) (num : Int) (d : Int) (pps : Bool) (ns now free : Nat) :
    Meridian × List Ev × Option Int :=
  let jump : Int := ps.u Par.timeJumpLimit
  let off := divOpen 162 num d
  let cause := if pps then 3 else if m.gmFresh then 2 else 1
  let m := { m with offset := divOpen 163 (num * 1000) d, gmFresh := false }
  if m.st = 0 then
    let (m, e) := m.enter 1 0 ns now
    (m, e ++ [evStepped ns (-off) 1], some (-off))
  else if jump * d < num.natAbs then
    if m.st = 4 ∧ ((off - m.stepPending).natAbs : Int) ≤ jump then ({ m with stepPending := off }, [], none)
    else
      let (m, e) := m.enter 4 3 ns now
      let m := { m with stepPending := off, stepId := (m.stepId + 1) % 65536 }
      (m, e ++ [evRefused m ns cause false], none)
  else
    let cleared := if m.st = 4 then [evRefused m ns cause true] else []
    let (m, e) := if 3 ≤ m.st then m.enter 1 0 ns now else (m, [])
    let m := m.servo ps free now
    let (m, e') := m.window (decide ((num.natAbs : Int) < (ps.u Par.timeLockWindow : Int) * d)) ns now
    (m, cleared ++ e ++ e', none)

/-- An accepted `SYNC` (R486, R487): the offset of its arrival. -/
def Meridian.sync (ps : Params) (m : Meridian) (port arr : Nat) (msg : TimeMsg) (tick now free : Nat) :
    Meridian × List Ev × Option Int :=
  let origin : Int := msg.originS * 1000000000 + msg.originNs
  let num := ((arr : Int) - origin) * timeUnit - msg.corr * 32000 - m.linkDelay ps port
  { m with lastSync := now, hops := min 255 (msg.hops + 1) }.take ps num timeUnit false tick now free

/-- The message as forwarded, residence in 2⁻¹⁶ ns (R486). -/
def Meridian.forward (ps : Params) (m : Meridian) (port : Nat) (msg : TimeMsg) (residence : Int) : TimeMsg :=
  { msg with corr := msg.corr + divOpen 164 (m.linkDelay ps port) 32000 + residence, hops := min 255 (msg.hops + 1) }

/-- No accepted `SYNC` for `TIME.SYNC_LOSS` intervals (R490). -/
def Meridian.syncLost (ps : Params) (m : Meridian) (now : Nat) : Bool :=
  (m.st = 1 || m.st = 2) && !m.isGm &&
    decide (m.lastSync + ps.u Par.timeSyncLoss * ps.u Par.timeSyncInterval * 1000 ≤ now)

/-! Grandmaster (R483, R484). -/

/-- The own key: none for priority 255. -/
def Meridian.ownKey (ps : Params) (m : Meridian) (serial die : Nat) : Option GmKey :=
  if ps.u Par.timeGmPrio = 255 then none else some ⟨ps.u Par.timeGmPrio, m.quality, serial, die⟩

/-- The die becomes grandmaster, without a step. -/
def Meridian.becomeGm (m : Meridian) (k : GmKey) (node ns now : Nat) : Meridian × List Ev :=
  let m := { m with isGm := true, cand := some k, candNode := node, candPort := none, seenAt := now, hops := 0, gmFresh := false }
  let (m, e) := m.enter 1 0 ns now
  (m, evGm m ns :: e)

/-- Another die's candidate, or none, is taken. -/
def Meridian.follow (m : Meridian) (k : Option GmKey) (node hb : Nat) (port : Option Nat) (ns now : Nat) : Meridian × List Ev :=
  let m := { m with isGm := false, cand := k, candNode := if k.isSome then node else 0xFFFF, heartbeat := hb, candPort := port
                    seenAt := now, gmFresh := true, lastSync := if m.isGm then now else m.lastSync
                    hops := if k.isSome then m.hops else 255, disciplined := m.disciplined && k.isNone }
  (m, [evGm m ns])

/-- An `ANNOUNCE` on a port (R467, R483). Answers whether it is news to pass on. -/
def Meridian.announce (ps : Params) (m : Meridian) (own : Option GmKey) (node port : Nat) (msg : TimeMsg) (ns now : Nat) :
    Meridian × List Ev × Bool :=
  if msg.key.prio = 255 ∨ (own.any (fun k => k.sameDie msg.key)) = true then (m, [], false)
  else match m.cand with
    | none =>
      let (m, e) := match own.filter (fun o => o.lt msg.key) with
        | some o => m.becomeGm o node ns now
        | none => m.follow (some msg.key) msg.gmNode msg.heartbeat (some port) ns now
      (m, e, true)
    | some k =>
      let newer := decide (0 < (msg.heartbeat + 2 ^ 32 - m.heartbeat) % 2 ^ 32 ∧ (msg.heartbeat + 2 ^ 32 - m.heartbeat) % 2 ^ 32 < 2 ^ 31)
      if k.sameDie msg.key ∧ m.candPort.isSome then
        if newer then
          match own with
          | some o => if o.lt msg.key then
              let (m, e) := m.becomeGm o node ns now
              (m, e, true)
            else ({ m with cand := some msg.key, candNode := msg.gmNode, heartbeat := msg.heartbeat, seenAt := now, candPort := some port }, [], true)
          | none => ({ m with cand := some msg.key, candNode := msg.gmNode, heartbeat := msg.heartbeat, seenAt := now, candPort := some port }, [], true)
        else (m, [], false)
      else if msg.key.lt k then
        let (m, e) := m.follow (some msg.key) msg.gmNode msg.heartbeat (some port) ns now
        (m, e, true)
      else (m, [], false)

/-- The candidate gave no new heartbeat for 4 ms (R483): the die's own key is next; without one the die holds over. -/
def Meridian.candStale (m : Meridian) (own : Option GmKey) (node ns now : Nat) : Meridian × List Ev :=
  match own with
  | some k => m.becomeGm k node ns now
  | none =>
    let (m, e) := m.follow none 0xFFFF m.heartbeat none ns now
    if m.st = 1 ∨ m.st = 2 then
      let (m, e') := m.enter 3 2 ns now
      (m, e ++ e')
    else (m, e)

/-- The message of a type this die sends (R485), with its own `TSEQ`. -/
def Meridian.compose (m : Meridian) (mtype : Nat) (originNs : Nat) (corr : Int) : Meridian × TimeMsg :=
  let s := m.tseq.getD (mtype - 1) 0
  ({ m with tseq := m.tseq.set (mtype - 1) ((s + 1) % 65536) },
   { mtype := mtype, tseq := s, originS := originNs / 1000000000, originNs := originNs % 1000000000, corr := corr
     gmNode := m.candNode, key := m.cand.getD ⟨255, 2, 0, 0⟩, hops := if mtype = 1 then m.hops else 0, heartbeat := m.heartbeat })

/-! PPS (R494 … R496). -/

/-- An edge of `PPS_IN` with `TIME.PPS_MODE` ≥ 1. -/
def Meridian.ppsEdge (ps : Params) (m : Meridian) (pin tick now free : Nat) : Meridian × List Ev × Option Int :=
  if (m.ppsAt.any (fun t => decide (now < t + 500000000))) = true ∨ ps.u Par.timePpsMode = 0 then (m, [], none)
  else
    let sec := pin / 1000000000
    let ns := pin % 1000000000
    let m := { m with ppsAt := some now, ppsLast := BitVec.ofNat 64 (sec % 2 ^ 32 * 2 ^ 32 + ns) }
    let e := pinEv Evt.ppsCaptured pin (d32 ns)
    if ps.u Par.timePpsMode = 2 ∧ m.isGm then
      let off : Int := if ns ≤ 500000000 then ns else (ns : Int) - 1000000000
      let (m, e', s) := m.take ps off 1 true tick now free
      ({ m with disciplined := m.disciplined || m.st == 2 }, e :: e', s)
    else (m, [e], none)

/-- No edge for 2 s under discipline (R490). -/
def Meridian.ppsSilent (ps : Params) (m : Meridian) (now : Nat) : Bool :=
  m.isGm && m.st = 2 && (ps.u Par.timePpsMode ≠ 2 || m.ppsAt.all (fun t => decide (t + 2000000000 ≤ now)))

/-- Level of `PPS_OUT`. -/
def Meridian.ppsOut (ps : Params) (m : Meridian) (now : Nat) : Bool :=
  ps.u Par.timePpsOutEn = 1 && m.ppsUntil.any (fun t => decide (now < t))

/-- MTIME passed a whole second at the local time given (R494). -/
def Meridian.second (ps : Params) (m : Meridian) (at_ : Nat) : Meridian :=
  { m with ppsUntil := if ps.u Par.timePpsOutEn = 1 then some (at_ + 1000 * ps.u Par.timePpsOutWidth) else none }

/-- `TIME_ACCEPT_STEP` may be accepted (R493). -/
def Meridian.stepOk (m : Meridian) (id : Nat) : Bool := m.st = 4 && m.stepId = id

/-- The accepted step (R493). -/
def Meridian.acceptStep (m : Meridian) (ns now : Nat) : Meridian × List Ev × Int :=
  let step := -m.stepPending
  let (m, e) := m.enter 1 0 ns now
  (m, evStepped ns step 2 :: e, step)

def Meridian.create : Meridian :=
  { st := 0, isGm := false, cand := none, candNode := 0xFFFF, heartbeat := 0, seenAt := 0, candPort := none, gmFresh := false
    win := 0, out := 0, offset := 0, freqAdj := 0, hist := [], lanes := List.replicate 4 ⟨[], none⟩, tseq := [0, 0, 0, 0]
    hops := 255, lastSync := 0, stepPending := 0, stepId := 0, heldAt := none, holdCause := 0, ppsLast := 0, ppsAt := none, disciplined := false
    ppsUntil := none, setSecs := none, annAt := 0, syncAt := 0, pdelAt := 0 }

end Sys2Proof.Machine
end

