-- ==== Sys2Proof/Machine/Mem.lean ====
section
/-! DEFINITION. Byte memories (SRAM, the ring window, Almanac slots, firmware banks): lists of (address, byte) pairs,
addresses strictly rising, no entry 0. An unlisted byte reads 0, the contents every reset or wipe leaves (R566). -/

namespace Sys2Proof.Machine

open Sys2Proof

/-- A memory. -/
abbrev Memory := List Host.Cell

/-- The canonical form. -/
def Memory.wf : Memory → Bool
  | [] => true
  | [c] => c.2 ≠ 0
  | c :: d :: t => c.2 ≠ 0 && decide (c.1 < d.1) && Memory.wf (d :: t)

/-- The byte at an address. -/
def Memory.read : Memory → Nat → Byte
  | [], _ => 0
  | c :: t, a => if c.1 = a then c.2 else Memory.read t a

/-- Write one byte. -/
def Memory.write : Memory → Nat → Byte → Memory
  | [], a, b => if b = 0 then [] else [(a, b)]
  | c :: t, a, b =>
    if a < c.1 then (if b = 0 then c :: t else (a, b) :: c :: t)
    else if c.1 = a then (if b = 0 then t else (a, b) :: t)
    else c :: Memory.write t a b

/-- `n` bytes from an address on. -/
def Memory.readN (m : Memory) (a n : Nat) : List Byte := (List.range n).map (fun i => m.read (a + i))

/-- Write a run of bytes. -/
def Memory.writeN (m : Memory) (a : Nat) : List Byte → Memory
  | [] => m
  | b :: r => Memory.writeN (m.write a b) (a + 1) r

end Sys2Proof.Machine
end

