-- ==== Sys2Proof/Machine/RetainTypes.lean ====
section
/-! DEFINITION. Memories and retained state of one M die (chapter 19): SRAM regions, Almanac slots, journal, firmware banks, life cycle. -/

namespace Sys2Proof.Machine

open Sys2Proof

/-- A journal record (R556); its CRC is implied. -/
structure JRec where
  rtype : Nat
  last : Bool
  tsCharge : Bool
  cls : Nat
  slot : Nat
  gen : Nat
  pid : Nat
  pidx : Nat
  client : Nat
  cword : Nat
  value : U64
  seq : Nat
  deriving DecidableEq, Repr

/-- The retained journal (R555 … R560). -/
structure Journal where
  /-- Code of `SYSTEM.JOURNAL_STATE`, and the refusal cause. -/
  st : Nat
  cause : Nat
  /-- The active half's header: boot slot, node base, first `JSEQ`, half sequence. -/
  slot : Nat
  base : Nat
  first : Nat
  half : Nat
  /-- Records in MRAM, in order. -/
  recs : List JRec
  /-- Commands whose records are not committed, in order: (ns at which they took effect, records). -/
  pend : List (Nat × List JRec)
  next : Nat
  /-- Last committed `JSEQ`. -/
  committed : Nat
  /-- The snapshot a compaction is writing, and the time by which it is done. -/
  snap : Option (Nat × List JRec)
  /-- Index of a record whose check fails (R545, R560). -/
  torn : Option Nat
  deriving DecidableEq, Repr

/-- An Almanac slot (R551 … R554): code of `PROF.STATE`, contents, and the words that hold an uncorrectable error. -/
structure ProfSlot where
  st : Nat
  data : Memory
  bad : List Nat
  deriving DecidableEq, Repr

/-- What a firmware bank holds (R563): nothing, the image the part was delivered with, or what the host wrote. -/
inductive FwImage where
  | none
  | delivered (cmdLevel fabLevel svn : Nat)
  | host (data : Memory)
  deriving DecidableEq, Repr

/-- A firmware bank: code of `SYSTEM.FW_STATE`, image, words that hold an uncorrectable error. -/
structure FwBank where
  st : Nat
  image : FwImage
  bad : List Nat
  deriving DecidableEq, Repr

/-- MRAM and what else survives a reset (R550, R579). -/
structure Mram where
  slots : List ProfSlot
  /-- `SYSTEM.NEXT_SLOT`, none = 0xFF. -/
  nextSlot : Option Nat
  journal : Journal
  banks : List FwBank
  fwNext : Nat
  fwFails : Nat
  fwMinSvn : Nat
  /-- Life-cycle state, intended state of a change in progress (R568), owner's public key, whether each copy of the record is
unreadable (R545, R585). -/
  lc : Nat
  lcIntent : Option Nat
  ownerKey : List Byte
  lcBad : List Bool
  resetCause : Nat
  resetCount : Nat
  deriving DecidableEq, Repr

/-- A region of the shared area held by an object (R547): address, bytes, slot, and whether it counts against the cam pool. -/
structure Alloc where
  addr : Nat
  len : Nat
  slot : Nat
  cam : Bool
  deriving DecidableEq, Repr

/-- Volatile memory state. -/
structure MemState where
  sram : Memory
  allocs : List Alloc
  /-- Claimed granules (R548). -/
  claimed : List Nat
  /-- Words holding an uncorrectable error not yet rewritten: memory index and byte address (R545). -/
  badWords : List (Nat × Nat)
  /-- Corrected errors since the last event, and its time, by memory (R545). -/
  ceSince : List Nat
  cePost : List (Option Nat)
  lastAddr : Nat
  /-- The open challenge and the time at which it ends (R568). -/
  challenge : Option (List Byte × Nat)
  /-- A life-cycle wipe is in progress, done by this time at the latest (R568). -/
  wiping : Option Nat
  deriving DecidableEq, Repr

end Sys2Proof.Machine
end

