-- ==== Sys2Proof/Machine/Retain.lean ====
section
/-! DEFINITION. Shared area, Almanac images, journal bookkeeping, firmware images (chapter 19). -/

namespace Sys2Proof.Machine

open Sys2Proof

/-! The shared area (R546 … R548). -/

def sharedBase : Nat := 0x400000
def granule : Nat := 0x10000
def camPool : Nat := 2097152
def tracePool : Nat := 1048576

/-- Does the granule hold any allocated byte? -/
def granuleUsed (as : List Alloc) (g : Nat) : Bool :=
  let lo := sharedBase + g * granule
  as.any (fun a => decide (a.addr < lo + granule ∧ lo < a.addr + a.len))

/-- First obstacle of a run: the end of an allocation or of a claimed granule that overlaps it. -/
def blockEnd (as : List Alloc) (claimed : List Nat) (a n : Nat) : Option Nat :=
  match as.find? (fun x => decide (x.addr < a + n ∧ a < x.addr + x.len)) with
  | some x => some (x.addr + x.len)
  | none => (claimed.find? (fun g => decide (sharedBase + g * granule < a + n ∧ a < sharedBase + (g + 1) * granule))).map
      (fun g => sharedBase + (g + 1) * granule)

/-- First fit in 64-byte units. -/
def firstFit (as : List Alloc) (claimed : List Nat) (n : Nat) : Nat → Nat → Option Nat
  | 0, _ => none
  | k + 1, a =>
    if 0x800000 < a + n then none
    else match blockEnd as claimed a n with
      | none => some a
      | some e => firstFit as claimed n k ((e + 63) / 64 * 64)

def poolUsed (as : List Alloc) (cam : Bool) : Nat := (as.filter (fun a => a.cam == cam)).foldl (fun s a => s + (a.len + 63) / 64 * 64) 0

/-- Allocate (R547): none is `NO_RESOURCE`. -/
def MemState.alloc (m : MemState) (len slot : Nat) (cam : Bool) : Option (MemState × Nat) :=
  let n := (len + 63) / 64 * 64
  if (if cam then camPool else tracePool) < poolUsed m.allocs cam + n then none
  else (firstFit m.allocs m.claimed n (m.allocs.length + 66) sharedBase).map
    (fun a => ({ m with allocs := ⟨a, len, slot, cam⟩ :: m.allocs }, a))

def MemState.release (m : MemState) (slot : Nat) : MemState := { m with allocs := m.allocs.filter (fun a => a.slot ≠ slot) }

/-- Longest free run of 64-byte units. -/
def largestFree (as : List Alloc) (claimed : List Nat) : Nat → Nat → Nat → Nat → Nat
  | 0, _, _, best => best
  | k + 1, a, run, best =>
    if 0x800000 ≤ a then max best run
    else match blockEnd as claimed a 64 with
      | none => largestFree as claimed k (a + 64) (run + 64) (max best (run + 64))
      | some e => largestFree as claimed k ((e + 63) / 64 * 64) 0 best

/-- `CAM.POOL_FREE` (R547). -/
def MemState.poolFree (m : MemState) : Nat :=
  min (camPool - poolUsed m.allocs true) (largestFree m.allocs m.claimed 65537 sharedBase 0 0)

/-- `SYSTEM.MEM_CLAIMED`. -/
def MemState.claimMask (m : MemState) : Nat := m.claimed.foldl (fun s g => s + 2 ^ g) 0

/-- `MEM_CLAIM` and `MEM_RELEASE` (R548). -/
def MemState.claim (m : MemState) (g : Nat) : Except Status MemState :=
  if g ∈ m.claimed then .ok m
  else if granuleUsed m.allocs g then .error .busy
  else .ok { m with claimed := g :: m.claimed }

def MemState.unclaim (m : MemState) (g : Nat) : MemState := { m with claimed := m.claimed.filter (fun x => x ≠ g) }

/-- Is the whole run in claimed granules? -/
def MemState.inClaimed (m : MemState) (a n : Nat) : Bool :=
  decide (sharedBase ≤ a ∧ a + n ≤ 0x800000) &&
    (n = 0 || (List.range ((a + n - 1 - sharedBase) / granule - (a - sharedBase) / granule + 1)).all
      (fun i => m.claimed.contains ((a - sharedBase) / granule + i)))

/-- Does a read of a memory meet a bad word (R545)? The first one. -/
def MemState.badIn (m : MemState) (mem a n : Nat) : Option Nat :=
  (m.badWords.find? (fun w => w.1 = mem && decide (a < w.2 + 8 ∧ w.2 < a + n))).map (fun w => w.2)

/-- A write mends the words it covers whole. -/
def MemState.write (m : MemState) (a : Nat) (b : List Byte) : MemState :=
  { m with sram := m.sram.writeN a b
           badWords := m.badWords.filter (fun w => !(w.1 = 0 && decide (a ≤ w.2 ∧ w.2 + 8 ≤ a + b.length))) }

/-- Unreadable words of an MRAM area that a write does not cover whole. -/
def stillBad (bad : List Nat) (a n : Nat) : List Nat := bad.filter (fun w => !decide (a ≤ w ∧ w + 8 ≤ a + n))

/-! Almanac images (R551 … R554). -/

structure AlmRec where
  pid : Nat
  ix : Nat
  slot : Nat
  res : Nat
  value : U64

def almRec (m : Memory) (i : Nat) : AlmRec :=
  let b := m.readN (64 + 16 * i) 16
  { pid := rdU b 0 2, ix := rdU b 2 2, slot := rdU b 4 2, res := rdU b 6 2, value := BitVec.ofNat 64 (rdU b 8 8) }

def almCount (m : Memory) : Nat := rdU (m.readN 8 4) 0 4
def almTag (m : Memory) : Nat := rdU (m.readN 12 4) 0 4

/-- Check of a record: cause 3 slot or ID, 4 Init, 5 value. -/
def almRecCheck (r : AlmRec) : Option Nat :=
  match fixedClass r.slot, paramRow? r.pid with
  | some c, some row =>
    if !row.ofClass c || r.res ≠ 0 then some 3
    else if row.init = .fixed then some 4
    else if !row.indexOk r.ix || !row.inRange r.value then some 5
    else none
  | _, _ => some 3

/-- Check of a slot's image (R552, R554): failing record (0xFFFF the header) and cause. -/
def almCheck (m : Memory) : Option (Nat × Nat) :=
  let h := m.readN 0 64
  let n := almCount m
  if rdU h 0 4 ≠ 0x414C4D31 ∨ rdU h 4 2 ≠ 1 ∨ rdU h 6 2 ≠ 0 ∨ 16380 < n ∨ (h.drop 16).take 44 ≠ List.replicate 44 0 then some (0xFFFF, 1)
  else if rdU h 60 4 ≠ crc32 (h.take 60 ++ m.readN 64 (16 * n)) then some (0xFFFF, 2)
  else (List.range n).findSome? (fun i => (almRecCheck (almRec m i)).map (fun c => (i, c)))

/-- Check of a slot: a header, or records, that cannot be read do not match (R545). -/
def ProfSlot.check (s : ProfSlot) : Option (Nat × Nat) :=
  if s.bad = [] then almCheck s.data else some (0xFFFF, if s.bad.any (fun a => decide (a < 64)) then 1 else 2)

/-- Values an image gives a fixed slot; a later record is in force over an earlier one. -/
def almParams (m : Memory) (slot : Nat) : Params :=
  (List.range (almCount m)).foldl (fun ps i =>
    let r := almRec m i
    if r.slot = slot then Params.set ps r.pid r.ix r.value else ps) []

/-! Journal (R555 … R560). -/

/-- Records that fit one half. -/
def halfCapacity : Nat := 8190

def jrec (rtype : Nat) : JRec :=
  { rtype := rtype, last := false, tsCharge := false, cls := 0, slot := 0, gen := 0, pid := 0, pidx := 0, client := 0, cword := 0, value := 0, seq := 0 }

/-- Number records and mark the last of a command. -/
def numbered (start : Nat) (rs : List JRec) : List JRec :=
  (rs.zipIdx).map (fun (x : JRec × Nat) => { x.1 with seq := (start + x.2) % 2 ^ 32, last := x.2 + 1 = rs.length })

/-- Number the records of a snapshot, which mark their groups themselves. -/
def renumbered (start : Nat) (rs : List JRec) : List JRec :=
  (rs.zipIdx).map (fun (x : JRec × Nat) => { x.1 with seq := (start + x.2) % 2 ^ 32 })

/-- A command took effect with these records (R555, R557). -/
def Journal.note (j : Journal) (ns : Nat) (rs : List JRec) : Journal :=
  if j.st ≠ 0 ∨ rs = [] then j
  else { j with pend := j.pend ++ [(ns, numbered j.next rs)], next := (j.next + rs.length) % 2 ^ 32 }

/-- The active half cannot take the next command's records. -/
def Journal.full (j : Journal) : Bool :=
  match j.pend with
  | p :: _ => decide (halfCapacity < j.recs.length + p.2.length)
  | [] => decide (halfCapacity ≤ j.recs.length)

/-- The records of the oldest waiting command are committed, unless a compaction is due or running (R557, R558). -/
def Journal.commit (j : Journal) : Journal :=
  match j.pend with
  | p :: r => if j.full || j.snap.isSome then j
      else { j with recs := j.recs ++ p.2, pend := r, committed := (p.2.getLast?.map (fun x => x.seq)).getD j.committed }
  | [] => j

/-- A snapshot does not fit: the journal is FULL (R558). -/
def Journal.fill (j : Journal) (snap : List JRec) (ns : Nat) : Journal × List Ev :=
  ({ j with st := 2, pend := [], snap := none }, [faultEv Evt.journalFull ns (d32 snap.length)])

/-- A compaction starts with a snapshot, to be done by a time; one that does not fit, with the records that wait to follow it, puts the
journal in FULL (R558). -/
def Journal.compact (j : Journal) (snap : List JRec) (ns done : Nat) : Journal × List Ev :=
  if halfCapacity < snap.length + (match j.pend with | p :: _ => p.2.length | [] => 0) then j.fill snap ns
  else ({ j with snap := some (done, snap) }, [])

/-- The snapshot and the new header are written: the other half is active, and waiting records follow the snapshot. -/
def Journal.compacted (j : Journal) : Journal :=
  match j.snap with
  | none => j
  | some (_, s) =>
    let start := match j.pend with
      | p :: _ => ((p.2.head?.map (fun x => x.seq)).getD j.next + 2 ^ 32 - s.length % 2 ^ 32) % 2 ^ 32
      | [] => j.next
    let rs := renumbered start s
    { j with recs := rs, snap := none, first := start, half := j.half + 1, torn := none
             next := if j.pend = [] then (j.next + s.length) % 2 ^ 32 else j.next
             committed := (rs.getLast?.map (fun x => x.seq)).getD j.committed }

/-- `JOURNAL_CLEAR` with a snapshot that fits (R572). -/
def Journal.clear (j : Journal) (snap : List JRec) (slot base : Nat) : Journal :=
  let rs := renumbered j.next snap
  { j with st := 0, cause := 0, slot := slot, base := base, first := j.next, half := j.half + 1, recs := rs, pend := [], snap := none
           torn := none, next := (j.next + rs.length) % 2 ^ 32, committed := (j.next + rs.length + 2 ^ 32 - 1) % 2 ^ 32 }

def Journal.used (j : Journal) : Nat := 64 + 32 * j.recs.length

/-- A record is torn; the first one counts. -/
def Journal.tear (j : Journal) (k : Nat) : Journal := { j with torn := some (match j.torn with | some t => min t k | none => k) }

/-- Power fails or a reset strikes: uncommitted records are lost whole, except that `written` of the oldest waiting command's
records have reached the half, the one after them torn (R557, R560). -/
def Journal.cut (j : Journal) (written : Nat) : Journal :=
  match j.pend with
  | p :: _ =>
    if written = 0 ∨ j.snap.isSome then { j with pend := [], snap := none }
    else { j with recs := j.recs ++ p.2.take (written + 1), pend := [], snap := none }.tear (j.recs.length + written)
  | [] => { j with pend := [], snap := none }

/-- The records replayed and what is discarded: (kept, first discarded `JSEQ`, how many) (R560). -/
def Journal.sound (j : Journal) : List JRec × Option (Nat × Nat) :=
  match j.torn with
  | none => (j.recs, none)
  | some t =>
    let good := j.recs.take t
    let kept := (good.reverse.dropWhile (fun r => !r.last)).reverse
    (kept, some ((((j.recs.drop kept.length).head?).map (fun r => r.seq)).getD 0, j.recs.length - kept.length))

/-- Records of a replay grouped by command. -/
def jGroups : List JRec → List JRec → List (List JRec)
  | acc, [] => if acc = [] then [] else [acc]
  | acc, r :: rs => if r.last then (acc ++ [r]) :: jGroups [] rs else jGroups (acc ++ [r]) rs

def Journal.empty : Journal :=
  { st := 0, cause := 0, slot := 0, base := 0xFFFF, first := 0, half := 0, recs := [], pend := [], next := 0, committed := 0
    snap := none, torn := none }

/-! Firmware images (R563, R564). -/

/-- The image's fields, for the checks. -/
def fwHeader (m : Memory) : List Byte := m.readN 0 256

def FwBank.svn (b : FwBank) : Nat :=
  match b.image with
  | .none => 0
  | .delivered _ _ v => v
  | .host m => rdU (fwHeader m) 12 4

def FwBank.cmdLevel (b : FwBank) : Nat :=
  match b.image with
  | .none => 0
  | .delivered c _ _ => c
  | .host m => rdU (fwHeader m) 6 1

def FwBank.fabLevel (b : FwBank) : Nat :=
  match b.image with
  | .none => 0
  | .delivered _ f _ => f
  | .host m => rdU (fwHeader m) 7 1

/-- Cause for which a bank fails (R564). The delivered image passes every check but that of the security version. -/
def fwCheck (b : FwBank) (lc minSvn : Nat) (ownerKey : List Byte) : Option Nat :=
  if b.bad ≠ [] then some 3
  else match b.image with
    | .none => some 1
    | .delivered _ _ v => if v < minSvn then some 6 else none
    | .host m =>
      let h := fwHeader m
      let len := rdU h 8 4
      if rdU h 0 4 ≠ 0x46574331 ∨ rdU h 4 2 ≠ 1 ∨ h.drop 176 ≠ List.replicate 80 0 then some 1
      else if 1048320 < len then some 2
      else if (h.drop 16).take 32 ≠ Config.sha256 (m.readN 256 len) then some 3
      else if !Config.ecdsaOk Config.rosdexKey (Config.sha256 (h.take 48)) ((h.drop 48).take 64) then some 4
      else if lc = 2 ∧ Config.ecdsaOk ownerKey (Config.sha256 (h.take 112)) ((h.drop 112).take 64) = false then some 5
      else if rdU h 12 4 < minSvn then some 6
      else none

/-! Life cycle (R567). -/

/-- Is the step allowed? -/
def lcStepOk (from_ next : Nat) : Bool := next = 4 || (next = from_ + 1 && decide (next ≤ 3))

/-- MRAM after the wipe of a life-cycle change (R566, R567). -/
def Mram.wiped (m : Mram) : Mram :=
  match m.lcIntent with
  | some t =>
    { m with slots := List.replicate 4 ⟨0, [], []⟩, lcBad := [false, false], journal := { Journal.empty with half := m.journal.half + 1 }
             nextSlot := none, lc := t, lcIntent := none }
  | none => m

end Sys2Proof.Machine
end

