-- ==== Sys2Proof/Machine/SafetyTypes.lean ====
section
/-! DEFINITION. State of the safety island (chapter 14). It counts its own time in safety ticks; nothing here
refers to the motion side (R419). -/

namespace Sys2Proof.Machine

open Sys2Proof

/-- One dual-channel input: input pairs 0 … 3, and the safe-link input (R427 … R430). -/
structure SafePair where
  /-- The two inputs as they count at the last tick: true = high. -/
  a : Bool
  b : Bool
  /-- Consecutive low reads of each input (R429). -/
  lowA : Nat
  lowB : Nat
  demand : Bool
  /-- Discrepancy counter (R430). -/
  disc : Nat
  /-- Fault code 1 … 4, 0 none; how far its way out has come: 0 both low awaited, 1 both high awaited, 2 done. -/
  fault : Nat
  heal : Nat
  demands : Nat
  /-- Per input: reads in the last windows of the own and the other supply (true = low), and the results of the last
  pulse of the own and of the other supply: 0 none, 2 `CROSS_SHORT`, 3 `TEST_PULSE_MISSING` (R428). -/
  ownA : Bool
  othA : Bool
  ownB : Bool
  othB : Bool
  resA : Nat
  resB : Nat
  resOthA : Nat
  resOthB : Nat
  deriving DecidableEq, Repr

/-- One function with its STO and SBC outputs and their EDM inputs (R431 … R438). -/
structure SafeFn where
  /-- Code of R431: 0 RUN, 1 SS1, 2 STO, 3 LOCKED. -/
  st : Nat
  /-- Safety ticks left of the SS1 time. -/
  ss1 : Nat
  /-- Fault that locked it, until it runs again. -/
  fault : Nat
  /-- `STO_READBACK` stands (R435). -/
  stoFault : Bool
  /-- A source demands; how often one has begun to. -/
  dem : Bool
  demands : Nat
  /-- Wires as read back: A, B. -/
  outA : Bool
  outB : Bool
  /-- Brake: fault code, coil current, ticks outside the window. -/
  brkFault : Nat
  brkMa : Nat
  brkBad : Nat
  /-- Island tick of the last recorded pass (R437), and the test is due. -/
  brkPass : Nat
  brkDue : Bool
  deriving DecidableEq, Repr

/-- A function at power-on (R433, R442): STO. -/
def SafeFn.create : SafeFn :=
  { st := 2, ss1 := 0, fault := 0, stoFault := false, dem := false, demands := 0, outA := false, outB := false
    brkFault := 0, brkMa := 0, brkBad := 0, brkPass := 0, brkDue := false }

/-- One `EDM` input (R438): level high = contactor open; tick at which its output last switched; it has followed. -/
structure SafeEdm where
  high : Bool
  since : Nat
  followed : Bool
  fault : Nat
  deriving DecidableEq, Repr

/-- An entry of the island's log (R444, R446). -/
structure SafeLog where
  index : Nat
  uptime : Nat
  code : Nat
  cls : Nat
  slot : Nat
  deriving DecidableEq, Repr

/-- A change the island reports (R447): source slot, event code, flags and data. -/
structure SafeNote where
  slot : Nat
  code : Nat
  fault : Bool
  cleared : Bool
  data : List Byte
  deriving DecidableEq, Repr

/-- The island. -/
structure Island where
  /-- `SAFE_24V` is high enough for the island to run (R441). -/
  powered : Bool
  /-- Code of `SAFE.STATE`: 0 STARTING, 1 OPERATE, 2 FAULT. -/
  state : Nat
  /-- Safety ticks since the island's start; `SAFE.UPTIME` reads the low 32 bits. -/
  tick : Nat
  codes : List Nat
  pairs : List SafePair
  link : SafePair
  fns : List SafeFn
  edms : List SafeEdm
  supplyMv : Nat
  /-- Ticks below 17.0 V; the functions are held off by the supply (R441). -/
  lowTicks : Nat
  supplyOff : Bool
  /-- A valid reset has been given since the last tick (R433). -/
  resetEdge : Bool
  /-- Safe-link out wires as read back. -/
  linkA : Bool
  linkB : Bool
  linkOutFault : Bool
  logCount : Nat
  log : List SafeLog
  /-- Changes since the last status frame (R444). -/
  notes : List SafeNote
  deriving DecidableEq, Repr

/-- A status frame as the M die holds it (R444): the island's state at the end of a tick, and one log entry. -/
structure SafeFrame where
  isl : Island
  entry : Option SafeLog
  deriving DecidableEq, Repr

end Sys2Proof.Machine
end

