-- ==== Sys2Proof/Machine/Safety.lean ====
section
/-! DEFINITION. The safety island (chapter 14): configuration, inputs, functions, outputs, faults, log. Every
function here takes and gives an `Island` alone, so nothing of the motion side can act on it (R419). -/

namespace Sys2Proof.Machine

open Sys2Proof

/-! Configuration (R424 … R426). -/

/-- The listed resistors, in ohms. -/
def safeResistors : List Nat :=
  [1000, 1500, 2210, 3160, 4640, 6810, 10000, 14700, 21500, 31600, 46400, 68100, 100000, 147000, 215000, 316000]

/-- The code of a resistance, none outside every ±4 % band (R424). -/
def safeCode (ohm : Nat) : Option Nat :=
  if ohm < 500 ∨ 600000 < ohm then none
  else safeResistors.findIdx? (fun r => decide (96 * r ≤ 100 * ohm ∧ 100 * ohm ≤ 104 * r))

def safeN (c : Nat) : Nat := [4, 8, 12, 16, 20, 30, 40, 60, 80, 100, 150, 200, 300, 400, 600, 1000].getD c 4
def safeSs1Ms (c : Nat) : Nat :=
  [20, 50, 100, 150, 200, 300, 400, 500, 750, 1000, 1500, 2000, 3000, 4000, 6000, 10000].getD c 20

def Island.code (i : Island) (n : Nat) : Nat := i.codes.getD n 0
/-- Discrepancy limit N in safety ticks. -/
def Island.limit (i : Island) : Nat := safeN (i.code 0)
/-- Mode of a pair: 0 unused, 1 contacts, 2 OSSD. -/
def Island.mode (i : Island) (k : Nat) : Nat := bitsOf (i.code (1 + k / 2)) (2 * (k % 2) + 1) (2 * (k % 2))
def Island.source (i : Island) (f k : Nat) : Bool := bitOf (i.code (3 + f)) k && i.mode k ≠ 0
def Island.option (i : Island) (f b : Nat) : Bool := bitOf (i.code (5 + f)) b
def Island.ss1Ticks (i : Island) (f : Nat) : Nat := 2 * safeSs1Ms (i.code (7 + f))
def Island.edmUsed (i : Island) (k : Nat) : Bool := bitOf (i.code 9) k
def Island.edmTicks (i : Island) : Nat := 2 * [50, 100, 200, 300].getD (bitsOf (i.code 10) 1 0) 50
/-- Holding-torque interval in seconds, none for off. -/
def Island.brkInterval (i : Island) : Option Nat := [none, some 28800, some 86400, some 604800].getD (bitsOf (i.code 10) 3 2) none
def Island.sbcUsed (i : Island) (f : Nat) : Bool := bitOf (i.code 11) f
def Island.sbcMin (i : Island) : Nat := [50, 100, 200, 400].getD (bitsOf (i.code 11) 3 2) 50

/-- The codes of a reading, where every ball has one and no pair mode is 3 (R425). -/
def readCodes (ohms : List Nat) : Option (List Nat) :=
  let cs := (List.range 12).map (fun n => safeCode (ohms.getD n 0))
  if cs.all (fun c => c.isSome) then
    let cs := cs.map (fun c => c.getD 0)
    let bad (c : Nat) : Bool := bitsOf c 1 0 = 3 || bitsOf c 3 2 = 3
    if bad (cs.getD 1 0) || bad (cs.getD 2 0) then none else some cs
  else none

/-! Outputs (R431 … R436). -/

def Island.fn (i : Island) (f : Nat) : SafeFn := i.fns.getD f SafeFn.create
/-- Are the STO wires of a function commanded on? -/
def Island.stoOn (i : Island) (f : Nat) : Bool := i.powered && i.state = 1 && decide ((i.fn f).st ≤ 1)
/-- Is a brake coil energised? -/
def Island.sbcOn (i : Island) (f : Nat) : Bool := i.stoOn f && i.sbcUsed f && (i.fn f).brkFault = 0
/-- `SS1_REQn` (R431, R440, R442). -/
def Island.ss1Req (i : Island) (f : Nat) : Bool := !(i.powered && i.state = 1 && (i.fn f).st = 0)
/-- Safe-link out wires commanded high (R432, R440): while every function that drives them runs; undriven they are low (log 130). -/
def Island.linkOn (i : Island) : Bool :=
  i.powered && i.state = 1 && (i.option 0 3 || i.option 1 3) && (List.range 2).all (fun f => !i.option f 3 || (i.fn f).st = 0)

/-! Log and reports (R440, R447). -/

/-- Enter the log; 64 entries are held. -/
def Island.logIt (i : Island) (code cls slot : Nat) : Island :=
  { i with log := (⟨i.logCount, i.tick % 2 ^ 32, code, cls, slot⟩ :: i.log).take 64, logCount := (i.logCount + 1) % 2 ^ 32 }

def Island.note (i : Island) (n : SafeNote) : Island := { i with notes := i.notes ++ [n] }

/-- `SAFE_FAULT` with its log entry. -/
def Island.faultNote (i : Island) (code cls slot : Nat) : Island :=
  (i.logIt code cls slot).note
    ⟨slot, Evt.safeFault, decide (1 ≤ cls), false, d8 code ++ d8 cls ++ [0, 0] ++ d32 i.tick⟩

/-- A reported fault is reset. -/
def Island.faultClear (i : Island) (code cls slot : Nat) : Island :=
  i.note ⟨slot, Evt.safeFault, true, true, d8 code ++ d8 cls ++ [0, 0] ++ d32 i.tick⟩

/-- A function changes its state: `SAFE_FN_STATE` with cause and source; its `EDM` inputs are timed anew when an
output switches. Entering RUN forgets the fault that locked it (R445). -/
def Island.setFn (i : Island) (f st cause src : Nat) : Island :=
  let x := i.fn f
  if x.st = st then i
  else
    let was := i.stoOn f
    let i' := { i with fns := i.fns.set f { x with st := st, ss1 := if st = 1 then i.ss1Ticks f else 0, fault := if st = 0 then 0 else x.fault } }
    let i' := if was = i'.stoOn f then i'
      else { i' with edms := (i'.edms.zipIdx).map (fun e =>
               if e.2 = f ∨ e.2 = 2 + f then { e.1 with since := i.tick, followed := false } else e.1) }
    i'.note ⟨93 + f, Evt.safeFnState, false, false, d8 x.st ++ d8 st ++ d8 cause ++ d8 src ++ d32 i.tick⟩

/-- A fault locks a function at once (R434). -/
def Island.lockFn (i : Island) (f code : Nat) : Island :=
  let x := i.fn f
  let i := { i with fns := i.fns.set f { x with fault := if x.fault = 0 then code else x.fault } }
  i.setFn f 3 2 0xFF

/-- A class 3 fault (R440): all outputs off, both functions LOCKED, island state FAULT. -/
def Island.class3 (i : Island) (code : Nat) : Island :=
  if i.state = 2 then i
  else
    let i := i.faultNote code 3 88
    { (i.lockFn 0 code).lockFn 1 code with state := 2 }

/-- A fault of an input pair, or of the safe-link input with k = 4 (R440). -/
def Island.pairFault (i : Island) (k code : Nat) : Island :=
  let p := if k = 4 then i.link else i.pairs.getD k i.link
  if p.fault ≠ 0 then i
  else
    let p := { p with fault := code, heal := 0 }
    let i := if k = 4 then { i with link := p } else { i with pairs := i.pairs.set k p }
    let i := i.faultNote code 1 (if k = 4 then 101 else 89 + k)
    (List.range 2).foldl (fun i f =>
      if (if k = 4 then i.option f 2 else i.source f k) then i.lockFn f code else i) i

/-! Inputs (R427 … R430). -/

/-- Two consecutive low reads outside the first `skip` reads. -/
def twoLow (skip : Nat) (reads : List Bool) : Bool :=
  let r := reads.drop skip
  (r.zip (r.drop 1)).any (fun x => !x.1 && !x.2)

/-- Consecutive low reads at the end, and the longest run reached, from a run already open. -/
def lowRun (run : Nat) : List Bool → Nat × Nat
  | [] => (run, run)
  | r :: rs =>
    let n := if r then 0 else run + 1
    let (e, m) := lowRun n rs
    (e, max n m)

/-- One pair at a tick. `mode` 1 judges contacts, 2 the OSSD rule (R429): sixteen reads make 1.0 ms. -/
def SafePair.read (p : SafePair) (mode : Nat) (skipA skipB : Nat) (ra rb : List Bool) : SafePair :=
  if mode = 0 then p
  else
    let (ea, ma) := lowRun p.lowA ra
    let (eb, mb) := lowRun p.lowB rb
    let la := if mode = 1 then twoLow skipA ra else decide (16 ≤ ma)
    let lb := if mode = 1 then twoLow skipB rb else decide (16 ≤ mb)
    let d := la || lb
    let heal := if p.fault = 0 then 0
      else if p.heal = 0 ∧ la ∧ lb then 1
      else if p.heal = 1 ∧ ¬ la ∧ ¬ lb then 2 else p.heal
    { p with a := !la, b := !lb, lowA := ea, lowB := eb, demand := d, heal := heal
             disc := if la = lb then 0 else min 1001 (p.disc + 1)
             demands := if d && !p.demand then (p.demands + 1) % 2 ^ 32 else p.demands }

def SafePair.level (p : SafePair) : Nat := (if p.a then 1 else 0) + (if p.b then 2 else 0) + (if p.demand then 4 else 0)

/-- Does a function's source demand now? Its number: pair 0 … 3, 4 the safe-link input. -/
def Island.demandSrc (i : Island) (f : Nat) : Option Nat :=
  match (List.range 4).find? (fun k => i.source f k && (i.pairs.getD k i.link).demand) with
  | some k => some k
  | none => if i.option f 2 && i.link.demand then some 4 else none

/-- Is a source of a function faulted? -/
def Island.srcFault (i : Island) (f : Nat) : Bool :=
  (List.range 4).any (fun k => i.source f k && (i.pairs.getD k i.link).fault ≠ 0) || (i.option f 2 && i.link.fault ≠ 0)

/-- Do the enabled `EDM` inputs of a function's outputs show the contactors open (R433)? -/
def Island.edmOpen (i : Island) (f : Nat) : Bool :=
  (List.range 4).all (fun k => !(k % 2 = f % 2 && i.edmUsed k) || (i.edms.getD k ⟨true, 0, true, 0⟩).high)

/-- EDM faults among a function's outputs. -/
def Island.edmFault (i : Island) (f : Nat) : Bool :=
  (List.range 4).any (fun k => k % 2 = f % 2 && (i.edms.getD k ⟨true, 0, true, 0⟩).fault ≠ 0)

/-- The conditions of a restart (R433): no source demands, no fault of a source or an output of the function is present,
and its contactors are open. -/
def Island.ready (i : Island) (f : Nat) : Bool :=
  !i.supplyOff && (i.demandSrc f).isNone && !i.srcFault f && !(i.fn f).stoFault && (i.fn f).brkFault = 0 && !i.edmFault f
    && !(i.linkOutFault && i.option f 3) && i.edmOpen f

/-- A valid reset removes the faults whose causes are gone (R440); where a demand meets it, the demand wins and the
reset does nothing (R434). `wireBad` and `linkBad` tell whether a wire is still wrong. -/
def Island.clearFaults (i : Island) (wireBad : Nat → Bool) (linkBad : Bool) : Island :=
  let calm (f : Nat) : Bool := (i.demandSrc f).isNone
  let heal (i : Island) (k : Nat) : Island :=
    let p := if k = 4 then i.link else i.pairs.getD k i.link
    if p.fault ≠ 0 ∧ p.heal = 2 ∧ ¬ p.demand then
      let i := i.faultClear p.fault 1 (if k = 4 then 101 else 89 + k)
      let p := { p with fault := 0, heal := 0, resA := 0, resB := 0, resOthA := 0, resOthB := 0 }
      if k = 4 then { i with link := p } else { i with pairs := i.pairs.set k p }
    else i
  let i := (List.range 5).foldl heal i
  let i := if i.linkOutFault ∧ ¬ linkBad ∧ (List.range 2).all (fun f => !i.option f 3 || calm f) then
      { i.faultClear 6 2 101 with linkOutFault := false } else i
  let edm (i : Island) (k : Nat) : Island :=
    let e := i.edms.getD k ⟨true, 0, true, 0⟩
    if e.fault ≠ 0 ∧ e.high ∧ calm (k % 2) then
      { i.faultClear e.fault 2 (97 + k) with edms := i.edms.set k { e with fault := 0 } } else i
  let i := (List.range 4).foldl edm i
  (List.range 2).foldl (fun i f =>
    let x := i.fn f
    let i := if x.brkFault ≠ 0 ∧ x.brkMa < 20 ∧ calm f then
        { i.faultClear x.brkFault 2 (95 + f) with fns := i.fns.set f { x with brkFault := 0 } } else i
    let x := i.fn f
    if x.stoFault ∧ ¬ wireBad f ∧ calm f then
      { i.faultClear 5 2 (93 + f) with fns := i.fns.set f { x with stoFault := false } }
    else i) i

/-- One function at a tick (R431 … R434); `reset` is a valid reset at this tick, which acts only on a function that
is ready. -/
def Island.fnStep (i : Island) (f : Nat) (reset : Bool) : Island :=
  let src := i.demandSrc f
  let x := i.fn f
  let i := { i with fns := i.fns.set f { x with dem := src.isSome
                                                demands := if src.isSome && !x.dem then (x.demands + 1) % 2 ^ 32 else x.demands
                                                ss1 := if x.st = 1 then x.ss1 - 1 else x.ss1 } }
  if x.st = 0 then
    match src with
    | some s => i.setFn f (if i.option f 0 then 1 else 2) 1 s
    | none => i
  else if x.st = 2 ∧ i.ready f ∧ (reset ∨ i.option f 1) then i.setFn f 0 (if i.option f 1 && !reset then 4 else 3) 0xFF
  else if x.st = 3 ∧ i.ready f ∧ reset then i.setFn f 0 3 0xFF
  else i

/-! Consequences that have a row of their own. Each is performed by the tick that brings it about, whose frame reports it (R444). -/

/-- A discrepancy counter has reached N (R430). -/
def Island.discrepancy (i : Island) (k : Nat) : Island :=
  let p := if k = 4 then i.link else i.pairs.getD k i.link
  if i.state = 1 ∧ k ≤ 4 ∧ i.limit ≤ p.disc then i.pairFault k (if k = 4 then 4 else 1) else i

/-- The SS1 time of a function has elapsed (R431). -/
def Island.ss1Elapsed (i : Island) (f : Nat) : Island :=
  let x := i.fn f
  if f < 2 ∧ x.st = 1 ∧ x.ss1 = 0 then i.setFn f 2 5 0xFF else i

/-- An `EDM` has not followed within the EDM time (R438). -/
def Island.edmExpiry (i : Island) (k : Nat) : Island :=
  let e := i.edms.getD k ⟨true, 0, true, 0⟩
  if i.state = 1 ∧ k < 4 ∧ i.edmUsed k ∧ ¬ e.followed ∧ e.fault = 0 ∧ e.since + i.edmTicks < i.tick then
    let i := { i with edms := i.edms.set k { e with fault := 9 } }
    (i.faultNote 9 2 (97 + k)).lockFn (k % 2) 9
  else i

/-- The supply has been below 17.0 V for two ticks (R441). -/
def Island.supplyLow (i : Island) : Island :=
  if i.state ≠ 0 ∧ 2 ≤ i.lowTicks ∧ ¬ i.supplyOff then
    let i := { (i.logIt 34 0 88) with supplyOff := true }
    let i := i.note ⟨88, Evt.safeFault, false, false, d8 34 ++ d8 0 ++ [0, 0] ++ d32 i.tick⟩
    (List.range 2).foldl (fun i f => if (i.fn f).st ≤ 1 then i.setFn f 2 6 0xFF else i) i
  else i

/-- The holding-torque interval of a brake has elapsed (R437). -/
def Island.brakeDue (i : Island) (f : Nat) : Island :=
  let x := i.fn f
  match i.brkInterval with
  | some s =>
    let age := (i.tick - x.brkPass) / 2000
    if i.state ≠ 0 ∧ f < 2 ∧ i.sbcUsed f ∧ ¬ x.brkDue ∧ s ≤ age then
      ({ i with fns := i.fns.set f { x with brkDue := true } }).note
        ⟨95 + f, Evt.brakeTestDue, false, false, d32 age⟩
    else i
  | none => i

/-- What the inputs of a tick bring about. -/
def Island.overdue (i : Island) : Island :=
  let i := (List.range 5).foldl (fun i k => i.discrepancy k) i
  let i := (List.range 4).foldl (fun i k => i.edmExpiry k) i
  let i := (List.range 2).foldl (fun i f => i.brakeDue f) i
  i.supplyLow

/-! The safety tick (R427). -/

/-- Is a supply's test pulse in this tick (R428)? A at multiples of 20 ms, B 10 ms later. -/
def tpPulse (tick : Nat) (b : Bool) : Bool := tick % 40 = (if b then 20 else 0)

/-- Reads of an STO or link wire outside its off-test pulse (R435). -/
def wireReads (tick : Nat) (b : Bool) (r : List Bool) : List Bool :=
  if tick % 2000 = (if b then 1000 else 0) then r.drop 5 else r

/-- Does a wire read back wrongly for its commanded level? A wire commanded off has no test pulse (R435). -/
def wireBad (tick : Nat) (b on : Bool) (r : List Bool) : Bool := (if on then wireReads tick b r else r).any (fun x => x != on)

/-- Inputs of a tick. -/
def Island.readInputs (i : Island) (r : SafeReads) : Island :=
  let rd (n : Nat) : List Bool := r.ins.getD n []
  let skip (b : Bool) : Nat := if tpPulse i.tick b then 4 else 0
  let step (i : Island) (k : Nat) : Island :=
    let old := if k = 4 then i.link else i.pairs.getD k i.link
    let mode := if k = 4 then (if i.option 0 2 || i.option 1 2 then 2 else 0) else i.mode k
    let p := old.read mode (skip false) (skip true) (rd (2 * k)) (rd (2 * k + 1))
    let i := if k = 4 then { i with link := p } else { i with pairs := i.pairs.set k p }
    if p.demand = old.demand then i
    else i.note ⟨if k = 4 then 101 else 89 + k, Evt.safeDemand, false, !p.demand, d8 p.level⟩
  (List.range 5).foldl step i

/-- What the island reads of its outputs and their feedback at a tick (R435, R436, R438). -/
def Island.readBack (i : Island) (r : SafeReads) : Island :=
  let last (b : Bool) (n : Nat) : Bool := (wireReads i.tick b (r.wires.getD n [])).getLastD false
  { i with fns := i.fns.zipIdx.map (fun x => { x.1 with outA := last false (2 * x.2), outB := last true (2 * x.2 + 1)
                                                        brkMa := min (r.brkMa.getD x.2 0) 2000 })
           linkA := last false 4, linkB := last true 5
           edms := i.edms.zipIdx.map (fun e => { e.1 with high := r.edm.getD e.2 false }) }

/-- `LINK_OUTPUT` (R435, R440). -/
def Island.linkFault (i : Island) : Island :=
  if i.linkOutFault then i
  else (List.range 2).foldl (fun i f => if i.option f 3 then i.lockFn f 6 else i) { i.faultNote 6 2 101 with linkOutFault := true }

/-- `STO_READBACK` of a function (R435, R440). -/
def Island.stoBad (i : Island) (f : Nat) : Island :=
  if (i.fn f).stoFault then i
  else ({ i.faultNote 5 2 (93 + f) with fns := i.fns.set f { i.fn f with stoFault := true } }).lockFn f 5

/-- A fault of a brake: 7 `SBC_CURRENT`, 8 `SBC_SWITCH` (R436, R440). -/
def Island.brkFault (i : Island) (f code : Nat) : Island :=
  ({ i.faultNote code 2 (95 + f) with fns := i.fns.set f { i.fn f with brkFault := code } }).lockFn f code

/-- Class 2 checks of a tick (R435, R436, R438), each against what was commanded during the tick. -/
def Island.checkOutputs (i : Island) (r : SafeReads) : Island :=
  let was := i
  let w (n : Nat) : List Bool := r.wires.getD n []
  let sto (i : Island) (f : Nat) : Island :=
    let on := was.stoOn f
    if wireBad i.tick false on (w (2 * f)) || wireBad i.tick true on (w (2 * f + 1)) then i.stoBad f else i
  let i := (List.range 2).foldl sto i
  let lon := was.linkOn
  let lbad := wireBad i.tick false lon (w 4) || wireBad i.tick true lon (w 5)
  let i := if (i.option 0 3 || i.option 1 3) && lbad then i.linkFault else i
  let brk (i : Island) (f : Nat) : Island :=
    let x := i.fn f
    let ma := r.brkMa.getD f 0
    let out := if was.sbcOn f then decide (ma < i.sbcMin ∨ 1200 < ma) else decide (20 ≤ ma)
    let n := if out ∧ i.sbcUsed f then min 5 (x.brkBad + 1) else 0
    let i := { i with fns := i.fns.set f { x with brkBad := n } }
    if 4 ≤ n ∧ x.brkFault = 0 then i.brkFault f 7 else i
  let i := (List.range 2).foldl brk i
  let edm (i : Island) (k : Nat) : Island :=
    let e := i.edms.getD k ⟨true, 0, true, 0⟩
    let off := !(if k < 2 then i.stoOn k else i.sbcOn (k - 2))
    let i := { i with edms := i.edms.set k { e with followed := e.followed || e.high == off } }
    if i.edmUsed k ∧ e.followed ∧ off ∧ ¬ e.high ∧ e.since + i.edmTicks < i.tick ∧ e.fault = 0 then
      ({ i with edms := i.edms.set k { e with fault := 10 } }.faultNote 10 2 (97 + k)).lockFn (k % 2) 10
    else i
  (List.range 4).foldl edm i

/-- A safety tick. An island in FAULT goes on reading and reporting its levels and acts on none (R440, R444). -/
def Island.step (i : Island) (r : SafeReads) : Island :=
  if ¬ i.powered then i
  else
    let i := { i with tick := i.tick + 1, supplyMv := min r.supplyMv 40000
                      lowTicks := if r.supplyMv < 17000 then min 3 (i.lowTicks + 1) else 0
                      supplyOff := i.supplyOff && decide (r.supplyMv ≤ 18000) }
    let i := (i.readInputs r).readBack r
    let i := if i.state ≠ 1 then i else if r.channelsDiffer then i.class3 18 else if 10 < r.oscDiff then i.class3 17
      else if 34000 < r.supplyMv ∨ r.railBad then i.class3 19 else i
    if i.state ≠ 1 then { i.overdue with resetEdge := false }
    else
      let i := (i.checkOutputs r).overdue
      let w (n : Nat) : List Bool := r.wires.getD n []
      let reset := i.resetEdge
      let bad (f : Nat) : Bool := wireBad i.tick false (i.stoOn f) (w (2 * f)) || wireBad i.tick true (i.stoOn f) (w (2 * f + 1))
      let i := if reset then i.clearFaults bad (wireBad i.tick false i.linkOn (w 4) || wireBad i.tick true i.linkOn (w 5)) else i
      let i := (i.fnStep 0 reset).fnStep 1 reset
      { (i.ss1Elapsed 0).ss1Elapsed 1 with resetEdge := false }

/-! Further steps. -/

/-- Judgement of one input (R428): low in the own supply's window, low in the other's. -/
def tpResult (own oth : Bool) : Nat := if own ∧ ¬ oth then 0 else if ¬ own ∧ oth then 2 else if own then 0 else 3

/-- Both inputs of a contact pair at a pulse of supply A or B (R428): `la`, `lb` tell which read low in the window. -/
def SafePair.judge (p : SafePair) (b la lb : Bool) : SafePair :=
  if b then { p with othA := la, ownB := lb, resOthA := tpResult p.ownA la, resB := tpResult lb p.othB }
  else { p with ownA := la, othB := lb, resA := tpResult la p.othA, resOthB := tpResult p.ownB lb }

/-- A fault result that two consecutive pulses of the supply gave, 0 none. -/
def SafePair.twice (old new : SafePair) (b : Bool) : Nat :=
  let same (x y : Nat) : Nat := if x = y then x else 0
  if b then max (same old.resOthA new.resOthA) (same old.resB new.resB)
  else max (same old.resA new.resA) (same old.resOthB new.resOthB)

/-- A test pulse of supply A or B: `low n` tells whether `SAFE_INn` read low in the window (R428). The way out of a
test-pulse fault begins only once the wiring judges healthy (R440). -/
def Island.testPulse (i : Island) (b : Bool) (low : List Bool) : Island :=
  if i.state ≠ 1 then i
  else
    let step (i : Island) (k : Nat) : Island :=
      if i.mode k ≠ 1 then i
      else
        let p := i.pairs.getD k i.link
        let q := p.judge b (low.getD (2 * k) false) (low.getD (2 * k + 1) false)
        let wrong := q.resA ≠ 0 ∨ q.resB ≠ 0 ∨ q.resOthA ≠ 0 ∨ q.resOthB ≠ 0
        let q := if 2 ≤ p.fault ∧ wrong then { q with heal := 0 } else q
        let i := { i with pairs := i.pairs.set k q }
        if p.twice q b = 0 then i else i.pairFault k (p.twice q b)
    (List.range 4).foldl step i

/-- `SAFE_RESET` falls after `us` µs high (R433): 100 ms … 3 s makes a valid reset. -/
def Island.resetFall (i : Island) (us : Nat) : Island :=
  if i.state ≠ 0 ∧ 100000 ≤ us ∧ us ≤ 3000000 then { i with resetEdge := true } else i

/-- `SAFE_RESET` has been high for longer than 3 s (R433): logged and reported, no fault. -/
def Island.resetStuck (i : Island) : Island :=
  if i.state = 0 then i
  else (i.logIt 32 0 88).note ⟨88, Evt.safeFault, false, false, d8 32 ++ d8 0 ++ [0, 0] ++ d32 i.tick⟩

/-- The off-test pulse of the A or B wires (R435): `high` holds what `STO0`, `STO1` and the safe-link out wire of
that channel read back during it. -/
def Island.stoPulse (i : Island) (high : List Bool) : Island :=
  if i.state ≠ 1 then i
  else
    let i := (List.range 2).foldl (fun i f =>
      if i.stoOn f ∧ high.getD f false then i.stoBad f else i) i
    if i.linkOn ∧ high.getD 2 false then i.linkFault else i

/-- The switch test of an energised brake (R436). -/
def Island.sbcTest (i : Island) (f : Nat) (passed : Bool) : Island :=
  if i.state = 1 ∧ f < 2 ∧ i.sbcOn f ∧ ¬ passed then i.brkFault f 8 else i

/-- A high on `BRK_PASSn` that lasted `ms` (R437). -/
def Island.brkPulse (i : Island) (f ms : Nat) : Island :=
  if i.state = 0 ∨ 2 ≤ f then i
  else if 100 ≤ ms ∧ ms ≤ 500 then
    let x := i.fn f
    let i' := { i with fns := i.fns.set f { x with brkPass := i.tick, brkDue := false } }
    if x.brkDue then i'.note ⟨95 + f, Evt.brakeTestDue, false, true, d32 0⟩ else i'
  else (i.logIt 33 0 (95 + f)).note ⟨95 + f, Evt.safeFault, false, false, d8 33 ++ d8 0 ++ [0, 0] ++ d32 i.tick⟩

/-- Both channels read the configuration balls again (R426). -/
def Island.reread (i : Island) (a b : List Nat) : Island :=
  if i.state ≠ 1 then i
  else match readCodes a, readCodes b with
    | some x, some y => if x = y ∧ x = i.codes then i else i.class3 16
    | _, _ => i.class3 16

def SafePair.create : SafePair :=
  { a := false, b := false, lowA := 0, lowB := 0, demand := false, disc := 0, fault := 0, heal := 0, demands := 0
    ownA := false, othA := false, ownB := false, othB := false, resA := 0, resB := 0, resOthA := 0, resOthB := 0 }

/-- The island without supply (R441, R442): no state survives. -/
def Island.off : Island :=
  { powered := false, state := 0, tick := 0, codes := List.replicate 12 0, pairs := List.replicate 4 SafePair.create
    link := SafePair.create, fns := List.replicate 2 SafeFn.create
    edms := List.replicate 4 ⟨true, 0, true, 0⟩, supplyMv := 0, lowTicks := 0, supplyOff := false, resetEdge := false
    linkA := false, linkB := false, linkOutFault := false, logCount := 0, log := [], notes := [] }

/-- Power-on of `SAFE_24V` (R442): STARTING, every output off, both request wires raised. -/
def Island.powerOn (i : Island) (mv : Nat) : Island :=
  if i.powered then i else { Island.off with powered := true, supplyMv := mv }

/-- The code of channel A's reading of ball `n`, as `SAFE.CFG_CODES` shows it: of a resistance that has none, any. -/
def shownCode (n ohm : Nat) : Nat := (safeCode ohm).getD ((Config.openSignal 20 [(n : Int), (ohm : Int)]).toNat % 16)

/-- The start completes (R442): the configuration read by both channels and the self-test's class 3 fault code, 0 none. -/
def Island.startDone (i : Island) (a b : List Nat) (test : Nat) : Island :=
  if ¬ i.powered ∨ i.state ≠ 0 then i
  else
    let cfg : Option (List Nat) := match readCodes a, readCodes b with
      | some x, some y => if x = y then some x else none
      | _, _ => none
    let i := { i with state := 1, codes := cfg.getD ((List.range 12).map (fun n => shownCode n (a.getD n 0))) }
    if cfg.isNone then i.class3 16
    else if 16 ≤ test ∧ test ≤ 19 then i.class3 test
    else i

/-- `SAFE_24V` falls below about 12 V (R441). -/
def Island.stop (_ : Island) : Island := Island.off

/-- The status frame at the end of a tick (R444): one log entry, taken round-robin; the reports it carries leave. -/
def Island.frame (i : Island) : SafeFrame :=
  let n := i.log.length
  ⟨i, if n = 0 then none else i.log[(i.tick % n)]?⟩

end Sys2Proof.Machine
end

