-- ==== Sys2Proof/Machine/State.lean ====
section
/-! DEFINITION. The state of one M die with its partner F die, and the queue of waiting commands. Everything but the
safety island lies in `MDie`; the island stands beside it, so that no function of `MDie` can change it (R419). -/

namespace Sys2Proof.Machine

open Sys2Proof

/-- The part of an object that belongs to its class. Ports, `TIME`, `FIO` and `SAFE` objects keep theirs in the die. -/
inductive ObjData where
  | system
  | time
  | prof (k : Nat)
  | port (k : Nat)
  | canc (c : Canc)
  | probe (k : Nat)
  | fio (k : Nat)
  | sdin (s : Sdin)
  | dlane (l : Lane)
  | safe (slot : Nat)
  | axis (a : Axis)
  | fbk (f : Fbk)
  | path (p : Path)
  | gear (g : Gear)
  | cam (c : Cam)
  | evt (c : Cmp)
  | capt (c : Capt)
  | lclk (l : Lclk)
  | lgrp (g : Lgrp)
  | trace (t : Trace)
  | pwmg (g : Pwmg)
  | dmac (d : Dmac)
  | canmb (m : Canmb)
  /-- A `QUEUE`: its key in the Ringmaster. -/
  | queue (key : Nat)
  deriving DecidableEq, Repr

/-- An object (R30, R33, R97): its create word (R90), life state, owner, client it is charged to, fault cause of the drain in progress (0 none),
client that started the drain, MTIME at which it started, parameters. -/
structure Obj where
  word : U32
  life : Life
  owner : U16
  charged : U16
  faultCause : Nat
  drainClient : U16
  drainAt : Nat
  params : Params
  data : ObjData
  deriving DecidableEq, Repr

/-- What a slot of the handle table holds (R22, R108). -/
inductive Occupant where
  | free
  /-- Taken by an accepted `OBJECT_CREATE` that has not taken effect; a fresh slot has never held an object (R29). -/
  | reserved (fresh : Bool)
  | obj (o : Obj)
  | task (t : TaskRec)
  deriving DecidableEq, Repr

/-- A slot that is fixed or has been used: its generation and occupant. -/
structure Slot where
  gen : Nat
  occ : Occupant
  deriving DecidableEq, Repr

/-- Boot and reset (R576 … R586). -/
structure Boot where
  /-- The die is held in reset; causes that have arisen since it entered reset. -/
  inReset : Bool
  causes : List Nat
  /-- Running time at which reset was released. -/
  released : Nat
  stage : Nat
  /-- The host queues are open: `READY` (R584). -/
  ready : Bool
  /-- `SYSTEM.BOOT_TIME`, µs. -/
  bootUs : Nat
  /-- Events that arose during boot, and how many were dropped (R584). -/
  events : List EvRec
  dropped : Nat
  /-- Running bank, and the bank that failed where this is a fallback (R565). -/
  bank : Nat
  fellFrom : Option Nat
  bootSlot : Nat
  profPins : Nat
  /-- Boot values of the fixed slots where the base image gives them (R551, R558). -/
  base : List (Nat × Params)
  /-- `RESET_N` high, and each logic supply above its threshold. -/
  resetN : Bool
  supplyOk : List Bool
  deriving DecidableEq, Repr

/-- A Loop Engine (R301, R330, R598, R599). -/
structure Engine where
  /-- The halt is in force; a halt or a resume is requested; running time at which it took effect. -/
  halted : Bool
  haltReq : Bool
  resumeReq : Bool
  since : Nat
  /-- Debug step: steps left, section, slot of the group. -/
  stepping : Option (Nat × Nat × Nat)
  /-- Context of the run bank; step index and group handle last run. What the park bank still holds between runs is not
  given: a read of it is free (R329, log 36). -/
  run : EngCtx
  step : Nat
  group : U32
  deriving DecidableEq, Repr

/-- The TAP (R596): instruction selected and boundary register. -/
structure Tap where
  ir : Nat
  boundary : List Bool
  deriving DecidableEq, Repr

/-- What the M die holds of the safety island (R444, R446). -/
structure SafeMirror where
  /-- Frames received and not yet taken into account, with the MTIME at which each left the island. -/
  queue : List (Nat × SafeFrame)
  /-- The last frame taken into account and the time at which it left; `SAFE.STATE` reads UNKNOWN; the loss has been reported. -/
  last : Option SafeFrame
  at_ : Nat
  unknown : Bool
  lost : Bool
  /-- The log as rebuilt, with the tick at which each entry came (R446). -/
  log : List (SafeLog × Nat)
  /-- Changes whose frame met a pair link that was down: the next frame brings them (R447). -/
  missed : List SafeNote
  deriving DecidableEq, Repr

/-- A ball of the die with a driven level. -/
inductive Ball where
  | cmpOut (n : Nat)
  | lclkOut (n : Nat)
  | ppsOut
  | ready
  | qspiIrqN
  | probe (n : Nat)
  deriving DecidableEq, Repr

/-- A probe ball: its level, and the running time of its last edge (R601). -/
structure ProbeBall where
  level : Bool
  edgeAt : Nat
  deriving DecidableEq, Repr

/-- What left the die during the last step. -/
inductive Output where
  /-- A reply record (R73) for a client and queue; `origin` at a remote node (R464). -/
  | reply (client : U16) (origin queue : Nat) (record : List Byte)
  /-- An event record (R77) for a ring. -/
  | event (client : U16) (ring : Nat) (record : List Byte)
  | hostWrite (port : HostPort) (addr : Nat) (bytes : List Byte)
  | hostRead (port : HostPort) (addr len : Nat)
  | msix (vector : Nat)
  | line (port : Nat) (o : PortOut)
  | laneFrame (lane : Nat) (bytes : List Byte)
  /-- An edge at a ball, with its pin time. -/
  | edge (b : Ball) (ns : Nat) (level : Bool)
  /-- `PWM_H` and `PWM_L` of a pair take these levels at a counter clock of 2.5 ns (R336, R338); none: high impedance. -/
  | gate (pair clock : Nat) (levels : Option (Bool × Bool))
  /-- The error answer to a bulk packet (R504), by node and transfer tag; its form on the wire is not given. -/
  | bulkError (node tag : Nat)
  /-- A completion or cancellation for a successor on another node, and its acknowledgement (R116); their form on the wire is not given. -/
  | taskDone (node : Nat) (succ : U32) (token : Nat) (cancel : Bool)
  | taskAck (node token : Nat)
  /-- A task on another die is called off, since its queue drains (R119); its form on the wire is not given. -/
  | taskDrop (node : Nat) (task : U32)
  /-- Bytes a QSPI transaction returned. -/
  | qspi (bytes : List Byte)
  /-- What the register that a TAP instruction selects holds: `IDCODE`, the bypass bit, or the boundary register. -/
  | tap (bits : List Bool)
  deriving DecidableEq, Repr

/-- The motion side: the M die, and the field I/O of its F die. -/
structure MDie where
  /-- MTIME (R41), and the die's running time in ns, which no step of MTIME changes. -/
  time : MTime
  upNs : Nat
  /-- Start of the last sample tick that has begun (R42). -/
  tick : Nat
  /-- Identity of the package and of the die (R13, R14). -/
  dieIndex : Nat
  nDies : Nat
  serial : U64
  slots : List (Nat × Slot)
  /-- Free slots that have been used, longest free first (R27). -/
  freed : List Nat
  rm : Ringmaster
  ports : List Port
  fab : Fab
  mer : Meridian
  dma : DmaEngine
  mem : MemState
  mram : Mram
  boot : Boot
  engines : List Engine
  tap : Tap
  /-- `CMP_OUT0` … `CMP_OUT7`, and the active levels of the Calliope outputs. -/
  cmpOut : List CmpBall
  lclkOut : List Bool
  /-- `PROBE0` … `PROBE7`, and the PWM carrier boundaries of the step, (pair, time), that they may show (R601). -/
  probes : List ProbeBall
  carrier : List (Nat × Nat)
  /-- The PWM pairs 0 … 11 (R336). -/
  gatePairs : List GatePair
  /-- Levels of `CAP_IN0` … `CAP_IN7`, the same behind the deglitch (R136, R252), and fault inputs held low past their filter (R349). -/
  capIn : List Bool
  capSeen : List Bool
  pwmFault : List Bool
  /-- Levels of the digital encoder inputs by source key, as last seen. -/
  encLevels : List (Nat × Nat)
  /-- Conversions of the sin/cos sources by channel since the snapshot of the tick, oldest first (R130). -/
  encTracks : List (Nat × List Track)
  /-- SS1 request wires as last seen (R184), as a mask; the masks they have had since, as the island drives them, with the MTIME of each
  change, newest first. -/
  ss1Seen : Nat
  ss1Wire : List (Nat × Nat)
  /-- Streams of source axes on other nodes, and records waiting for the next class 0 tick (R217). -/
  streams : List SrcStream
  streamIn : List StreamRec
  pairLink : Bool
  field : Field
  safe : SafeMirror
  /-- Other dies of the package that are at stage 5 (R581, R584), lead die only. -/
  diesUp : List Nat
  /-- Times of the last post of events with a rate limit, by key. -/
  posts : List (Nat × Nat)
  /-- Counter of free values drawn (the model's own, log 13). -/
  free : Nat
  /-- Events posted and not yet routed (the model's own). -/
  posted : List EvRec
  out : List Output
  deriving DecidableEq, Repr

/-- The machine. -/
structure State where
  md : MDie
  isl : Island
  /-- Commands waiting, first in first out. -/
  pending : List Instr
  deriving DecidableEq, Repr

/-- Reasons a step can stop with a fault: none. Every command has an effect or leaves the state as it is. -/
inductive Fault where
  /-- Never raised. Safe: it adds no behaviour. -/
  | none
  deriving DecidableEq, Repr

/-- Reasons a step can be refused. -/
inductive Refusal where
  /-- Raised by `exec` for a command that has no meaning yet. Safe. -/
  | notModelled (mnemonic : String)
  deriving DecidableEq, Repr

/-! The state after reset. -/

/-- A fixed object after reset (R26, R97): nobody's, charged to nobody, its events routed to the PCI Express host. -/
def fixedObj (life : Life) (d : ObjData) : Obj :=
  { word := 0, life := life, owner := 0xFFFF, charged := 0xFFFF, faultCause := 0, drainClient := 0xFFFF, drainAt := 0, params := [(paramKey Par.objectEvtRoute 0, 0x1000)], data := d }

/-- The object of a fixed slot (R25, R26). -/
def fixedSlot (n : Nat) : Option Obj :=
  match fixedClass n with
  | some .system => some (fixedObj .enabled .system)
  | some .time => some (fixedObj .enabled .time)
  | some .prof => some (fixedObj .disabled (.prof (n - 2)))
  | some .port =>
    let o := fixedObj .disabled (.port (n - 6))
    some (if n < 8 then o else { o with params := alSet o.params (paramKey Par.portCost 0) 1 })
  | some .canc => some (fixedObj .disabled (.canc Canc.create))
  | some .probe => some (fixedObj .disabled (.probe (n - 12)))
  | some .fio => some (fixedObj .disabled (.fio (n - 32)))
  | some .sdin => some (fixedObj .disabled (.sdin Sdin.create))
  | some .dlane => some (fixedObj .disabled (.dlane Lane.create))
  | some .safe => some (fixedObj .enabled (.safe n))
  | _ => none

/-- The fixed slots (R25). -/
def fixedSlots : List (Nat × Slot) :=
  (List.range 102).filterMap (fun n => (fixedSlot n).map (fun o => (n, ⟨0, .obj o⟩)))

def QueueRt.create : QueueRt :=
  { head := 0, tail := 0, rplHead := 0, rplTail := 0, fetched := 0, halted := false, partly := false, behind := false, flights := [], msgOut := false }

def EvRing.create : EvRing :=
  { base := 0, size := 0, head := 0, tail := 0, idxAddr := 0, lost := 0, lostPending := false, msgOut := false, vec := 0x80000000 }

/-- Host-window registers after reset (R592). MSI-X vectors are masked, as PCI Express defines the table (log 37). -/
def HostRegs.create : HostRegs :=
  { q0En := false, cmdBase := 0, cmdSize := 4096, rplBase := 0, rplSize := 32, idxAddr := 0, evr := List.replicate 8 EvRing.create
    vecRpl := List.replicate 8 0x80000000, msixTable := (List.range 512).map (fun i => if i % 16 = 12 then 1 else 0), pba := 0, err := false }

/-- The Ringmaster after reset: queue 0 of each host alone exists (R59, R60). -/
def Ringmaster.create : Ringmaster :=
  { queues := [(0, QueueRt.create), (8, QueueRt.create)], rrLast := 0, actions := [], nextSeq := 0, nextPid := 0, held := []
    nextReady := 0, stalled := none, ended := [], remote := [], nextToken := 0, syncs := [], taken := [], pcie := HostRegs.create, qspi := HostRegs.create
    perstN := true, dlUp := false }

def Engine.create : Engine :=
  { halted := false, haltReq := false, resumeReq := false, since := 0, stepping := none, run := EngCtx.zero
    step := 0, group := 0 }

/-- Memories after the wipe of reset (R566). -/
def MemState.create : MemState :=
  { sram := [], allocs := [], claimed := [], badWords := [], ceSince := [0, 0, 0, 0], cePost := [none, none, none, none], lastAddr := 0
    challenge := none, wiping := none }

/-- Non-volatile contents of a part in DEVELOP with a delivered image in bank A, nothing in its slots and an empty journal (log 20). -/
def Mram.create : Mram :=
  { slots := List.replicate 4 ⟨0, [], []⟩, nextSlot := none, journal := Journal.empty
    banks := [⟨2, .delivered 1 1 1, []⟩, ⟨0, .none, []⟩], fwNext := 0, fwFails := 0, fwMinSvn := 0, lc := 1, lcIntent := none
    ownerKey := List.replicate 64 0, lcBad := [false, false], resetCause := 1, resetCount := 0 }

/-- Boot state at the release of a power-on reset (R576, R583). -/
def Boot.create : Boot :=
  { inReset := false, causes := [], released := 0, stage := 0, ready := false, bootUs := 0, events := [], dropped := 0, bank := 0
    fellFrom := none, bootSlot := 0, profPins := 0, base := [], resetN := true, supplyOk := [true, true, true, true] }

def SafeMirror.create : SafeMirror := { queue := [], last := none, at_ := 0, unknown := true, lost := false, log := [], missed := [] }

/-- The lead die of a CH-2 at the release of a power-on reset (log 20). -/
def MDie.reset : MDie :=
  { time := ⟨0, 0⟩, upNs := 0, tick := 0, dieIndex := 0, nDies := 1, serial := 1, slots := fixedSlots, freed := [], rm := Ringmaster.create
    ports := List.replicate 4 Port.create, fab := Fab.create 1 ⟨128, 1, 0⟩ 0xFFFF, mer := Meridian.create, dma := ⟨none, [15, 15, 15, 15]⟩
    mem := MemState.create, mram := Mram.create, boot := Boot.create, engines := List.replicate 2 Engine.create
    tap := ⟨1, []⟩, cmpOut := List.replicate 8 CmpBall.create
    lclkOut := List.replicate 16 false, probes := List.replicate 8 ⟨false, 0⟩, carrier := []
    gatePairs := List.replicate 12 GatePair.create, capIn := List.replicate 8 false, capSeen := List.replicate 8 false, pwmFault := List.replicate 4 false, encLevels := [], encTracks := []
    ss1Seen := 0, ss1Wire := [(3, 0)], streams := [], streamIn := [], pairLink := false, field := Field.create, safe := SafeMirror.create, diesUp := []
    posts := [], free := 0, posted := [], out := [] }

/-- The machine right after reset. -/
def State.reset : State := { md := MDie.reset, isl := Island.off, pending := [] }

end Sys2Proof.Machine
end

