-- ==== Sys2Proof/Machine/Ops.lean ====
section
/-! DEFINITION. The named operations on the die every chapter uses: slots and objects (R22 … R31), rate classes (R45),
event posting (R77), free values, packets to the fabric (R462, R472), records to a host's memory (R63). -/

namespace Sys2Proof.Machine

open Sys2Proof

/-! Time. -/

/-- MTIME in whole ns. -/
def MDie.ns (d : MDie) : Nat := d.time.ns

/-- Start of the first base tick at or after a time, and of the one a time lies in (R41). -/
def baseCeil (t : Nat) : Nat := (t + 3) / 4 * 4
def baseFloor (t : Nat) : Nat := t / 4 * 4

/-- Let time pass until the first base tick at or after the given MTIME, if that lies ahead (R41). -/
def MDie.passTo (d : MDie) (t : Nat) : MDie :=
  let t := baseCeil t
  if d.time.ns < t then { d with time := ⟨t, 0⟩, upNs := d.upNs + (t - d.time.ns) } else d

/-- The levels of the SS1 request wires now. -/
def MDie.wires (d : MDie) : Nat := match d.ss1Wire with | x :: _ => x.1 | [] => 3

/-- One free value below a bound (log 13). -/
def MDie.draw (d : MDie) (bound : Nat) : MDie × Nat := ({ d with free := d.free + 1 }, Config.free d.free bound % (max bound 1))

/-! Slots and objects. -/

def MDie.slot? (d : MDie) (n : Nat) : Option Slot := alGet d.slots n

/-- The object in a slot. -/
def MDie.obj? (d : MDie) (n : Nat) : Option Obj :=
  match alGet d.slots n with
  | some ⟨_, .obj o⟩ => some o
  | _ => none

/-- Put an object in its slot, keeping the generation. -/
def MDie.setObj (d : MDie) (n : Nat) (o : Obj) : MDie :=
  match alGet d.slots n with
  | some s => { d with slots := alSet d.slots n { s with occ := .obj o } }
  | none => d

/-- Change the object in a slot. -/
def MDie.modObj (d : MDie) (n : Nat) (f : Obj → Obj) : MDie :=
  match d.obj? n with
  | some o => d.setObj n (f o)
  | none => d

/-- Change the class part of the object in a slot. -/
def MDie.setData (d : MDie) (n : Nat) (x : ObjData) : MDie := d.modObj n (fun o => { o with data := x })

/-- Every object with its slot, in slot order. -/
def MDie.objects (d : MDie) : List (Nat × Obj) :=
  d.slots.filterMap (fun (x : Nat × Slot) => match x.2.occ with
    | .obj o => some (x.1, o)
    | _ => none)

/-- The class of an object. -/
def ObjData.cls : ObjData → Class
  | .system => .system | .time => .time | .prof _ => .prof | .port _ => .port | .canc _ => .canc | .probe _ => .probe | .fio _ => .fio
  | .sdin _ => .sdin | .dlane _ => .dlane | .safe _ => .safe | .axis _ => .axis | .fbk _ => .fbk | .path _ => .path | .gear _ => .gear
  | .cam _ => .cam | .evt _ => .evt | .capt _ => .capt | .lclk _ => .lclk | .lgrp _ => .lgrp | .trace _ => .trace | .pwmg _ => .pwmg
  | .dmac _ => .dmac | .canmb _ => .canmb | .queue _ => .queue

def Obj.cls (o : Obj) : Class := o.data.cls

/-- The class of what a slot holds. -/
def Occupant.cls : Occupant → Option Class
  | .free => none
  | .reserved _ => none
  | .obj o => some o.cls
  | .task _ => some .task

/-- The handle of the occupant of a slot (R22). -/
def MDie.handle (d : MDie) (n : Nat) : U32 :=
  match alGet d.slots n with
  | some s => match s.occ.cls with
    | some c => mkHandle c.code d.fab.node s.gen n
    | none => 0
  | none => 0

/-- Does a handle name an object of this die? -/
def MDie.isOwn (d : MDie) (h : U32) : Bool := hNode h = d.fab.node % 4096

/-- The slot a handle of this die names, when the object there is the one named. -/
def MDie.find (d : MDie) (h : U32) : Option (Nat × Obj) :=
  if h = 0 ∨ d.isOwn h = false then none
  else match alGet d.slots (hSlot h) with
    | some ⟨g, .obj o⟩ => if g = hGen h ∧ o.cls.code = hClass h then some (hSlot h, o) else none
    | _ => none

/-- First never-used created slot at or after a number. -/
def neverUsed (slots : List (Nat × Slot)) : Nat → Nat → Option Nat
  | 0, _ => none
  | k + 1, n => if 4096 ≤ n then none else if (alGet slots n).isNone then some n else neverUsed slots k (n + 1)

/-- The slot the next creation takes (R27). -/
def MDie.nextSlot (d : MDie) : Option Nat :=
  match neverUsed d.slots 3840 256 with
  | some n => some n
  | none => d.freed.head?

/-- Put an occupant into a free slot. -/
def MDie.occupy (d : MDie) (n : Nat) (x : Occupant) : MDie :=
  let g := match alGet d.slots n with | some s => s.gen | none => 0
  { d with slots := alSet d.slots n ⟨g, x⟩, freed := d.freed.filter (fun m => m ≠ n) }

/-- Free a created slot: the generation advances and the slot joins the end of the free list (R28). -/
def MDie.vacate (d : MDie) (n : Nat) : MDie :=
  match alGet d.slots n with
  | some s => { d with slots := alSet d.slots n ⟨(s.gen + 1) % 8, .free⟩, freed := d.freed ++ [n] }
  | none => d

/-- Set a free slot aside for an accepted `OBJECT_CREATE` (R27). -/
def MDie.reserve (d : MDie) (n : Nat) : MDie := d.occupy n (.reserved (d.slot? n).isNone)

/-- The creation will not take place: the slot is what it was before, the first to be taken (log 139). -/
def MDie.unreserve (d : MDie) (n : Nat) : MDie :=
  match alGet d.slots n with
  | some ⟨_, .reserved true⟩ => { d with slots := d.slots.filter (fun x => x.1 ≠ n) }
  | some ⟨g, .reserved false⟩ => { d with slots := alSet d.slots n ⟨g, .free⟩, freed := n :: d.freed }
  | _ => d

/-- Free created slots (R99). -/
def MDie.freeSlots (d : MDie) : Nat :=
  3840 - (d.slots.filter (fun (x : Nat × Slot) => decide (256 ≤ x.1) && x.2.occ != .free)).length

/-- Created objects charged to a client (R99). -/
def MDie.useHandles (d : MDie) (c : U16) : Nat :=
  (d.objects.filter (fun (x : Nat × Obj) => decide (256 ≤ x.1) && x.2.charged == c)).length

/-- Parameters of the die's `SYSTEM` and `TIME` objects. -/
def MDie.sysPs (d : MDie) : Params := match d.obj? 0 with | some o => o.params | none => []
def MDie.timePs (d : MDie) : Params := match d.obj? 1 with | some o => o.params | none => []

/-- Quotas after boot, by client (R37, R96). -/
def quotaDefault (id client : Nat) : Nat :=
  let pick (a b c t : Nat) : Nat := if client = 0x1000 then a else if client = 0x1001 then b else if client = 0x1002 then t else c
  if id = Par.systemQuotaHandles then pick 3840 256 256 256
  else if id = Par.systemQuotaTasks then pick 1024 128 64 256
  else pick 256 256 64 256

/-- A quota in force (R37, R99). -/
def MDie.quota (d : MDie) (id client : Nat) : Nat :=
  match alGet d.sysPs (paramKey id client) with
  | some v => v.toNat
  | none => quotaDefault id client

/-- Set a parameter element of an object. -/
def MDie.setPar (d : MDie) (n id ix : Nat) (v : U64) : MDie := d.modObj n (fun o => { o with params := o.params.set id ix v })

/-- Add to a counting parameter of an object, wrapping at 32 bits. -/
def MDie.bump (d : MDie) (n id ix : Nat) (k : Nat) : MDie :=
  d.modObj n (fun o => { o with params := o.params.set id ix (BitVec.ofNat 64 ((o.params.u id ix + k) % 2 ^ 32)) })

/-! Rate classes (R45). -/

/-- Period of an object that has a class parameter of its own. -/
def Obj.ownPeriod (o : Obj) : Nat :=
  match o.data with
  | .axis _ => classPeriod (o.params.u Par.axisRateClass)
  | .path _ => classPeriod (o.params.u Par.pathRateClass)
  | .lgrp _ => classPeriod (o.params.u Par.lgrpRateClass)
  | _ => classPeriod 0

/-- Period of the object a handle names, class 0 where it names none here. A source on another node has that of its stream. -/
def MDie.periodOfHandle (d : MDie) (h : U32) : Nat :=
  match d.find h with
  | some (_, o) => o.ownPeriod
  | none => match d.streams.find? (fun s => s.src = h) with
    | some s => if s.per = 0 then classPeriod 0 else s.per
    | none => classPeriod 0

/-- Period of an object's rate class. A `CAM` has the class of the first link in slot order that names it, class 0 where none does
(R45 does not say which of several; DESIGN CHOICE, log 144). -/
def MDie.period (d : MDie) (n : Nat) : Nat :=
  match d.obj? n with
  | none => classPeriod 0
  | some o => match o.data with
    | .gear _ => d.periodOfHandle (o.params.h Par.gearSlave)
    | .evt _ => d.periodOfHandle (o.params.h Par.evtSource)
    | .lclk _ => d.periodOfHandle (o.params.h Par.lclkSource)
    | .cam _ =>
      match d.objects.find? (fun (x : Nat × Obj) => match x.2.data with
        | .gear _ => x.2.params.h Par.gearCam == d.handle n
        | _ => false) with
      | some g => d.periodOfHandle (g.2.params.h Par.gearSlave)
      | none => classPeriod 0
    | _ => o.ownPeriod

/-- Period of the class of a command's target, class 0 where it is none of this die's objects. -/
def MDie.periodOf (d : MDie) (h : U32) : Nat := match d.find h with | some (n, _) => d.period n | none => classPeriod 0

/-- Start of the present tick of an object's class. -/
def MDie.tickOf (d : MDie) (n : Nat) : Nat := d.ns / d.period n * d.period n

/-! Events (R77, R78). -/

/-- Post an event of the object in a slot. -/
def MDie.post (d : MDie) (n : Nat) (e : Ev) : MDie :=
  { d with posted := d.posted ++ [{ src := d.handle n, code := e.code, fault := e.fault, cleared := e.cleared, pinTime := e.pinTime
                                    ns := e.ns, data := e.data, ring := none }] }

def MDie.postAll (d : MDie) (n : Nat) (es : List Ev) : MDie := es.foldl (fun d e => d.post n e) d

/-- Post an event that goes to a given client and ring (R100, R121). -/
def MDie.postTo (d : MDie) (src : U32) (e : Ev) (client : U16) (ring : Nat) : MDie :=
  { d with posted := d.posted ++ [{ src := src, code := e.code, fault := e.fault, cleared := e.cleared, pinTime := e.pinTime
                                    ns := e.ns, data := e.data, ring := some (client, ring) }] }

def MDie.emit (d : MDie) (o : Output) : MDie := { d with out := d.out ++ [o] }

/-! Ports (R455, R472). -/

def MDie.portUp (d : MDie) (k : Nat) : Bool := ((d.ports[k]?).map (fun p => p.link)).getD 0 = 2

/-- Put a port's state and what it sends. -/
def MDie.putPort (d : MDie) (k : Nat) (p : Port) (os : List PortOut) : MDie :=
  { d with ports := d.ports.set k p, out := d.out ++ os.map (fun o => Output.line k o) }

/-- The DMA channel of a frame with `TS_REQ` that leaves its port learns the time of the first one (R454, R507). -/
def MDie.frameLeft (d : MDie) (m : FabMsg) : MDie :=
  if m.ptype = 12 ∧ bitOf m.pkt.flags 0 ∧ m.pkt.src = d.fab.node then
    { d with slots := d.slots.map (fun (x : Nat × Slot) => match x.2.occ with
      | .obj o => match o.data with
        | .dmac c => if c.chan = m.pkt.xaux.toNat ∧ c.sentAt = none
            then (x.1, { x.2 with occ := .obj { o with data := .dmac { c with sentAt := some d.ns } } }) else x
        | _ => x
      | _ => x) }
  else d

/-- Put a port with what it sends for the first time. -/
def MDie.putSent (d : MDie) (k : Nat) (p : Port) (os : List PortOut) : MDie :=
  os.foldl (fun (d : MDie) o => match o with | .frame _ m => d.frameLeft m | _ => d) (d.putPort k p os)

/-- A port as of now, with its bulk share (R459). -/
def MDie.port? (d : MDie) (k : Nat) : Option Port :=
  let share := match d.obj? (6 + k) with | some o => o.params.u Par.portBulkMin | none => 0
  (d.ports[k]?).map (fun p => p.clock share d.upNs)

/-- Queue a packet on a port. -/
def MDie.sendOn (d : MDie) (k : Nat) (m : FabMsg) : MDie :=
  match d.port? k with
  | some p => let (p, os) := p.enqueue m; d.putSent k p os
  | none => d

/-- Is the node a die of this package that the lead die knows to be in reset or booting (R581, R584)? -/
def MDie.dieAway (d : MDie) (node : Nat) : Bool :=
  d.dieIndex == 0 && d.fab.node != 0xFFFF && decide (d.fab.node < node ∧ node < d.fab.node + d.nDies) && !d.diesUp.contains (node - d.fab.node)

/-- Is a node reachable: this one, or one with an UP port on its route (R29, R472)? A die of the package in reset is not (R581). -/
def MDie.reachable (d : MDie) (node : Nat) : Bool :=
  node = d.fab.node % 4096 || ((d.fab.portFor d.portUp node).isSome && !d.dieAway node)

/-- Send a packet toward its destination; unsendable packets are lost here. -/
def MDie.send (d : MDie) (m : FabMsg) : MDie :=
  match d.fab.portFor d.portUp m.pkt.dst with
  | some k => d.sendOn k m
  | none => d

/-- A packet of this die. -/
def MDie.packet (d : MDie) (ptype dst xtag : Nat) (xaux : U32) (payload : List Byte) : FabMsg :=
  { ptype := ptype, pkt := { dst := dst, src := d.fab.node % 4096, level := 1, hops := 255, flags := 0, xtag := xtag, xaux := xaux, payload := payload } }

/-! Host memory (R61, R63, R65). -/

/-- Write to a client's memory: PCI Express writes leave the die, the QSPI rings lie in the SRAM window. -/
def MDie.hostWrite (d : MDie) (p : HostPort) (addr : Nat) (b : List Byte) : MDie :=
  match p with
  | .pcie => d.emit (.hostWrite .pcie addr b)
  | .qspi => { d with mem := d.mem.write (0x3F0000 + addr % 0x10000) b }

def hostOf (client : U16) : Option HostPort :=
  if client = clientPcie then some .pcie else if client = clientQspi then some .qspi else none

def clientOf : HostPort → U16
  | .pcie => clientPcie
  | .qspi => clientQspi

def hostIx : HostPort → Nat
  | .pcie => 0
  | .qspi => 1

def Ringmaster.regs (r : Ringmaster) : HostPort → HostRegs
  | .pcie => r.pcie
  | .qspi => r.qspi

def Ringmaster.setRegs (r : Ringmaster) (p : HostPort) (h : HostRegs) : Ringmaster :=
  match p with
  | .pcie => { r with pcie := h }
  | .qspi => { r with qspi := h }

/-- Key of a queue. -/
def queueKey (p : HostPort) (q : Nat) : Nat := 8 * hostIx p + q

/-- The `QUEUE` object of a key. -/
def MDie.queueObj (d : MDie) (key : Nat) : Option (Nat × Obj) :=
  d.objects.find? (fun (x : Nat × Obj) => match x.2.data with | .queue k => k == key | _ => false)

/-- Set-up of a queue: command ring base and size in bytes, reply ring base and records, write-back address (R61, R63). -/
structure QueueCfg where
  cmdBase : Nat
  cmdSize : Nat
  rplBase : Nat
  rplSize : Nat
  idxAddr : Nat
  /-- Its fetching is enabled. -/
  on : Bool

def MDie.queueCfg (d : MDie) (key : Nat) : Option QueueCfg :=
  if key % 8 = 0 then
    let r := d.rm.regs (if key = 0 then .pcie else .qspi)
    some ⟨r.cmdBase.toNat, r.cmdSize, r.rplBase.toNat, r.rplSize, r.idxAddr.toNat, r.q0En⟩
  else (d.queueObj key).map (fun x =>
    ⟨x.2.params.u Par.queueCmdBase, x.2.params.u Par.queueCmdSize, x.2.params.u Par.queueRplBase, x.2.params.u Par.queueRplSize,
     x.2.params.u Par.queueIdxAddr, x.2.life == .enabled⟩)

def MDie.queue? (d : MDie) (key : Nat) : Option QueueRt := alGet d.rm.queues key

def MDie.setQueue (d : MDie) (key : Nat) (q : QueueRt) : MDie := { d with rm := { d.rm with queues := alSet d.rm.queues key q } }

/-- Short stamp of a time (R50, R73). -/
def shortStamp (ns : Nat) : List Byte := d32 (ns / 1000000000 % 2 ^ 32) ++ d32 (ns % 1000000000)

/-- The MSI-X message of a ring (R80), or its pending bit where the vector is masked. Answers the mark. -/
def MDie.ringMessage (d : MDie) (p : HostPort) (vec : U32) (outstanding : Bool) : MDie × Bool :=
  if outstanding ∨ vec.getLsbD 31 = true then (d, outstanding)
  else match p with
    | .qspi => (d, true)
    | .pcie =>
      let v := vec.toNat % 32
      if bitOf (rdU d.rm.pcie.msixTable (16 * v + 12) 4) 0 then
        ({ d with rm := { d.rm with pcie := { d.rm.pcie with pba := d.rm.pcie.pba ||| BitVec.ofNat 32 (2 ^ v) } } }, true)
      else (d.emit (.msix v), true)

/-- The two index words of a queue after records were written (R63). -/
def MDie.queueIndex (d : MDie) (p : HostPort) (key : Nat) : MDie :=
  match d.queueCfg key, d.queue? key with
  | some c, some q => d.hostWrite p c.idxAddr (d32 q.head ++ d32 q.rplTail)
  | _, _ => d

/-- Write a reply record to a reply ring of this die's host (R63, R80). -/
def MDie.replyRecord (d : MDie) (p : HostPort) (key : Nat) (rec : List Byte) : MDie :=
  match d.queueCfg key, d.queue? key with
  | some c, some q =>
    let d := d.hostWrite p (c.rplBase + 32 * q.rplTail) rec
    let d := d.setQueue key { q with rplTail := (q.rplTail + 1) % c.rplSize }
    let d := d.queueIndex p key
    let (d, m) := d.ringMessage p ((d.rm.regs p).vecRpl.getD (key % 8) 0x80000000) q.msgOut
    match d.queue? key with
    | some q => d.setQueue key { q with msgOut := m }
    | none => d
  | _, _ => d

/-- Write an event record to a ring of this die's host (R79). Answers none for a ring that is not configured. The ring is full with one record
unused (DESIGN CHOICE, log 142). -/
def MDie.eventRecord (d : MDie) (p : HostPort) (ring : Nat) (rec : List Byte) : Option MDie :=
  let r := d.rm.regs p
  match r.evr[ring]? with
  | none => none
  | some e =>
    if e.size = 0 then none
    else if (e.tail + 1) % e.size = e.head then
      some { d with rm := d.rm.setRegs p { r with evr := r.evr.set ring { e with lost := e.lost + 1, lostPending := true } } }
    else
      let rec' := if e.lostPending then rec.take 6 ++ [(rec.getD 6 0) ||| 1] ++ rec.drop 7 else rec
      let d := d.hostWrite p (e.base.toNat + 32 * e.tail) rec'
      let e' := { e with tail := (e.tail + 1) % e.size, lostPending := false }
      let d := d.hostWrite p e.idxAddr.toNat (d32 e'.tail ++ d32 0)
      let (d, m) := d.ringMessage p e.vec e.msgOut
      let r := d.rm.regs p
      some { d with rm := d.rm.setRegs p { r with evr := r.evr.set ring { e' with msgOut := m } } }

end Sys2Proof.Machine
end

