-- ==== Sys2Proof/Machine/Reply.lean ====
section
/-! DEFINITION. Replies (R73 … R76), reservations of reply records (R64), cancelling accepted commands (R32, R53). -/

namespace Sys2Proof.Machine

open Sys2Proof

/-- No result. -/
def noResult : Result := ⟨0, 0⟩

/-- A reply record (R73). -/
def replyBytes (rt : ReplyTo) (st : Status) (res : Result) (ns : Nat) : List Byte :=
  d32 rt.seq.toNat ++ d16 rt.opcode.toNat ++ d16 st.code ++ d64 res.r0.toNat ++ shortStamp ns ++ d64 res.r1.toNat

/-- Is a record written for the status (R75, R76)? -/
def replyDue (rt : ReplyTo) (st : Status) : Bool := rt.ackReq || decide (0x10 ≤ st.code)

/-- Change the flight of a fetched packet; one with nothing left to do ends. -/
def MDie.modFlight (d : MDie) (rt : ReplyTo) (f : Flight → Flight) : MDie :=
  match rt.pid, hostOf rt.client with
  | some p, some h =>
    let key := queueKey h rt.queue
    match d.queue? key with
    | some q =>
      let fl := (q.flights.map (fun x => if x.pid = p then f x else x)).filter (fun x => x.stays)
      d.setQueue key { q with flights := fl }
    | none => d
  | _, _ => d

/-- The command has been refused, taken effect or ended (R64). -/
def MDie.release1 (d : MDie) (rt : ReplyTo) : MDie := d.modFlight rt (fun f => { f with settled := true, res1 := false })
/-- Its last reply has been written, or needs no record (R64). -/
def MDie.release2 (d : MDie) (rt : ReplyTo) : MDie := d.modFlight rt (fun f => { f with settled := true, res2 := false })
/-- Acceptance is known (R83). -/
def MDie.settled (d : MDie) (rt : ReplyTo) : MDie := d.modFlight rt (fun f => { f with settled := true })

/-- Write a reply (R73 … R76, R464): to the ring of a packet fetched here; from another die or to another node it goes as a packet to the
die that fetched the command, which knows of `ACK_REQ` and writes or drops it (log 39). -/
def MDie.reply (d : MDie) (rt : ReplyTo) (st : Status) (res : Result) (ns : Nat) : MDie :=
  let rec' := replyBytes rt st res ns
  let d := if replyDue rt st then d.emit (.reply rt.client rt.origin rt.queue rec') else d
  match hostOf rt.client with
  | some p =>
    if d.dieIndex ≠ 0 then d.send (d.packet 4 (d.fab.node - d.dieIndex) (rt.queue + 8 * rt.origin) 1 rec')
    else if replyDue rt st && rt.pid.isSome then d.replyRecord p (queueKey p rt.queue) rec'
    else d
  | none => d.send (d.packet 4 rt.client.toNat (rt.queue + 8 * rt.origin) 1 rec')

/-- Refuse a packet: the reply, and both reservations (R64, R72). -/
def MDie.refuse (d : MDie) (rt : ReplyTo) (st : Status) (res : Result) : MDie :=
  ((d.reply rt st res d.ns).release1 rt).release2 rt

/-- A `CAN_TX` that is gone before its tick gives its buffer back (R535). -/
def MDie.canTxGone (d : MDie) (a : Action) : MDie :=
  d.modObj (hSlot a.pkt.target) (fun o => match o.data with
    | .canc c => { o with data := .canc { c with bufs := c.bufs.map (fun b => if b.any (fun x => x.waits == some a.seq) then none else b) } }
    | _ => o)

/-- A command that is gone from the accepted ones ends `CANCELLED` (R53, R76). -/
def MDie.cancelled (d : MDie) (a : Action) : MDie :=
  let d := match a.newSlot with
    | some n => d.unreserve n
    | none => d
  let d := if a.op = .canTx then d.canTxGone a else d
  match a.task with
  | some n =>
    let d := if a.late then d.reply a.rt .cancelled noResult d.ns else d
    { d with rm := { d.rm with ended := d.rm.ended ++ [(n, 3, Status.cancelled.code)] } }
  | none => ((d.reply a.rt .cancelled noResult d.ns).release1 a.rt).release2 a.rt

/-- Take accepted commands out and cancel them. -/
def MDie.cancelActions (d : MDie) (p : Action → Bool) : MDie :=
  let gone := d.rm.actions.filter p
  let d := { d with rm := { d.rm with actions := d.rm.actions.filter (fun a => !p a) } }
  gone.foldl (fun d a => d.cancelled a) d

/-- The object in a slot enters DRAINING: stamped commands for it whose tick is not reached are cancelled (R32). -/
def MDie.cancelStamped (d : MDie) (n : Nat) : MDie :=
  d.cancelActions (fun a => a.stamped && decide (d.ns < a.effect) && hSlot a.pkt.target == n && d.isOwn a.pkt.target)

end Sys2Proof.Machine
end

