-- ==== Sys2Proof/Machine/Life.lean ====
section
/-! DEFINITION. Life states (R30 … R33): entering DRAINING and DISABLED, faults, and access to the class part of an object. -/

namespace Sys2Proof.Machine

open Sys2Proof

def MDie.setLife (d : MDie) (n : Nat) (l : Life) : MDie := d.modObj n (fun o => { o with life := l })

/-- Enter DRAINING with a fault cause (0: by command) and the client that sent the `OBJECT_DISABLE` (R31 … R33). -/
def MDie.toDraining (d : MDie) (n cause : Nat) (client : U16) : MDie :=
  (d.modObj n (fun o => { o with life := .draining, faultCause := cause, drainClient := client, drainAt := d.ns })).cancelStamped n

/-- The clean boundary is reached: DISABLED and `OBJECT_IDLE` (R31, R100). -/
def MDie.toIdle (d : MDie) (n t : Nat) : MDie :=
  match d.obj? n with
  | none => d
  | some o =>
    (d.setObj n { o with life := .disabled, faultCause := 0, drainClient := noClient }).post n
      { code := Evt.objectIdle, ns := t, fault := decide (o.faultCause ≠ 0), data := d16 o.faultCause ++ d16 o.drainClient.toNat }

/-- A fault of an object in ENABLED starts its drain; in DRAINING it only leaves its cause (R33), the first of several (R100 does not say
which; DESIGN CHOICE, log 142). Answers whether a drain starts. -/
def MDie.faultMark (d : MDie) (n cause : Nat) : MDie × Bool :=
  match d.obj? n with
  | none => (d, false)
  | some o => match o.life with
    | .enabled => (d.toDraining n cause noClient, true)
    | .draining => (d.setObj n { o with faultCause := if o.faultCause = 0 then cause else o.faultCause }, false)
    | _ => (d, false)

/-- A fault of a class whose drain needs nothing done at its start: its event, then the mark. -/
def MDie.faultPlain (d : MDie) (n : Nat) (e : Ev) : MDie := ((d.post n e).faultMark n e.code).1

/-- A fault of a class whose clean boundary is immediate. -/
def MDie.faultNow (d : MDie) (n : Nat) (e : Ev) (t : Nat) : MDie :=
  let (d, go) := (d.post n e).faultMark n e.code
  if go then d.toIdle n t else d

/-- Set bits of a flags parameter. -/
def MDie.orPar (d : MDie) (n id bits : Nat) : MDie :=
  if bits = 0 then d
  else d.modObj n (fun o => { o with params := o.params.set id 0 (o.params.get id ||| BitVec.ofNat 64 bits) })

/-- Is the object in a slot ENABLED? -/
def MDie.enabledAt (d : MDie) (n : Nat) : Bool := match d.obj? n with | some o => o.life == .enabled | none => false

/-- Slots of the objects of a class, in order. -/
def MDie.slotsOf (d : MDie) (c : Class) : List Nat := (d.objects.filter (fun (x : Nat × Obj) => x.2.cls == c)).map (fun (x : Nat × Obj) => x.1)

def MDie.axis? (d : MDie) (n : Nat) : Option (Obj × Axis) :=
  match d.obj? n with
  | some o => match o.data with | .axis a => some (o, a) | _ => none
  | none => none

def MDie.fbk? (d : MDie) (n : Nat) : Option (Obj × Fbk) :=
  match d.obj? n with
  | some o => match o.data with | .fbk a => some (o, a) | _ => none
  | none => none

def MDie.gear? (d : MDie) (n : Nat) : Option (Obj × Gear) :=
  match d.obj? n with
  | some o => match o.data with | .gear a => some (o, a) | _ => none
  | none => none

def MDie.path? (d : MDie) (n : Nat) : Option (Obj × Path) :=
  match d.obj? n with
  | some o => match o.data with | .path a => some (o, a) | _ => none
  | none => none

def MDie.evt? (d : MDie) (n : Nat) : Option (Obj × Cmp) :=
  match d.obj? n with
  | some o => match o.data with | .evt a => some (o, a) | _ => none
  | none => none

def MDie.capt? (d : MDie) (n : Nat) : Option (Obj × Capt) :=
  match d.obj? n with
  | some o => match o.data with | .capt a => some (o, a) | _ => none
  | none => none

def MDie.lclk? (d : MDie) (n : Nat) : Option (Obj × Lclk) :=
  match d.obj? n with
  | some o => match o.data with | .lclk a => some (o, a) | _ => none
  | none => none

def MDie.lgrp? (d : MDie) (n : Nat) : Option (Obj × Lgrp) :=
  match d.obj? n with
  | some o => match o.data with | .lgrp a => some (o, a) | _ => none
  | none => none

def MDie.pwmg? (d : MDie) (n : Nat) : Option (Obj × Pwmg) :=
  match d.obj? n with
  | some o => match o.data with | .pwmg a => some (o, a) | _ => none
  | none => none

def MDie.sdin? (d : MDie) (n : Nat) : Option (Obj × Sdin) :=
  match d.obj? n with
  | some o => match o.data with | .sdin a => some (o, a) | _ => none
  | none => none

def MDie.lane? (d : MDie) (n : Nat) : Option (Obj × Lane) :=
  match d.obj? n with
  | some o => match o.data with | .dlane a => some (o, a) | _ => none
  | none => none

def MDie.trace? (d : MDie) (n : Nat) : Option (Obj × Trace) :=
  match d.obj? n with
  | some o => match o.data with | .trace a => some (o, a) | _ => none
  | none => none

def MDie.dmac? (d : MDie) (n : Nat) : Option (Obj × Dmac) :=
  match d.obj? n with
  | some o => match o.data with | .dmac a => some (o, a) | _ => none
  | none => none

def MDie.canc? (d : MDie) (n : Nat) : Option (Obj × Canc) :=
  match d.obj? n with
  | some o => match o.data with | .canc a => some (o, a) | _ => none
  | none => none

end Sys2Proof.Machine
end

