-- ==== Sys2Proof/Machine/Motion.lean ====
section
/-! DEFINITION. Axes, gear links and path groups of a die (chapters 06 … 08): where an axis takes its set-points from, drains and
releases, commands in force, and the horizon (R202 … R213). -/

namespace Sys2Proof.Machine

open Sys2Proof

/-! Who feeds whom. -/

/-- The ENABLED link that has an axis as its slave. -/
def MDie.linkOf (d : MDie) (n : Nat) : Option (Nat × Obj × Gear) :=
  d.objects.findSome? (fun (x : Nat × Obj) => match x.2.data with
    | .gear g => if x.2.life = .enabled ∧ x.2.params.h Par.gearSlave = d.handle n then some (x.1, x.2, g) else none
    | _ => none)

/-- The path group of which an axis is a member. -/
def MDie.groupOf (d : MDie) (n : Nat) : Option (Nat × Obj × Path) :=
  d.objects.findSome? (fun (x : Nat × Obj) => match x.2.data with
    | .path p => if (List.range 8).any (fun i => x.2.params.h Par.pathMember i == d.handle n && d.handle n != 0) then some (x.1, x.2, p) else none
    | _ => none)

/-- Members of a path group: index and slot. -/
def MDie.members (d : MDie) (o : Obj) : List (Nat × Nat) :=
  (List.range 8).filterMap (fun i => (d.find (o.params.h Par.pathMember i)).map (fun (x : Nat × Obj) => (i, x.1)))

/-- What a group's planner reads of its members (R193). -/
def MDie.memberLims (d : MDie) (o : Obj) : List MemberLim :=
  (List.range 8).map (fun i => match d.find (o.params.h Par.pathMember i) with
    | some (_, m) => ⟨pathScale o.params i, axisVelLimit m.params, axisAcc m.params⟩
    | none => ⟨0, 0, 0⟩)

/-- The stream of a source on another node. -/
def MDie.stream? (d : MDie) (h : U32) : Option SrcStream := d.streams.find? (fun s => s.src == h)

/-- State of a position source at a time (R222, R227, R234), and whether it is predicted. -/
def MDie.srcKin (d : MDie) (h : U32) (t : Nat) : Option (Kin × Bool) :=
  match d.find h with
  | some (_, o) => match o.data with
    | .axis a => if a.ra.hor = [] then some (⟨posR a.cur.p, 0, 0⟩, false) else samplesAt a.ra.hor false t
    | .fbk f => some (fbkAt f.sample t, false)
    | _ => none
  | none => match d.stream? h with
    | some s => samplesAt s.held s.final t
    | none => none

/-- Source of a derived axis (R205). -/
def MDie.sourceOf (d : MDie) (n : Nat) (a : Axis) : Option U32 :=
  match a.core.mode with
  | .geared => (d.linkOf n).map (fun (x : Nat × Obj × Gear) => x.2.1.params.h Par.gearMaster)
  | _ => none

/-- Commit lead of a derived axis in its own ticks (R205): the smaller of its own and the source's lead,
rounded down to whole ticks, at least 1. -/
def derivedLead (own : Nat) (period sourceLeadNs : Nat) : Nat :=
  max 1 (min (own * period) sourceLeadNs / period)

/-- Commit lead in force of a source in ns (R205), along the chain of its own sources; an `FBK` has none (R234). -/
def MDie.leadNs (d : MDie) : Nat → U32 → Nat
  | 0, _ => 0
  | k + 1, h => match d.find h with
    | some (n, o) => match o.data with
      | .axis a =>
        let p := axisPeriod o.params
        let own := o.params.u Par.axisCommitDist
        (match d.sourceOf n a with
        | some s => derivedLead own p (d.leadNs k s)
        | none => own) * p
      | _ => 0
    | none => match d.stream? h with
      | some s => s.lead * d.periodOfHandle h
      | none => 0

def MDie.srcLead (d : MDie) (h : U32) : Nat := d.leadNs 64 h

/-- `AXIS.COMMIT_NOW`. -/
def MDie.leadOf (d : MDie) (n : Nat) (o : Obj) (a : Axis) : Nat :=
  let own := o.params.u Par.axisCommitDist
  match d.sourceOf n a with
  | some h => derivedLead own (axisPeriod o.params) (d.srcLead h)
  | none => own

/-- Is a source an `FBK`? -/
def MDie.isFbk (d : MDie) (h : U32) : Bool := match d.find h with | some (_, o) => o.cls == .fbk | none => false

/-- Is a source's data taken from another node? -/
def MDie.isRemote (d : MDie) (h : U32) : Bool := h != 0 && !d.isOwn h

/-- The table of an ENABLED cam (R242, R244). -/
def MDie.camTabOf (d : MDie) (h : U32) : Option CamTab :=
  match d.find h with
  | some (_, o) => match o.data with
    | .cam c => if o.life = .enabled then some (camTab (d.mem.sram.readN c.addr (64 + 8 * c.points)) c.points) else none
    | _ => none
  | none => none

/-! Commands for axes. -/

/-- A parameter entry at an offset of a body: ID, index, value (R89). -/
def entryAt (b : List Byte) (o : Nat) : Nat × Nat × U64 := (rdU b o 2, rdU b (o + 2) 2, BitVec.ofNat 64 (rdU b (o + 8) 8))

/-- The entries a command writes (R90, R93, R94). -/
def opEntries (op : Op) (b : List Byte) : List (Nat × Nat × U64) :=
  match op with
  | .paramSet => [entryAt b 0]
  | .paramSetMulti => (List.range (rdU b 0 2)).map (fun i => entryAt b (8 + 16 * i))
  | .objectCreate => (List.range (rdU b 2 2)).map (fun i => entryAt b (8 + 16 * i))
  | _ => []

/-- A position with its fraction. -/
def posAt (b : List Byte) (o : Nat) : Int := rdI b o 8 * oneCount + rdU b (o + 8) 4

/-- The motion command of a packet (R200). -/
def motionCmd (op : Op) (b : List Byte) : Option AxisCmd :=
  match op with
  | .moveAbs => some (.moveAbs (posAt b 0))
  | .moveRel => some (.moveRel (posAt b 0) false)
  | .moveVel => some (.moveVel (rdI b 0 8))
  | .moveHold => some .hold
  | .stop => some (.stop false)
  | .stopQuick => some (.stop true)
  | .objectDisable => some .drain
  | _ => none

/-- The motion command of an accepted command. -/
def Action.motion (a : Action) : Option AxisCmd :=
  match a.op with
  | .moveRel => some (.moveRel (posAt a.pkt.body 0) a.chained)
  | op => motionCmd op a.pkt.body

/-- Is it a motion command of R169? -/
def isMotion (op : Op) : Bool := op == .moveAbs || op == .moveRel || op == .moveVel || op == .moveHold || op == .stop || op == .stopQuick

/-- Is it a limit whose write replans (R179)? -/
def isLimit (id : Nat) : Bool :=
  [Par.axisProfVel, Par.axisVelLimit, Par.axisAccel, Par.axisDecel, Par.axisJerk, Par.axisQuickDecel, Par.axisQuickJerk, Par.axisSoftMin,
   Par.axisSoftMax, Par.axisSoftEn].contains id

/-- Does a mode take a motion command (R169)? -/
def takesCmd (m : AxisMode) : AxisCmd → Bool
  | .moveAbs _ | .moveRel _ _ | .moveVel _ | .hold => m != .geared && m != .path && m != .blocked
  | .stop _ => m != .path
  | _ => true

/-- Exact state of an axis at a tick: its plan, or the sample where it derives its set-points. -/
def Axis.stateAt (a : Axis) (t : Nat) : Kin :=
  match a.core.mode with
  | .geared | .path => match a.ra.hor.find? (fun h => h.tick == t) with
    | some h => kinOf h.s
    | none => kinOf a.cur
  | _ => a.core.at t

/-- The planner of an axis that leaves gearing or its group: from its state at the tick, with nothing planned. -/
def Axis.free (a : Axis) (t : Nat) : AxisCore :=
  match a.core.mode with
  | .geared | .path => { a.core with mode := .stopping, goal := .rest, plan := ⟨t, a.stateAt t, []⟩, reversal := none }
  | _ => a.core

/-- A command at a tick as the horizon foresees it and as it takes effect (R52, R182, R238). -/
def axisCore (ps : Params) (a : Axis) (t : Nat) (c : AxisCmd) : AxisOut :=
  if !takesCmd a.core.mode c then idleOut a.core
  else match a.core.mode, c with
    | .geared, .stop q => replan ps { a.free t with stopWhy := if q then 2 else 1, quick := q, inPos := none } t (.stop q) 2
    | .geared, .limit _ => idleOut a.core
    | .path, .limit _ => idleOut a.core
    | _, .drain => startDrain ps (a.free t) t
    | _, c => axisCmd ps a.core t c

/-! The sample of a tick. -/

/-- The link of an axis as the horizon foresees it; `on`: it is ENABLED. -/
structure FutLink where
  slot : Nat
  ps : Params
  g : Gear
  on : Bool

/-- The group of an axis as the horizon foresees it, with the index and slot of every member. -/
structure FutGroup where
  slot : Nat
  ps : Params
  p : Path
  lims : List MemberLim
  mem : List (Nat × Nat)

/-- An axis as it steps from tick to tick, with what its set-points derive from; `live`: it is ENABLED. -/
structure Fut where
  ps : Params
  a : Axis
  live : Bool
  link : Option FutLink
  group : Option FutGroup

/-- Outcome of one tick: the sample, whether it rests on prediction, events of the axis and of its link. -/
structure TickOut where
  x : Fut
  s : KSample
  pred : Bool
  evs : List Ev
  linkEvs : List Ev

/-- The source state of a derived axis at a tick: the one its committed sample was derived from, else what the source gives now (R219). -/
def MDie.srcAt (d : MDie) (ra : AxisRa) (h : U32) (t : Nat) : Option (Kin × Bool) :=
  match ra.kept.find? (fun x => x.tick == t) with
  | some x => some (x.kin, x.pred)
  | none => d.srcKin h t

/-- The table in force on a link. -/
def MDie.gearTab (d : MDie) (g : Gear) : Option CamTab := if g.camNow = 0 then none else d.camTabOf g.camNow

/-- A waiting link engages at a tick of its slave (R232): the axis and the link after it. Where the engagement itself takes place, `sure`, the
die must hold master data for the tick. -/
def MDie.engage (d : MDie) (x : Fut) (t : Nat) (sure : Bool) : Option (Fut × List Ev) :=
  match x.link with
  | none => none
  | some l =>
    let m := x.a.core.mode
    if !l.on || l.g.engaged || !x.live || !(m == .idle || m == .position || m == .velocity) then none
    else match d.srcKin (l.ps.h Par.gearMaster) t with
      | none => none
      | some (kin, pred) =>
        if sure && pred then none
        else
          let now := x.a.core.at t
          let (g, es) := gearEngage l.ps l.g d.camTabOf kin (sampleOf now).p t
          let c := subKin now (kinOf (g.law.sample (d.gearTab g) kin))
          let core := { x.a.core with mode := .geared, goal := .rest, reversal := none, inPos := none, quick := false }
          let ra := { x.a.ra.unlink with corrs := if c.p = 0 ∧ c.v = 0 ∧ c.a = 0 then [] else [startCorr x.ps t c] }
          some ({ x with a := { x.a with core := core, ra := ra }, link := some { l with g := g } }, es)

/-- The geared sample with its correction (R220, R232, R233). -/
def MDie.gearedTick (d : MDie) (x : Fut) (l : FutLink) (t : Nat) : TickOut :=
  match d.srcAt x.a.ra (l.ps.h Par.gearMaster) t with
  | none => ⟨x, x.a.cur, true, [], []⟩
  | some (kin, pred) =>
    let (g, es) := gearStep l.g d.camTabOf (kin.p * unitR) t
    let (cs, s) := correct x.ps (axisPeriod x.ps) x.a.ra.corrs t (g.law.sample (d.gearTab g) kin)
    let ra := { x.a.ra with corrs := cs }
    let (g, es') := if (ra.corrAt t).isNone ∧ ¬ g.synced then
        ({ g with synced := true }, [report Evt.gearSynced t (di64 (roundEven (kin.p * unitR) / oneCount))]) else (g, [])
    ⟨{ x with a := { x.a with ra := ra }, link := some { l with g := g } }, s, pred, [], es ++ es'⟩

/-- Sample of a path member (R189). -/
def Fut.memberTick (n : Nat) (x : Fut) (t : Nat) : KSample :=
  match x.group with
  | none => x.a.cur
  | some g =>
    match g.p.samples t ((List.range 8).map (pathScale g.ps)), g.mem.find? (fun m => m.2 == n) with
    | some ss, some (i, _) => ss.getD i x.a.cur
    | _, _ => ⟨x.a.cur.p, 0, 0⟩

/-- One tick of an axis. -/
def MDie.tickOne (d : MDie) (n : Nat) (x : Fut) (t wires : Nat) : TickOut :=
  match x.a.core.mode, x.link with
  | .geared, some l => if l.on then d.gearedTick x l t else ⟨x, x.a.cur, false, [], []⟩
  | .geared, none => ⟨x, x.a.cur, false, [], []⟩
  | .path, _ => ⟨x, x.memberTick n t, false, [], []⟩
  | _, _ =>
    let s := sampleOf (x.a.core.at t)
    let (c, es) := axisTick x.a.core s t wires
    ⟨{ x with a := { x.a with core := c } }, s, false, es, []⟩

/-! Accepted commands of ticks ahead (R202). -/

/-- `GEAR_RATIO`, `GEAR_CAM_SWITCH`, `GEAR_SHIFT` at tick `t` (R236, R237, R244); `kin` is the master's state where the link is engaged. -/
def gearCmd (g : Gear) (cam : Option CamTab) (kin : Option Kin) (op : Op) (b : List Byte) (t : Nat) : Gear × List Ev :=
  match op with
  | .gearRatio =>
    let c : RatioChange := { pos := rdI b 0 8 * oneCount, num := rdI b 8 4, den := rdU b 12 4, blend := rdU b 16 8 * 2 ^ 32, dir := rdU b 24 1 % 4
                             immediate := bitOf (rdU b 24 1) 2, late := false, waits := none }
    match kin with
    | some k => gearArm g cam c (k.p * unitR) k.v t
    | none => ({ g with heldRatio := some c }, [])
  | .gearCamSwitch => ({ g with camArmed := some (BitVec.ofNat 32 (rdU b 0 4)) }, [])
  | .gearShift =>
    match kin with
    | some k => ({ g with law := g.law.startShift (k.p * unitR) (posAt b 0) (rdU b 16 8 * 2 ^ 32) }, [])
    | none => ({ g with heldShift := some (((g.heldShift.map (fun (x : Int × Nat) => x.1)).getD 0) + posAt b 0, rdU b 16 8 * 2 ^ 32) }, [])
  | _ => (g, [])

/-- The slave of a link leaves gearing by the link's own end: it stops along its ramp (R239). -/
def slaveStop (ps : Params) (a : Axis) (t : Nat) : AxisOut :=
  replan ps { a.free t with stopWhy := 6, quick := false, inPos := none } t (.stop false) 2

/-- Parameters as the entries of a command leave them. -/
def writeAll (ps : Params) (es : List (Nat × Nat × U64)) : Params := es.foldl (fun (ps : Params) e => ps.set e.1 e.2.1 e.2.2) ps

/-- A link that is no longer ENABLED. -/
def FutLink.off (l : FutLink) : FutLink := { l with on := false, g := { l.g with engaged := false } }

/-- Writes and commands for the axis that the horizon foresees at their tick. -/
def Fut.foreseeAxis (x : Fut) (t : Nat) (act : Action) : Fut :=
  match act.motion with
  | some c =>
    let frees : Bool := x.a.core.mode == .geared && (match c with | .stop _ | .drain => true | _ => false)
    let x' := { x with a := { x.a with core := (axisCore x.ps x.a t c).core } }
    let x' := if c = .drain then { x' with live := false } else x'
    if frees then { x' with a := { x'.a with ra := x'.a.ra.unlink }, link := x'.link.map FutLink.off } else x'
  | none =>
    (opEntries act.op act.pkt.body).foldl (fun (x : Fut) (e : Nat × Nat × U64) =>
      let x := { x with ps := x.ps.set e.1 e.2.1 e.2.2 }
      if isLimit e.1 then { x with a := { x.a with core := (axisCore x.ps x.a t (.limit e.1)).core } } else x) x

/-- Commands for its link. -/
def MDie.foreseeLink (d : MDie) (x : Fut) (l : FutLink) (t : Nat) (act : Action) : Fut :=
  match act.op with
  | .objectEnable => if l.on then x else { x with link := some { l with on := true, g := Gear.create } }
  | .objectDisable =>
    let x := { x with link := some l.off }
    if l.on ∧ l.g.engaged ∧ x.a.core.mode = .geared then { x with a := { x.a with core := (slaveStop x.ps x.a t).core, ra := x.a.ra.unlink } } else x
  | .paramSet | .paramSetMulti => { x with link := some { l with ps := writeAll l.ps (opEntries act.op act.pkt.body) } }
  | op =>
    if !l.on then x
    else
      let kin := if l.g.engaged then (d.srcAt x.a.ra (l.ps.h Par.gearMaster) t).map (fun (k : Kin × Bool) => k.1) else none
      { x with link := some { l with g := (gearCmd l.g (d.gearTab l.g) kin op act.pkt.body t).1 } }

/-- Commands for its group. -/
def Fut.foreseeGroup (x : Fut) (g : FutGroup) (t : Nat) (act : Action) : Fut :=
  let b := act.pkt.body
  let put (p : Path) : Fut := { x with group := some { g with p := p } }
  let p := g.p
  match act.op with
  | .objectEnable =>
    if x.a.core.mode = .idle then
      { x with a := { x.a with core := { x.a.core with mode := .path, goal := .rest, inPos := none } }
               group := some { g with p := { Path.create with plan := Plan.rest t 0, hold := p.hold } } }
    else x
  | .objectDisable => if p.mode = 0 then x else if p.mode = 2 then put { p with draining := true, next := [] } else put (p.halt g.ps t false 0 true)
  | .pathLine | .pathArc => if 64 ≤ p.queued then x else put (p.append g.ps g.lims (pathSeg act.op g.ps b (p.startPoint.getD (p.point t))) t)
  | .pathFlush => put (p.flush g.ps g.lims t).1
  | .stop | .stopQuick =>
    let q := act.op == .stopQuick
    if p.stopHeld q then x else put (p.halt g.ps t q (if q then 2 else 1) false)
  | op =>
    let es := opEntries op b
    let ps := writeAll g.ps es
    let p := if p.mode = 1 ∧ es.any (fun e => isPathLimit e.1) then p.replan ps g.lims t else p
    { x with group := some { g with ps := ps, p := p } }

/-- Limits of a member of its group. -/
def Fut.foreseeMember (x : Fut) (g : FutGroup) (i t : Nat) (act : Action) : Fut :=
  let lims := (opEntries act.op act.pkt.body).foldl (fun (ms : List MemberLim) e =>
    let ps := Params.set [] e.1 e.2.1 e.2.2
    if e.1 = Par.axisVelLimit then listMod ms i (fun m => { m with vel := axisVelLimit ps })
    else if e.1 = Par.axisAccel then listMod ms i (fun m => { m with acc := axisAcc ps })
    else ms) g.lims
  if lims = g.lims then x
  else { x with group := some { g with lims := lims, p := if g.p.mode = 1 then g.p.replan g.ps lims t else g.p } }

/-- An accepted command at its tick. -/
def MDie.foresee (d : MDie) (n : Nat) (x : Fut) (t : Nat) (act : Action) : Fut :=
  let s := hSlot act.pkt.target
  let x := if s = n then x.foreseeAxis t act else x
  let x := match x.link with | some l => if s = l.slot then d.foreseeLink x l t act else x | none => x
  match x.group with
  | some g =>
    if s = g.slot then x.foreseeGroup g t act
    else match g.mem.find? (fun m => m.2 == s) with
      | some (i, _) => x.foreseeMember g i t act
      | none => x
  | none => x

/-- The accepted commands for an object. -/
def MDie.actsFor (d : MDie) (n : Nat) : List Action :=
  d.rm.actions.filter (fun a => d.isOwn a.pkt.target && hSlot a.pkt.target == n)

/-- A link of an axis that an accepted command will enable. -/
def MDie.linkAhead (d : MDie) (n : Nat) : Option FutLink :=
  d.rm.actions.findSome? (fun a => match a.op, d.gear? (hSlot a.pkt.target) with
    | .objectEnable, some (o, _) =>
      if d.isOwn a.pkt.target ∧ o.params.h Par.gearSlave = d.handle n then some ⟨hSlot a.pkt.target, o.params, Gear.create, false⟩ else none
    | _, _ => none)

/-- An axis as it stands, to be stepped. -/
def MDie.futOf (d : MDie) (n : Nat) (o : Obj) (a : Axis) : Fut :=
  { ps := o.params, a := a, live := o.life == .enabled
    link := match d.linkOf n with
      | some (l, lo, g) => some ⟨l, lo.params, g, true⟩
      | none => d.linkAhead n
    group := (d.groupOf n).map (fun (x : Nat × Obj × Path) => ⟨x.1, x.2.1.params, x.2.2, d.memberLims x.2.1, d.members x.2.1⟩) }

/-- The accepted commands that bear on the samples of an axis. -/
def MDie.actsOn (d : MDie) (n : Nat) (x : Fut) : List Action :=
  let slots := n :: ((x.link.map (fun l => l.slot)).toList ++ (match x.group with | some g => g.slot :: g.mem.map (fun m => m.2) | none => []))
  d.rm.actions.filter (fun a => d.isOwn a.pkt.target && slots.contains (hSlot a.pkt.target))

/-- The samples of `k` ticks from `t` on (R202). -/
def MDie.ahead (d : MDie) (n period epoch : Nat) (acts : List Action) : Nat → Nat → Fut → List HSample
  | 0, _, _ => []
  | k + 1, t, x =>
    let due := acts.filter (fun a => a.effect == t)
    let x := match x.group with
      | some g => if due ≠ [] ∨ g.p.next ≠ [] then { x with group := some { g with p := g.p.foresee g.ps g.lims t } } else x
      | none => x
    let x := due.foldl (fun x a => d.foresee n x t a) x
    let x := match d.engage x t false with | some (x, _) => x | none => x
    let o := d.tickOne n x t 0
    let a := { o.x.a with core := axisRelease o.x.a.core o.s, cur := o.s }
    ⟨t, o.s, epoch, o.pred⟩ :: d.ahead n period epoch acts k (t + period) { o.x with a := a }

/-- The samples from the tick in progress to the horizon: the present sample, then the ticks ahead. -/
def MDie.forecast (d : MDie) (n t : Nat) (o : Obj) (a : Axis) : List HSample :=
  let p := axisPeriod o.params
  let x := d.futOf n o a
  ⟨t, a.cur, a.ra.epoch, false⟩ :: d.ahead n p a.ra.epoch (d.actsOn n x) (o.params.u Par.axisHorizon) (t + p) x

/-! Streams to other nodes (R214 … R216). -/

/-- A stream record of an axis. -/
def streamRec (src : U32) (lead : Nat) (h : HSample) : StreamRec :=
  { src := src, epoch := h.epoch, lead := lead, tickS := BitVec.ofNat 32 (h.tick / 1000000000), tickNs := h.tick % 1000000000, s := h.s
    sync := false, retract := false, final := false, predicted := h.pred, cause := 0, oldEpoch := 0 }

/-- Records in packets of at most 21 (R463). -/
def recPackets : Nat → List StreamRec → List (Nat × List Byte)
  | 0, _ => []
  | _, [] => []
  | k + 1, rs =>
    let now := rs.take 21
    (now.length, now.flatMap encodeRecord) :: recPackets k (rs.drop 21)

def MDie.sendRecords (d : MDie) (node : Nat) (rs : List StreamRec) : MDie :=
  (recPackets 64 rs).foldl (fun d (p : Nat × List Byte) => d.send (d.packet 2 node p.1 0 p.2)) d

/-- Send records to every receiver of an axis, the first with `SYNC` where one is due. -/
def MDie.streamOut (d : MDie) (n : Nat) (rs : List StreamRec) : MDie :=
  match d.axis? n with
  | none => d
  | some (_, a) =>
    if rs = [] ∨ a.ra.receivers = [] then d
    else
      let d := a.ra.receivers.foldl (fun d (r : Nat × Bool) =>
        d.sendRecords r.1 (match rs with
          | x :: t => { x with sync := r.2 } :: t
          | [] => [])) d
      d.setData n (.axis { a with ra := { a.ra with receivers := a.ra.receivers.map (fun r => (r.1, false)) } })

/-! A new horizon (R209 … R213). -/

/-- Edges of consumers on this die are withdrawn and placed again (R213, R249, R261). -/
def MDie.withdrawEdges (d : MDie) (src : U32) : MDie :=
  let now := d.ns
  (d.objects).foldl (fun d (x : Nat × Obj) => match x.2.data with
    | .evt c => if x.2.params.h Par.evtSource = src ∧ c.st = 1 then d.setData x.1 (.evt (c.withdraw now)) else d
    | .lclk l => if x.2.params.h Par.lclkSource = src ∧ l.armed then d.setData x.1 (.lclk (l.withdraw now)) else d
    | _ => d) d

/-- Put a new horizon of an axis at tick `t`. A difference from the samples held starts a new epoch where a cause is given, a late retraction
one from its first uncommitted tick `late` in any case (R219); edges are placed again, and the records of what changed are sent. -/
def MDie.putHorizon (d : MDie) (n t : Nat) (new : List HSample) (cause late : Option Nat) : MDie :=
  match d.axis? n with
  | none => d
  | some (_, a) =>
    let old := a.ra.hor
    let f := firstDiff (old.filter (fun h => t ≤ h.tick)) new
    let ra := { a.ra with causes := [] }
    match minTick f late, cause with
    | some f, some c =>
      let fresh := decide (ra.epochTick ≠ some t)
      let ra' := newEpoch ra t c
      let new := new.map (fun h => if f ≤ h.tick then { h with epoch := ra'.epoch } else
        { h with epoch := ((old.find? (fun o => o.tick == h.tick)).map (fun o => o.epoch)).getD ra.epoch })
      let d := d.setData n (.axis { a with ra := { ra' with hor := new } })
      let rs := (new.filter (fun h => f ≤ h.tick)).map (streamRec (d.handle n) ra.commitNow)
      let rs := match rs with
        | x :: r => (if fresh then { x with retract := true, cause := ra'.epochCause, oldEpoch := ra.epoch } else x) :: r
        | [] => []
      (d.streamOut n rs).withdrawEdges (d.handle n)
    | _, _ =>
      let new := new.map (fun h => { h with epoch := ((old.find? (fun o => o.tick == h.tick)).map (fun o => o.epoch)).getD ra.epoch })
      let rs := (new.filter (fun h => match old.find? (fun o => o.tick == h.tick) with
        | some o => o.s != h.s
        | none => true)).map (streamRec (d.handle n) ra.commitNow)
      let d := d.setData n (.axis { a with ra := { ra with hor := new } })
      let d := d.streamOut n rs
      if f.isSome then d.withdrawEdges (d.handle n) else d

/-- The cause a new epoch reports: the first, but an SS1 stop always (R184, R210). -/
def causeOf (l : List Nat) : Option Nat := if l.contains 3 then some 3 else l.head?

/-- The source states of the samples committed before the class 0 tick after `T` are kept (R204, R219, R234): those of the ticks from `t` on that
are not kept yet. Answers the axis and what was added. -/
def MDie.commitSources (d : MDie) (h : U32) (period lead t T : Nat) (a : Axis) (new : List HSample) : Axis × List SrcKept :=
  let u := firstUncommitted period lead (T + 16000)
  let kept := a.ra.kept.filter (fun x => decide (t ≤ x.tick))
  let more := new.filterMap (fun x =>
    if u ≤ x.tick ∨ kept.any (fun k => k.tick == x.tick) then none
    else (d.srcKin h x.tick).map (fun (k : Kin × Bool) => (⟨x.tick, k.1, k.2⟩ : SrcKept)))
  ({ a with ra := { a.ra with kept := kept ++ more } }, more)

/-- What the source axis of a derived axis on this die has come to since it was last seen (R210, R222). -/
structure SrcNews where
  /-- `AXIS.EPOCH_COUNT` of the source, its last sample's tick, its epoch. -/
  epochs : Nat
  last : Nat
  epoch : Nat
  /-- It has started an epoch. -/
  fresh : Bool
  /-- A new last sample against its prediction, in 2⁻³² count, where the derived samples reach that far. -/
  diff : Option Int

def MDie.srcNews (d : MDie) (h : U32) (a : Axis) : Option SrcNews :=
  match d.find h with
  | some (_, o) => match o.data with
    | .axis m =>
      let last := (m.ra.hor.getLast?.map (fun x => x.tick)).getD 0
      let used : Bool := match a.ra.hor.getLast? with | some x => decide (last ≤ x.tick) | none => false
      let diff := match m.ra.hor.getLast?, m.ra.hor.find? (fun x => x.tick == a.ra.srcLast) with
        | some l, some p => if a.ra.srcLast < l.tick ∧ used then some (l.s.p - roundEven ((predict p.s (l.tick - p.tick)).p * unitR)) else none
        | _, _ => none
      some ⟨m.ra.epochCount, last, m.ra.epoch, decide (a.ra.srcEpoch.any (fun e => e ≠ m.ra.epochCount)), diff⟩
    | _ => none
  | none => none

/-- The horizon of an axis geared to an axis of this die (R207, R210, R222). -/
def MDie.localHorizon (d : MDie) (n t : Nat) (h : U32) (o : Obj) (a : Axis) : MDie :=
  match d.srcNews h a with
  | none => d.putHorizon n t (d.forecast n t o a) (causeOf a.ra.causes) none
  | some w =>
    let a := { a with ra := { a.ra with srcEpoch := some w.epochs, srcLast := w.last } }
    let d := d.setData n (.axis a)
    let new := d.forecast n t o a
    if a.ra.causes ≠ [] then d.putHorizon n t new (causeOf a.ra.causes) none
    else if w.fresh then d.putHorizon n t new (some 7) none
    else match w.diff with
      | none => d.putHorizon n t new none none
      | some x =>
        if (x.natAbs : Int) ≤ (o.params.u Par.axisMasterTol : Int) * oneCount then
          let d := d.setData n (.axis { a with ra := { a.ra with refineCount := (a.ra.refineCount + 1) % 2 ^ 32 } })
          d.putHorizon n t new none none
        else
          ((d.putHorizon n t new (some 6) none).orPar n Par.axisRaFlags 4).post n
            (report Evt.masterDeviation t (d32 h.toNat ++ d16 w.epoch ++ [0, 0] ++ di64 (divNearestEven x oneCount)))

/-- Compute the horizon of an axis anew at tick `t` (R202, R210, R213). Sources on other nodes are handled by `remoteHorizon`. -/
def MDie.horizonOf (d : MDie) (n t : Nat) : MDie :=
  match d.axis? n with
  | none => d
  | some (o, a) =>
    if o.life ≠ .enabled ∧ o.life ≠ .draining then d
    else
      let a := { a with ra := { a.ra with commitNow := d.leadOf n o a } }
      let d := d.setData n (.axis a)
      match d.sourceOf n a with
      | some h =>
        if d.isRemote h then d
        else if d.isFbk h then
          let p := axisPeriod o.params
          let new := d.forecast n t o a
          let d := d.setData n (.axis (d.commitSources h p (a.ra.commitNow * p) t d.tick a new).1)
          d.putHorizon n t new (causeOf a.ra.causes) none
        else d.localHorizon n t h o a
      | none => d.putHorizon n t (d.forecast n t o a) (some ((causeOf a.ra.causes).getD (if a.core.mode = .path then 9 else 1))) none

/-- Depth of an axis in the chain of its sources on this die. -/
def MDie.depth (d : MDie) : Nat → Nat → Nat
  | 0, _ => 0
  | k + 1, n => match d.axis? n with
    | none => 0
    | some (_, a) => match d.sourceOf n a with
      | none => 0
      | some h => match d.find h with
        | some (m, _) => 1 + d.depth k m
        | none => 1

/-- Slots of the axes, sources first. -/
def MDie.axisOrder (d : MDie) : List Nat :=
  let l := (d.slotsOf .axis).map (fun n => (d.depth 64 n, n))
  (List.range 65).flatMap (fun k => (l.filter (fun (x : Nat × Nat) => x.1 == k)).map (fun (x : Nat × Nat) => x.2))

/-- The sample of the tick in progress of an axis that derives it, from what it derives it from now (R207, R211). -/
def MDie.rederive (d : MDie) (n t : Nat) : MDie :=
  match d.axis? n with
  | none => d
  | some (o, a) =>
    if (o.life = .enabled ∨ o.life = .draining) ∧ (a.core.mode = .geared ∨ a.core.mode = .path) then
      d.setData n (.axis { a with cur := (d.tickOne n (d.futOf n o a) t 0).s })
    else d

/-- Compute every horizon anew, each for the tick of its class in progress at `t` (R203). -/
def MDie.refresh (d : MDie) (t : Nat) : MDie :=
  (d.axisOrder).foldl (fun d n => match d.axis? n with
    | some (o, _) =>
      let tk := Sys2Proof.Machine.tickOf (axisPeriod o.params) t
      (d.rederive n tk).horizonOf n tk
    | none => d) d

/-! Drains, faults, releases (R170, R183, R196, R238, R239). -/

/-- Note a cause of replanning. -/
def AxisRa.note (ra : AxisRa) (c : Nat) : AxisRa := { ra with causes := ra.causes ++ [c] }

/-- The link of an axis that leaves gearing enters DISABLED (R238). -/
def MDie.gearRelease (d : MDie) (n what t : Nat) : MDie :=
  match d.linkOf n with
  | none => d
  | some (l, o, g) =>
    let d := d.setObj l { o with data := .gear { g with engaged := false } }
    let d := d.post l (report Evt.gearReleased t (d16 what))
    let d := d.modObj l (fun o => { o with life := .draining, faultCause := Evt.gearReleased })
    d.toIdle l t

/-- A path group comes to rest along the path (R195 … R197). -/
def MDie.pathHalt (d : MDie) (n t : Nat) (quick : Bool) (why : Nat) (drain : Bool) : MDie :=
  match d.path? n with
  | none => d
  | some (o, p) =>
    let d := d.setData n (.path (p.halt o.params t quick why drain))
    (d.members o).foldl (fun d (x : Nat × Nat) => match d.axis? x.2 with
      | some (_, a) => d.setData x.2 (.axis { a with ra := a.ra.note 9 })
      | none => d) d

/-- A member has faulted: the group faults (R196). -/
def MDie.memberFault (d : MDie) (n code t : Nat) : MDie :=
  match d.groupOf n with
  | none => d
  | some (g, o, _) =>
    if o.life ≠ .enabled then d
    else
      let d := d.post g (faultEv Evt.memberFault t (d32 (d.handle n).toNat ++ d16 code))
      let (d, go) := d.faultMark g Evt.memberFault
      if go then d.pathHalt g t true 0 true else d

/-- The stop of an axis that enters DRAINING (R170); `quick` where its ramp is the quick one (R183, R292). -/
def MDie.axisHalt (d : MDie) (n what t : Nat) (quick : Bool) : MDie :=
  match d.axis? n with
  | none => d
  | some (o, a) =>
    let was := a.core.mode
    let c := a.free t
    let r := if quick then idleOut { c.toQuick o.params t with draining := true } else startDrain o.params c t
    let d := (d.setData n (.axis { a with core := r.core, ra := a.ra.unlink.note 4 })).orPar n Par.axisFlags r.flags
    let d := d.gearRelease n what t
    if was = .path then d.memberFault n what t else d

/-- A fault of an axis (R33). -/
def MDie.axisFault (d : MDie) (n : Nat) (e : Ev) (t : Nat) (quick : Bool := false) : MDie :=
  let (d, go) := (d.post n e).faultMark n e.code
  if go then d.axisHalt n e.code t quick else d

/-- Take the outcome of a planner operation. -/
def MDie.axisTake (d : MDie) (n t cause : Nat) (a : Axis) (r : AxisOut) : MDie :=
  let d := d.setData n (.axis { a with core := r.core, ra := a.ra.note cause })
  let d := (d.orPar n Par.axisFlags r.flags).postAll n r.evs
  match r.fault with
  | some e => d.axisFault n e t
  | none => d

/-- A motion command or limit write takes effect at tick `t` (R52, R179). -/
def MDie.axisDo (d : MDie) (n t : Nat) (c : AxisCmd) : MDie :=
  match d.axis? n with
  | none => d
  | some (o, a) =>
    let limit : Bool := match c with | .limit _ => true | _ => false
    if (o.life ≠ .enabled ∧ ¬ (limit ∧ o.life = .draining)) ∨ takesCmd a.core.mode c = false then d
    else
      let cause := match c with | .limit _ => 2 | _ => 1
      let r := axisCore o.params a t c
      match a.core.mode, c with
      | .geared, .stop q => (d.axisTake n t cause { a with ra := a.ra.unlink } r).gearRelease n (if q then 2 else 1) t
      | .idle, .limit _ | .geared, .limit _ | .path, .limit _ => d
      | _, _ => d.axisTake n t cause a r

/-- The slave of a link leaves gearing by the link's own disable or fault: it stops along its ramp (R239). -/
def MDie.slaveFree (d : MDie) (l t : Nat) : MDie :=
  match d.gear? l with
  | none => d
  | some (o, g) =>
    let d := d.setObj l { o with data := .gear { g with engaged := false } }
    if ¬ g.engaged then d
    else match d.find (o.params.h Par.gearSlave) with
      | some (n, so) => match so.data with
        | .axis a =>
          if a.core.mode ≠ .geared then d
          else
            d.axisTake n t 8 { a with ra := a.ra.unlink } (slaveStop so.params a t)
        | _ => d
      | none => d

/-- A fault of a link (R235, R239). -/
def MDie.gearFault (d : MDie) (l : Nat) (e : Ev) (t : Nat) : MDie :=
  let (d, go) := (d.post l e).faultMark l e.code
  if go then (d.slaveFree l t).toIdle l t else d

end Sys2Proof.Machine
end

