-- ==== Sys2Proof/Machine/MotionTick.lean ====
section
/-! DEFINITION. The tick of the Planner island (chapters 06 … 08): records of remote sources (R217 … R224), stops by condition,
engagement, path groups, the samples of the axes. -/

namespace Sys2Proof.Machine

open Sys2Proof

/-! Records from other nodes (R217). -/

/-- What a record brought: its tick, its epoch, difference to the source position held or predicted, whether a sample of its tick was held. -/
structure RecNote where
  src : U32
  tick : Nat
  newer : Bool
  epoch : Nat
  /-- Position of the record, 2⁻³² count. -/
  p : Int
  diff : Int
  wasHeld : Bool

/-- Samples no longer needed are dropped: the last two at or before `T` are kept. -/
def pruneHeld (T : Nat) : List HSample → List HSample
  | a :: b :: c :: r => if c.tick ≤ T then pruneHeld T (b :: c :: r) else a :: b :: c :: r
  | l => l

/-- The axes of this die that derive their set-points from a source. -/
def MDie.slavesOf (d : MDie) (h : U32) : List (Nat × Obj × Axis) :=
  (d.slotsOf .axis).filterMap (fun n => match d.axis? n with
    | some (o, a) => if d.sourceOf n a = some h then some (n, o, a) else none
    | none => none)

/-- The first tick of a source that some consumer on this die has not committed at class 0 tick `T` (R204, R205, R217): an axis by its own lead, a
line clock by the lead of the source. -/
def MDie.consumerTick (d : MDie) (h : U32) (T : Nat) : Nat :=
  let axes := (d.slavesOf h).map (fun (x : Nat × Obj × Axis) => T + d.leadOf x.1 x.2.1 x.2.2 * axisPeriod x.2.1.params)
  let lines := d.objects.filterMap (fun (x : Nat × Obj) => match x.2.data with
    | .lclk _ => if x.2.life = .enabled ∧ x.2.params.h Par.lclkSource = h then some (T + d.srcLead h) else none
    | _ => none)
  match axes ++ lines with
  | [] => T
  | x :: r => r.foldl min x

/-- Take one record into account at class 0 tick `T`. -/
def MDie.takeRecord (d : MDie) (T : Nat) (r : StreamRec) : MDie × List RecNote :=
  match d.stream? r.src with
  | none => (d, [])
  | some st =>
    let tick := recordTick r T
    let held := (st.held.find? (fun h => h.tick == tick))
    let diff := match samplesAt st.held st.final tick with | some (k, _) => r.s.p - roundEven (k.p * unitR) | none => 0
    let per := Nat.gcd (if r.sync ∨ st.per = 0 then 256000 else st.per) tick
    let put (s : SrcStream) : MDie :=
      { d with streams := d.streams.map (fun x => if x.src = r.src then { s with per := per, held := pruneHeld T s.held } else x) }
    let note (newer : Bool) : RecNote := ⟨r.src, tick, newer, r.epoch, r.s.p, diff, held.isSome⟩
    match recordKind st r with
    | .older =>
      ((d.slavesOf r.src).foldl (fun d (x : Nat × Obj × Axis) =>
        d.setData x.1 (.axis { x.2.2 with ra := { x.2.2.ra with staleRecords := (x.2.2.ra.staleRecords + 1) % 2 ^ 32 } })) d, [])
    | .newer => (put (applyRecord st r tick), [note true])
    | .current =>
      let keep := decide (T ≤ tick) && (held.isNone || decide (d.consumerTick r.src T ≤ tick))
      let s := if keep ∨ st.held = [] ∨ r.final then applyRecord st r tick else { st with epoch := some r.epoch, lead := r.lead, final := r.final }
      (put s, if st.held = [] then [] else [note false])

/-- Take every record held at class 0 tick `T`, in arrival order. -/
def MDie.takeRecords (d : MDie) (T : Nat) : MDie × List RecNote :=
  let l := d.streamIn
  l.foldl (fun (x : MDie × List RecNote) r => let (d, ns) := x.1.takeRecord T r; (d, x.2 ++ ns)) ({ d with streamIn := [] }, [])

/-- What the notes of its source do to a derived axis: events, flags, cause of a new epoch, need of a correction, counts. -/
structure Derive where
  evs : List Ev
  flags : Nat
  cause : Option Nat
  corr : Bool
  late : Nat
  refine : Nat

/-- Late retractions, deviations and refinements at class 0 tick `T` (R218, R219, R222, R223); `u` is the first uncommitted tick, `kept` the source
states committed, `hor` the samples derived so far, `gap` the new derived position minus the committed one at `u`. -/
def deriveNotes (src : U32) (period u T : Nat) (tol gap : Int) (kept : List SrcKept) (hor : List HSample) : List RecNote → Derive → Derive
  | [], x => x
  | r :: rs, x =>
    let fo := tickAtOrAfter period r.tick
    let used := kept.find? (fun k => k.tick == r.tick)
    let diff := match used with | some k => r.p - roundEven (k.kin.p * unitR) | none => r.diff
    let isLate : Derive := { x with
      evs := x.evs ++ [report Evt.lateRetract T (d32 src.toNat ++ d16 r.epoch ++ d16 ((u - fo) / period) ++ di64 (divNearestEven gap oneCount))]
      flags := x.flags ||| 1, cause := x.cause <|> some 7, corr := true, late := x.late + 1 }
    let beyond := decide (tol < (diff.natAbs : Int))
    let x :=
      if r.newer then (if fo < u then isLate else { x with cause := x.cause <|> some 7 })
      else if fo < u then
        -- a committed sample: from prediction (R223), or from a record that is sent again (R222)
        if (match kept.find? (fun k => k.tick == fo) with | some k => k.pred | none => !r.wasHeld) then
          (if beyond then isLate else { x with corr := true, refine := x.refine + 1 })
        else if diff = 0 then x else { x with corr := true }
      else if (hor.find? (fun y => y.tick == fo && y.pred)).isNone then x
      else if beyond then { x with
        evs := x.evs ++ [report Evt.masterDeviation T (d32 src.toNat ++ d16 r.epoch ++ [0, 0] ++ di64 (divNearestEven diff oneCount))]
        flags := x.flags ||| 4, cause := x.cause <|> some 6 }
      else { x with refine := x.refine + 1 }
    deriveNotes src period u T tol gap kept hor rs x

/-- Samples committed at a class 0 tick (R223, R224): the run of those that rest on prediction, whether any does, and the first after a received one. -/
def commitRun (fin : Bool) (ra : AxisRa) (more : List SrcKept) : AxisRa × Bool × Option SrcKept :=
  more.foldl (fun (y : AxisRa × Bool × Option SrcKept) k =>
    if k.pred && !fin then
      ({ y.1 with predRun := y.1.predRun + 1, lastReceived := false }, true, y.2.2 <|> (if y.1.lastReceived then some k else none))
    else ({ y.1 with predRun := 0, lastReceived := true }, y.2.1, y.2.2)) (ra, false, none)

/-- The horizon of an axis that derives from another node, at class 0 tick `T` (R217 … R224): the source states of committed samples stay. -/
def MDie.remoteHorizon (d : MDie) (n T : Nat) (notes : List RecNote) : MDie :=
  match d.axis? n with
  | none => d
  | some (o, a) =>
    match d.sourceOf n a with
    | none => d
    | some h =>
      if d.isRemote h = false then d
      else
        let p := axisPeriod o.params
        let a := { a with ra := { a.ra with commitNow := d.leadOf n o a } }
        let lead := a.ra.commitNow * p
        let u := firstUncommitted p lead T
        let t := Sys2Proof.Machine.tickOf p T
        let base := d.forecast n t o { a with ra := { a.ra with corrs := [] } }
        let at_ (l : List HSample) : Option KSample := (l.find? (fun x => x.tick == u)).map (fun x => x.s)
        let gap := match at_ base, at_ a.ra.hor with | some b, some c => b.p - c.p | _, _ => 0
        let w := deriveNotes h p u T ((o.params.u Par.axisMasterTol : Int) * oneCount) gap a.ra.kept a.ra.hor (notes.filter (fun r => r.src == h))
          ⟨[], 0, none, false, 0, 0⟩
        let corrs := match w.corr, at_ base, at_ a.ra.hor with
          | true, some b, some c => a.ra.corrs.filter (fun x => decide (x.plan.t0 < u)) ++ [startCorr o.params u (subKin (kinOf c) (kinOf b))]
          | _, _, _ => a.ra.corrs
        let a := { a with ra := { a.ra with corrs := corrs, lateCount := (a.ra.lateCount + w.late) % 2 ^ 32
                                            refineCount := (a.ra.refineCount + w.refine) % 2 ^ 32 } }
        let new := d.forecast n t o a
        let (a, more) := d.commitSources h p lead t T a new
        let fin := ((d.stream? h).map (fun s => s.final)).getD false
        let (ra, onPred, first) := commitRun fin a.ra more
        let lateEvs := match first with
          | some k => [report Evt.streamLate T (d32 h.toNat ++ d32 (k.tick % 1000000000 / p) ++ di64 (roundEven k.kin.p))]
          | none => []
        let d := d.setData n (.axis { a with ra := ra })
        let d := (d.orPar n Par.axisRaFlags (w.flags ||| (if onPred then 2 else 0))).postAll n (w.evs ++ lateEvs)
        let d := d.putHorizon n t new (causeOf a.ra.causes <|> w.cause) (if w.late = 0 then none else some u)
        if o.params.u Par.axisPredLimit < ra.predRun then
          d.axisFault n (faultEv Evt.streamLost T (d32 h.toNat ++ d16 ra.predRun)) t
        else d

/-! Stops by condition (R184, R185). -/

/-- Put an axis into a stop by condition; a geared axis leaves gearing, a member's group halts. -/
def MDie.condHalt (d : MDie) (n t : Nat) (ss1 : Bool) : MDie :=
  match d.axis? n with
  | none => d
  | some (o, a) =>
    match a.core.mode with
    | .path =>
      let d := d.setData n (.axis { a with core := { a.core with blkSs1 := a.core.blkSs1 || ss1, blkFbk := a.core.blkFbk || !ss1 } })
      match d.groupOf n with
      | some (g, _, p) =>
        -- an SS1 stop is weakened by nothing; a group that stops already goes on (R184, R195)
        if p.mode = 2 ∧ (!ss1 ∨ p.stopWhy = 3) then d else d.pathHalt g t ss1 (if ss1 then 3 else 4) false
      | none => d
    | m =>
      let r := if ss1 then ss1Stop o.params (a.free t) t else suspectStop o.params (a.free t) t
      let d := d.axisTake n t 3 { a with ra := a.ra.unlink } r
      if m = .geared then d.gearRelease n (if ss1 then 3 else Evt.fbkSuspect) t else d

/-- The conditions of one axis at class 0 tick `t`: SS1 wires seen, and the state of the bound channel. -/
def MDie.axisCondAt (d : MDie) (n t : Nat) : MDie :=
  match d.axis? n with
  | none => d
  | some (o, a) =>
    if o.life ≠ .enabled ∧ o.life ≠ .draining then d
    else
      let p := axisPeriod o.params
      let tk := t
      let wires := d.ss1Seen &&& o.params.u Par.axisSs1Source
      let d := if wires ≠ 0 ∧ ¬ a.core.blkSs1 then d.condHalt n tk true
        else if wires = 0 ∧ a.core.blkSs1 then d.setData n (.axis { a with core := { a.core with blkSs1 := false } })
        else d
      match d.find (o.params.h Par.axisFbk), d.axis? n with
      | some (_, fo), some (o, a) =>
        match fo.data with
        | .fbk f =>
          let h := d32 (o.params.h Par.axisFbk).toNat
          if o.life = .enabled ∧ bitOf f.sample.status 0 = false then d.axisFault n (faultEv Evt.feedbackLost t h) (Sys2Proof.Machine.tickOf p t)
          else if f.st = .recovery then
            let act := o.params.u Par.axisFbkAction
            if act = 1 ∧ o.life = .enabled ∧ ¬ a.core.blkFbk then d.condHalt n tk false
            else if act = 2 ∧ o.life = .enabled then d.axisFault n (faultEv Evt.fbkSuspect t h) (Sys2Proof.Machine.tickOf p t)
            else d
          else if a.core.blkFbk then d.setData n (.axis { a with core := { a.core with blkFbk := false } })
          else d
        | _ => d
      | _, _ => d

/-- An axis that drained to rest applies its standstill and enters DISABLED (R170); its receivers get the last record (R215). -/
def MDie.axisEnd (d : MDie) (n t : Nat) : MDie :=
  match d.axis? n with
  | none => d
  | some (o, a) =>
    let r := { streamRec (d.handle n) a.ra.commitNow ⟨t, ⟨a.cur.p, 0, 0⟩, a.ra.epoch, false⟩ with final := true }
    let d := d.streamOut n [r]
    match d.axis? n with
    | none => d
    | some (_, a) =>
      let core := { restAt a.core t a.cur.p with mode := .idle, draining := false, blkSs1 := false, blkFbk := false }
      (d.setData n (.axis { a with core := core, standstill := some (o.params.u Par.axisStandstill), ra := { a.ra with hor := [], causes := [] } })).toIdle n t

/-- The conditions of one axis at class 0 tick `t`; an axis at rest that faults between its own ticks is DISABLED at once (R170). -/
def MDie.axisCond (d : MDie) (n t : Nat) : MDie :=
  let d := d.axisCondAt n t
  match d.axis? n with
  | some (o, a) =>
    if o.life = .draining ∧ a.core.draining ∧ a.core.mode ≠ .path ∧ isTick (axisPeriod o.params) t = false ∧ atRest a.cur ∧ a.core.plan.endsAt ≤ t
    then d.axisEnd n t else d
  | none => d

/-- The wires as the Planner sees them at a class 0 tick: a change at least 1 µs old (R54, R184). -/
def MDie.seeSs1 (d : MDie) (t : Nat) : MDie :=
  match d.ss1Wire.find? (fun x => decide (x.2 + 1000 ≤ t)) with
  | some x => { d with ss1Seen := x.1, ss1Wire := d.ss1Wire.takeWhile (fun y => decide (t < y.2 + 1000)) ++ [x] }
  | none => d

/-! Gear links (R232). -/

/-- A waiting link engages at a tick of its slave. -/
def MDie.gearEngageAt (d : MDie) (l n t : Nat) : MDie :=
  match d.axis? n with
  | none => d
  | some (o, a) =>
    match d.engage (d.futOf n o a) t true with
    | some (x, es) => match x.link with
      | some y => if y.slot = l then
          ((d.setData l (.gear y.g)).setData n (.axis { x.a with ra := x.a.ra.note 8 })).postAll l es
        else d
      | none => d
    | none => d

/-- Checks of R235 on the horizon of a geared axis. -/
def MDie.gearChecks (d : MDie) (n t : Nat) : MDie :=
  match d.axis? n, d.linkOf n with
  | some (o, a), some (l, _, _) =>
    if a.core.mode ≠ .geared then d
    else
      let p := axisPeriod o.params
      let due := a.ra.hor.find? (fun h => h.tick == t + a.ra.commitNow * p)
      match due with
      | some h =>
        if o.params.i Par.axisVelLimit < (h.s.v.natAbs : Int) then d.gearFault l (faultEv Evt.gearOverspeed t (di64 h.s.v)) t
        else if o.params.u Par.axisSoftEn = 0 then d
        else
          let mx := o.params.i Par.axisSoftMax
          let mn := o.params.i Par.axisSoftMin
          match a.ra.hor.find? (fun h => decide ((mx * oneCount < h.s.p ∧ 0 < h.s.v) ∨ (h.s.p < mn * oneCount ∧ h.s.v < 0))) with
          | some h =>
            let up := decide (0 < h.s.v)
            (d.orPar n Par.axisFlags 4).axisFault n
              (faultEv Evt.softLimit t (d8 (if up then 1 else 0) ++ List.replicate 7 0 ++ di64 (if up then mx else mn))) t
          | none => d
      | none => d
  | _, _ => d

/-! Path groups (R194 … R197). -/

/-- Set-point position of a member at a point of the path. -/
def memberPos (ps : Params) (q : List Rat) (i : Nat) (cur : Int) : Int :=
  match q[i]? with
  | some x => (sampleOf ⟨x * pathScale ps i, 0, 0⟩).p
  | none => cur

/-- Members in mode PATH return to IDLE where the path rests, at the point `q` (R196, R197). -/
def MDie.membersIdle (d : MDie) (o : Obj) (q : List Rat) (t : Nat) : MDie :=
  (d.members o).foldl (fun d (x : Nat × Nat) => match d.axis? x.2 with
    | some (_, a) => if a.core.mode = .path then
        d.setData x.2 (.axis { a with core := { restAt a.core t (memberPos o.params q x.1 a.cur.p) with mode := if a.core.blkSs1 || a.core.blkFbk then .blocked else .idle } }) else d
    | none => d) d

/-- Members show `STOPPED` at the point `q` of the path (R195). -/
def MDie.membersStopped (d : MDie) (o : Obj) (q : List Rat) (why t : Nat) : MDie :=
  (d.members o).foldl (fun d (x : Nat × Nat) => match d.axis? x.2 with
    | some (m, a) => if a.core.mode = .path then
        let w := if why = 3 then d.ss1Seen &&& m.params.u Par.axisSs1Source else 0
        (d.setData x.2 (.axis { a with core := { a.core with stopCause := why } })).post x.2 (stoppedEv t why w (memberPos o.params q x.1 a.cur.p))
      else d
    | none => d) d

/-- Rest point of a group: its members' set-points in path units (R190). -/
def MDie.restPoint (d : MDie) (o : Obj) : List Rat :=
  (List.range 8).map (fun i => match d.find (o.params.h Par.pathMember i) with
    | some (_, m) => match m.data with
      | .axis a => posR a.cur.p / pathScale o.params i
      | _ => 0
    | none => 0)

/-- One tick of a group: segments passed, starvation, rest. -/
def MDie.pathTickAt (d : MDie) (n t : Nat) : MDie :=
  match d.path? n with
  | none => d
  | some (o, p) =>
    if o.life ≠ .enabled ∧ o.life ≠ .draining then d
    else
      let ms := d.memberLims o
      let (p1, es) := p.advance t 128
      let p1 := if es ≠ [] ∧ p1.mode = 1 then p1.replan o.params ms t else p1
      let live := p1.segs.filter (fun g => !g.done)
      let starve : Bool := p1.mode == 1 && !p1.starved && (match p1.starveAt with | some s => decide (s ≤ t) | none => false)
      let (p1, e2) := if starve then
          ({ p1 with starved := true }, [report Evt.pathStarved t (d16 ((live.head?.map (fun g => g.id)).getD p1.lastId) ++ List.replicate 6 0
             ++ di64 (roundEven ((p1.plan.at t).v * ((2 ^ 24 : Nat) : Rat))))]) else (p1, [])
      let d := (d.setData n (.path p1)).postAll n (es ++ e2)
      if ¬ p1.atRest t then d
      else if p1.mode = 1 ∧ live = [] then
        (d.setData n (.path { p1 with mode := 0 })).post n (report Evt.pathDone t (d16 p1.lastId))
      else if p1.mode = 2 ∨ (p1.draining ∧ p1.mode = 0) then
        let rest := p1.point t
        let d := if p1.mode = 2 ∧ p1.stopWhy ≠ 0 then d.membersStopped o rest p1.stopWhy t else d
        if p1.draining then
          let d := (d.setData n (.path { Path.create with segDone := p1.segDone, lastId := p1.lastId })).membersIdle o rest t
          d.toIdle n t
        else
          d.setData n (.path (p1.afterStop o.params ms t))
      else d

/-! Axes. -/

/-- Feedback position of an axis. -/
def MDie.feedbackOf (d : MDie) (o : Obj) : Option Int :=
  match d.find (o.params.h Par.axisFbk) with
  | some (_, fo) => match fo.data with | .fbk f => some f.sample.pos | _ => none
  | none => none

/-- The sample of one tick of an axis, and what it completes. -/
def MDie.axisTickAt (d : MDie) (n t : Nat) : MDie :=
  match d.axis? n with
  | none => d
  | some (o, a) =>
    if o.life ≠ .enabled ∧ o.life ≠ .draining then d
    else
      let wires := d.ss1Seen &&& o.params.u Par.axisSs1Source
      let r := d.tickOne n (d.futOf n o a) t wires
      let s := r.s
      let a' := { r.x.a with prev := a.cur, cur := s }
      let a' := { a' with core := axisRelease a'.core s }
      let (c, es) := inPosition o.params a'.core t (d.feedbackOf o)
      let d := (d.setData n (.axis { a' with core := c })).postAll n (r.evs ++ es)
      let d := match a.core.mode, r.x.link with
        | .geared, some l => if l.on then (d.setData l.slot (.gear l.g)).postAll l.slot r.linkEvs else d
        | _, _ => d
      if c.draining ∧ atRest s ∧ c.plan.endsAt ≤ t then d.axisEnd n t else d

/-- The sample of the tick in progress again, after a command took effect in it. -/
def MDie.resample (d : MDie) (n t : Nat) : MDie :=
  match d.axis? n with
  | none => d
  | some (o, a) =>
    if o.life ≠ .enabled ∨ a.core.mode = .geared ∨ a.core.mode = .path then d
    else
      let s := sampleOf (a.core.at t)
      let (c, es) := axisTick a.core s t 0
      let (c, es') := if es.any (fun e => e.code == Evt.moveDone) then inPosition o.params c t (d.feedbackOf o) else (c, [])
      (d.setData n (.axis { a with core := c, cur := s })).postAll n (es ++ es')

/-- Before the commands of the tick: sign changes of velocity that its samples show (R180). -/
def MDie.reversals (d : MDie) (t : Nat) : MDie :=
  (d.slotsOf .axis).foldl (fun d n => match d.axis? n with
    | some (o, a) =>
      if a.core.reversal.isSome ∧ isTick (axisPeriod o.params) t then
        (let (c, es) := reversalEv a.core (sampleOf (a.core.at t)) t
         (d.setData n (.axis { a with core := c })).postAll n es)
      else d
    | none => d) d

/-- One axis at class 0 tick `t`: engagement and sample at a tick of its own, its horizon, the checks of a geared one. -/
def MDie.axisTurn (d : MDie) (n t : Nat) (notes : List RecNote) : MDie :=
  match d.axis? n with
  | none => d
  | some (o, _) =>
    let p := axisPeriod o.params
    let tk := Sys2Proof.Machine.tickOf p t
    let d := if isTick p t then
        (let d := match d.linkOf n with | some (l, _, _) => d.gearEngageAt l n t | none => d
         d.axisTickAt n t)
      else d
    match d.axis? n with
    | none => d
    | some (_, a) => match d.sourceOf n a with
      | some h => if d.isRemote h then (d.remoteHorizon n t notes).gearChecks n tk else (d.horizonOf n tk).gearChecks n tk
      | none => if isTick p t ∨ a.ra.causes ≠ [] then d.horizonOf n tk else d

/-- The Planner island at class 0 tick `t`, after the commands of the tick: conditions, links, groups, samples, horizons. -/
def MDie.plannerTick (d : MDie) (t : Nat) (notes : List RecNote) : MDie :=
  let d := d.seeSs1 t
  let d := (d.slotsOf .axis).foldl (fun d n => d.axisCond n t) d
  let d := (d.slotsOf .path).foldl (fun d n => match d.path? n with
    | some (o, _) => if isTick (classPeriod (o.params.u Par.pathRateClass)) t then d.pathTickAt n t else d
    | none => d) d
  -- sources first: an axis that follows another of this die sees its new samples in the same tick (R207)
  d.axisOrder.foldl (fun d n => d.axisTurn n t notes) d

end Sys2Proof.Machine
end

