-- ==== Sys2Proof/Machine/Edges.lean ====
section
/-! DEFINITION. Compare events, capture channels and line clocks of a die (R228, R245 … R262): placing edges, edges that leave,
captures. -/

namespace Sys2Proof.Machine

open Sys2Proof

/-- Sample of a source at a tick (R163, R247). -/
def MDie.srcSample (d : MDie) (h : U32) (t : Nat) : KSample :=
  match d.find h with
  | some (_, o) => match o.data with
    | .axis a => match a.ra.hor.find? (fun x => x.tick == t) with
      | some x => x.s
      | none => a.cur
    | .fbk f => ⟨f.sample.pos, f.sample.speed, 0⟩
    | _ => ⟨0, 0, 0⟩
  | none => match d.srcKin h t with
    | some (k, _) => sampleOf k
    | none => ⟨0, 0, 0⟩

/-- Time at which the edges of the interval from `t0` to `t1` are placed (R228). -/
def MDie.placeTime (d : MDie) (h : U32) (t0 t1 : Nat) : Nat :=
  if d.isFbk h then t0 + 400 else max (t1 - d.srcLead h) (t0 - (t1 - t0))

/-- Is the interval that starts at `t0` to be placed by now? -/
def MDie.placeDue (d : MDie) (h : U32) (t0 t1 now : Nat) : Bool :=
  if d.isFbk h then decide (t0 ≤ now) else decide (d.placeTime h t0 t1 ≤ now)

/-! Compare events. -/

/-- Place the edges of an armed `EVT` with an `AXIS` source, interval by interval. -/
def MDie.evtPlace (d : MDie) (n now : Nat) : Nat → MDie
  | 0 => d
  | k + 1 =>
    match d.evt? n with
    | none => d
    | some (o, c) =>
      let h := o.params.h Par.evtSource
      if o.life ≠ .enabled ∨ c.st ≠ 1 ∨ d.isFbk h then d
      else
        let p := d.periodOfHandle h
        let t0 := Sys2Proof.Machine.tickOf p c.searched
        let t1 := t0 + p
        if d.placeDue h t0 t1 now = false then d
        else match d.srcKin h t0, d.srcKin h t1 with
          | some (a, _), some (b, _) =>
            let c' := c.extend o.params d.free (crossAxis (o.params.u Par.evtDir) t0 t1 (sampleOf a) (sampleOf b)) (d.placeTime h t0 t1) now t1
            let d := { d with free := d.free + (c'.placed.length - c.placed.length) }
            (d.setData n (.evt c')).evtPlace n now k
          | _, _ => d

/-- `EVT_ARM` takes effect at tick `t` (R247). -/
def MDie.evtArm (d : MDie) (n t : Nat) (b : List Byte) : MDie :=
  match d.evt? n with
  | none => d
  | some (o, c) =>
    let s := d.srcSample (o.params.h Par.evtSource) t
    let (c, es, fl) := c.arm o.params (posAt b 0) (rdI b 16 8).toNat (rdU b 12 4) s.p s.v t d.free
    let d := { d with free := d.free + 1 }
    ((((d.setData n (.evt c)).orPar n Par.evtFlags fl).postAll n es)).evtPlace n (max t d.ns) 1024

/-- A count step or snapshot of an `FBK` source crosses the armed position (R250): its edge leaves within the bounds of R254. -/
def MDie.evtFbk (d : MDie) (n : Nat) (cross : Int → Option (Nat × Int)) : Nat → MDie
  | 0 => d
  | k + 1 =>
    match d.evt? n with
    | none => d
    | some (o, c) =>
      let sc := c.scan
      if o.life ≠ .enabled ∨ c.st ≠ 1 ∨ moreFires sc.remain = false then d
      else match cross sc.next with
        | none => d
        | some (x, dir) =>
          if x < c.searched then d
          else
            let (d, r) := d.draw 1401
            let leave := x + 600 + r
            let near := match sc.last with | some l => decide (leave < l + 250) | none => false
            let e : EvtEdge := ⟨x, x, leave, sc.next, dir, false, false, near⟩
            (d.setData n (.evt { c with placed := c.placed ++ [e], searched := x + 1 })).evtFbk n cross k

/-- Level of a compare ball after an action; an edge is emitted where it changes. -/
def MDie.ballTo (d : MDie) (i : Nat) (b : CmpBall) (ns : Nat) : MDie :=
  let old := ((d.cmpOut[i]?).map (fun x => x.level)).getD false
  let d := { d with cmpOut := d.cmpOut.set i b }
  if old = b.level then d else d.emit (.edge (.cmpOut i) ns b.level)

/-- The first edge of an `EVT` leaves (R246, R248, R251). -/
def MDie.evtFire (d : MDie) (n : Nat) : MDie :=
  match d.evt? n with
  | none => d
  | some (o, c) =>
    match c.placed with
    | [] => d
    | e :: _ =>
      let dest := o.params.u Par.evtDest
      let kind := dest % 256
      let i := dest / 256
      let sw := if kind = 2 then (e.leave + 999) / 1000 * 1000 else e.leave
      -- of a late edge the later emission (R248), of another one from an `FBK` the pin time of the crossing (R250)
      let stamp := if d.isFbk (o.params.h Par.evtSource) ∧ ¬ (e.latePlace ∨ e.firedLate) then e.pin else sw
      let (c, es, fl) := c.fire o.params e sw stamp
      let c := if kind = 0 then { c with pulseEnd := none } else c
      let d := ((d.setData n (.evt c)).orPar n Par.evtFlags fl).postAll n es
      if e.skip then d
      else if kind = 1 then
        match d.cmpOut[i]? with
        | some b => d.ballTo i (b.act (o.params.u Par.evtAction) n (sw + o.params.u Par.evtPulseNs)) sw
        | none => d
      else if kind = 2 then
        match d.obj? (32 + i), d.field.chans[i]? with
        | some f, some ch => { d with field := { d.field with chans := d.field.chans.set i ((ch.evt f.params (o.params.u Par.evtAction) (o.params.u Par.evtPulseNs) sw).powered d.field.regulator) } }
        | _, _ => d
      else d

/-- The pulse of an `EVT` ends; a draining object becomes idle (R251). -/
def MDie.evtPulseEnd (d : MDie) (n : Nat) : MDie :=
  match d.evt? n with
  | none => d
  | some (o, c) =>
    match c.pulseEnd with
    | none => d
    | some t =>
      let dest := o.params.u Par.evtDest
      let d := d.setData n (.evt { c with pulseEnd := none })
      let d := if dest % 256 = 1 then
          match d.cmpOut[dest / 256]? with
          | some b => d.ballTo (dest / 256) (b.endPulse n) t
          | none => d
        else d
      if o.life = .draining then d.toIdle n (Sys2Proof.Machine.tickOf (d.period n) t) else d

/-! Line clocks. -/

/-- An output has placed edges from prediction for too long (R261): what has not left is withdrawn, and the output faults. -/
def MDie.lclkLost (d : MDie) (n now run : Nat) : MDie :=
  match d.lclk? n with
  | none => d
  | some (o, l) =>
    let d := d.setData n (.lclk { l with placed := l.placed.filter (fun e => decide (e.leave ≤ now)) })
    let d := d.faultPlain n (faultEv Evt.streamLost (Sys2Proof.Machine.tickOf (d.period n) now) (d32 (o.params.h Par.lclkSource).toNat ++ d16 run))
    if l.pulseEnd.isNone then d.toIdle n (Sys2Proof.Machine.tickOf (d.period n) now) else d

/-- Place the lines of an armed output, interval by interval. -/
def MDie.lclkPlace (d : MDie) (n now : Nat) : Nat → MDie
  | 0 => d
  | k + 1 =>
    match d.lclk? n with
    | none => d
    | some (o, l) =>
      let h := o.params.h Par.lclkSource
      if o.life ≠ .enabled ∨ ¬ l.armed ∨ l.done then d
      else
        let p := if d.isFbk h then 16000 else d.periodOfHandle h
        let t0 := Sys2Proof.Machine.tickOf p l.searched
        let t1 := t0 + p
        if d.placeDue h t0 t1 now = false then d
        else match d.srcKin h t0, d.srcKin h t1 with
          | some (a, _), some (b, pr) =>
            let r := placeLines o.params d.free t0 t1 (sampleOf a) (sampleOf b) (d.placeTime h t0 t1) now 4096 l.searched ⟨l, 0, 0, []⟩
            let remote := d.isRemote h
            let run := if remote && pr then r.l.predRun + 1 else 0
            let total := (o.params.u Par.lclkDropped + r.dropped) % 2 ^ 32
            let (l', es) := (r.l.trimPulse o.params now).overrun (Sys2Proof.Machine.tickOf (d.period n) now) r.delayed total
            let d := { d with free := d.free + r.l.nextK }
            let d := d.setData n (.lclk { l' with searched := t1, predRun := run })
            let d := d.setPar n Par.lclkDropped 0 (BitVec.ofNat 64 total)
            let d := (d.orPar n Par.lclkFlags ((if r.delayed = 0 then 0 else 1) + (if r.lates = [] then 0 else 2))).postAll n es
            if 0 < run ∧ o.params.u Par.lclkPredLimit ≤ run then d.lclkLost n now run
            else d.lclkPlace n now k
          | _, _ => d

/-- The first edge of an output leaves (R257). -/
def MDie.lclkFire (d : MDie) (n : Nat) : MDie :=
  match d.lclk? n with
  | none => d
  | some (o, l) =>
    match l.placed with
    | [] => d
    | e :: _ =>
      let (l', es) := l.fire o.params e (Sys2Proof.Machine.tickOf (d.period n) e.leave)
      let d := { (d.setData n (.lclk l')).postAll n es with lclkOut := d.lclkOut.set l.output true }
      d.emit (.edge (.lclkOut l.output) e.leave (o.params.u Par.lclkPolarity == 0))

/-- The pulse of an output ends (R257, R262). -/
def MDie.lclkPulseEnd (d : MDie) (n : Nat) : MDie :=
  match d.lclk? n with
  | none => d
  | some (o, l) =>
    match l.pulseEnd with
    | none => d
    | some t =>
      let d := { d.setData n (.lclk { l with pulseEnd := none }) with lclkOut := d.lclkOut.set l.output false }
      let d := d.emit (.edge (.lclkOut l.output) t (o.params.u Par.lclkPolarity == 1))
      if o.life = .draining then d.toIdle n (Sys2Proof.Machine.tickOf (d.period n) t) else d

/-- New delays of an output take effect (R259, R260). -/
def MDie.lclkReg (d : MDie) (n now : Nat) (delay : Int) : MDie :=
  match d.lclk? n with
  | none => d
  | some (o, l) =>
    if o.life ≠ .enabled then d
    else
      let (l', es) := (l.reg o.params delay).regDone o.params (Sys2Proof.Machine.tickOf (d.period n) now)
      (d.setData n (.lclk l')).postAll n es

/-- Records of a remote source bear on the edges of its outputs (R261). -/
def MDie.lclkNotes (d : MDie) (n T : Nat) (notes : List RecNote) : MDie :=
  match d.lclk? n with
  | none => d
  | some (o, l) =>
    let h := o.params.h Par.lclkSource
    let ns := notes.filter (fun r => r.src == h && (r.newer || r.diff != 0))
    if ns = [] ∨ o.life ≠ .enabled then d
    else
      let lead := d.srcLead h
      let u := firstUncommitted (d.periodOfHandle h) lead T
      let late := ns.any (fun r => decide (r.tick < u) && r.newer)
      let from_ := ns.foldl (fun m r => min m r.tick) (ns.head?.map (fun r => r.tick) |>.getD T)
      let cut := max T (if from_ < u then u else from_ - d.periodOfHandle h)
      (d.setData n (.lclk (l.withdraw cut))).orPar n Par.lclkFlags (if late then 4 else 0)

/-! Edges in time order. -/

/-- What comes next at an output: its time, 0 for the end of a pulse or 1 for an edge, the slot. -/
def MDie.edgeDue (d : MDie) : List (Nat × Nat × Nat) :=
  d.objects.flatMap (fun (x : Nat × Obj) => match x.2.data with
    | .evt c => (match c.pulseEnd with | some t => [(t, 0, x.1)] | none => [])
        ++ (match c.placed with | e :: _ => [(e.leave, 1, x.1)] | [] => [])
    | .lclk l => (match l.pulseEnd with | some t => [(t, 0, x.1)] | none => [])
        ++ (match l.placed with | e :: _ => [(e.leave, 1, x.1)] | [] => [])
    | _ => [])

/-- Order of the happenings at outputs: time, ends of pulses first, then slots (R251). -/
def dueBefore (a b : Nat × Nat × Nat) : Bool :=
  a.1 < b.1 || (a.1 = b.1 && (a.2.1 < b.2.1 || (a.2.1 = b.2.1 && a.2.2 < b.2.2)))

def firstDue : List (Nat × Nat × Nat) → Option (Nat × Nat × Nat)
  | [] => none
  | x :: r => match firstDue r with
    | none => some x
    | some y => if dueBefore y x then some y else some x

/-- One happening at an output. -/
def MDie.edgeDo (d : MDie) (x : Nat × Nat × Nat) : MDie :=
  match d.obj? x.2.2 with
  | none => d
  | some o => match o.data, x.2.1 with
    | .evt _, 0 => d.evtPulseEnd x.2.2
    | .evt _, _ => d.evtFire x.2.2
    | .lclk _, 0 => d.lclkPulseEnd x.2.2
    | .lclk _, _ => d.lclkFire x.2.2
    | _, _ => d

/-- Everything that happens at outputs before a time. -/
def MDie.edgesBefore (d : MDie) (t : Nat) : Nat → MDie
  | 0 => d
  | k + 1 => match firstDue d.edgeDue with
    | some x => if x.1 < t then (d.edgeDo x).edgesBefore t k else d
    | none => d

/-- Place what is due at class 0 tick `t`, and report changes of delay (R259). -/
def MDie.edgesTick (d : MDie) (t : Nat) (notes : List RecNote) : MDie :=
  let d := (d.slotsOf .evt).foldl (fun d n => d.evtPlace n t 1024) d
  (d.slotsOf .lclk).foldl (fun d n =>
    let d := (d.lclkNotes n t notes).lclkPlace n t 4
    match d.lclk? n with
    | some (o, l) =>
      if o.life = .enabled ∧ isTick (d.periodOfHandle (o.params.h Par.lclkSource)) t then
        let (l', es) := l.regDone o.params t
        (d.setData n (.lclk l')).postAll n es
      else d
    | none => d) d

/-! Captures (R252, R253). -/

/-- Position of a capture source at a pin time. -/
def MDie.captPos (d : MDie) (h : U32) (pin : Nat) : Int :=
  if h = 0 then 0
  else match d.find h with
    | some (_, o) => match o.data with
      | .axis a =>
        let p := axisPeriod o.params
        match a.ra.hor with
        | [] => a.cur.p
        | x :: _ => match samplesAt (⟨x.tick - p, a.prev, 0, false⟩ :: a.ra.hor) false pin with
          | some (k, _) => roundEven (k.p * unitR)
          | none => a.prev.p
      | .fbk f =>
        let (p, ts) := snapOf f.type f.src
        let p := (if o.params.u Par.fbkDir = 1 then -p else p) + f.offset
        p + divOpen 11 (f.sample.speed * 256 * ((pin : Int) - ts)) (10 ^ 9)
      | _ => 0
    | none => 0

/-- An edge at a trigger input: 0 `CAP_IN`, 1 `FIO`; every channel that selects it sees it and may capture. -/
def MDie.captEdge (d : MDie) (kind index : Nat) (rising : Bool) (pin width : Nat) : MDie :=
  (d.slotsOf .capt).foldl (fun d n => match d.capt? n with
    | some (o, c) =>
      if o.life = .enabled ∧ o.params.u Par.captTrigger = kind + 256 * index then
        let (c, takes) := captSee o.params c rising pin width
        let hit := if takes then
            c.capture o.params (d.captPos (o.params.h Par.captSource 0) pin) (d.captPos (o.params.h Par.captSource 1) pin) pin
          else none
        match hit with
        | some (c', es) => (d.setData n (.capt c')).postAll n es
        | none => d.setData n (.capt c)
      else d
    | none => d) d

/-- The deglitch of a `CAP_IN` ball (R136, R252): a level of less than 5 ns is ignored, and the return from it is no edge. -/
def MDie.capBall (d : MDie) (ball : Nat) (level : Bool) (pin width : Nat) : MDie :=
  let d := { d with capIn := d.capIn.set ball level }
  let passed : Bool := decide (10 ≤ width) || (decide (5 ≤ width) && Config.pulsePassed pin (4096 + ball) 0)
  if !passed || d.capSeen.getD ball false == level then d
  else { d with capSeen := d.capSeen.set ball level }.captEdge 0 ball level pin width

/-- The level of a trigger input at the enable of a channel. -/
def MDie.captLevel (d : MDie) (ps : Params) : Bool :=
  let t := ps.u Par.captTrigger
  if t % 256 = 0 then d.capSeen.getD (t / 256) false
  else match d.obj? (32 + t / 256), d.field.chans[t / 256]? with
    | some o, some ch => xor ch.inp.level (o.params.u Par.fioInvert == 1)
    | _, _ => false

end Sys2Proof.Machine
end

