-- ==== Sys2Proof/Machine/Checks.lean ====
section
/-! DEFINITION. What a check of R70 answers, checks on handle values (R17, R29), and who references an object (R35). -/

namespace Sys2Proof.Machine

open Sys2Proof

/-- The first failing check of R70: its number (7 … 12), the status and the results of the refusal. None: all pass. -/
abbrev Bad := Option (Nat × Status × Result)

def bad (n : Nat) (s : Status) : Bad := some (n, s, noResult)

/-- `BUSY` with the handle of what is in the way (R35). -/
def busyOf (h : U32) : Bad := some (10, .busy, ⟨h.setWidth 64, 0⟩)

/-- A refusal under a condition. -/
def badIf (c : Bool) (n : Nat) (s : Status) : Bad := if c then bad n s else none

/-- The refusal with the lowest check number, the first of those. -/
def firstBad : List Bad → Bad
  | [] => none
  | none :: r => firstBad r
  | some x :: r => match firstBad r with
    | none => some x
    | some y => if y.1 < x.1 then some y else some x

/-- Refuse unless the object is ENABLED. -/
def needEnabled (o : Obj) : Bad := badIf (o.life != .enabled) 10 .wrongState

/-- Does a handle value name an object of one of the classes, with the node it may have? -/
def namesClass (d : MDie) (v : U64) (own any : List Class) : Bool :=
  let h := v.setWidth 32
  decide (v.toNat < 2 ^ 32) && (match classOfCode (hClass h) with
    | some c => any.contains c || (own.contains c && d.isOwn h)
    | none => false)

/-- Binding of a handle parameter (R17): classes of this die, classes of any die; another handle is refused with `BAD_PARAM`. -/
def bindBad (d : MDie) (v : U64) (own any : List Class) : Bad :=
  badIf (v != 0 && decide (v.toNat < 2 ^ 32) && !namesClass d v own any) 8 .badParam

/-- A handle parameter of an axis: another class is refused with `WRONG_CLASS` (R167), another node as R17 states. -/
def bindClassBad (d : MDie) (v : U64) (c : Class) : Bad :=
  if v = 0 ∨ 2 ^ 32 ≤ v.toNat then none
  else if classOfCode (hClass (v.setWidth 32)) ≠ some c then bad 8 .wrongClass
  else badIf (!d.isOwn (v.setWidth 32)) 8 .badParam

/-- Does a handle name an object of this die in a life state? -/
def MDie.isLife (d : MDie) (h : U32) (l : Life) : Bool := match d.find h with | some (_, o) => o.life == l | none => false

/-- Number of objects of a class. -/
def MDie.countOf (d : MDie) (c : Class) : Nat := (d.slotsOf c).length

/-- Handles an object holds: its handle parameters (R264 … R268 and the like), and the cam tables of a link. -/
def Obj.holds (o : Obj) (h : U32) : Bool :=
  o.params.any (fun (x : Nat × U64) => x.2 == h.setWidth 64 && (match paramRow? (x.1 / 65536) with
    | some r => match r.rng with
      | .handle _ _ => true
      | _ => false
    | none => false))
  || (match o.data with
    | .gear g => o.life == .enabled && (g.camNow == h || g.camArmed == some h)
    | _ => false)

/-- The first object, other than itself, that references the object in a slot (R35). -/
def MDie.refTo (d : MDie) (n : Nat) : Option U32 :=
  let h := d.handle n
  (d.objects.find? (fun (x : Nat × Obj) => x.1 != n && x.2.holds h)).map (fun (x : Nat × Obj) => d.handle x.1)


end Sys2Proof.Machine
end

