-- ==== Sys2Proof/Machine/MotionObj.lean ====
section
/-! DEFINITION. Axes and path groups as objects: refusals, creation, enable, parameters, opcodes (R166 … R200, R225). -/

namespace Sys2Proof.Machine

open Sys2Proof

def statBad (n : Nat) (s : Option Status) : Bad := match s with | some x => bad n x | none => none

/-! `AXIS`. -/

def axisPar (d : MDie) (id : Nat) (v : U64) : Bad :=
  if id = Par.axisFbk then bindClassBad d v .fbk
  else if id = Par.axisLgrp then bindClassBad d v .lgrp
  else none

/-- R166. -/
def axisCreateBad (d : MDie) (word : Nat) : Bad := firstBad [badIf (word != 0) 8 .badParam, badIf (decide (64 ≤ d.countOf .axis)) 11 .noResource]

/-- R168, R206. -/
def axisEnableBad (d : MDie) (o : Obj) : Bad :=
  let f := o.params.h Par.axisFbk
  let l := o.params.h Par.axisLgrp
  let grp : Bool := l == 0 || (match d.find l with
    | some (_, g) => g.params.u Par.lgrpRateClass == o.params.u Par.axisRateClass
    | none => false)
  badIf (!axisEnableParams o.params || (f != 0 && !d.isLife f .enabled) || !grp
    || decide (o.params.u Par.axisHorizon < o.params.u Par.axisCommitDist)) 10 .wrongState

/-- The axis starts where its channel publishes (R168). -/
def MDie.axisEnableDo (d : MDie) (n t : Nat) : MDie :=
  match d.axis? n with
  | none => d
  | some (o, a) =>
    let p := match d.find (o.params.h Par.axisFbk) with
      | some (_, f) => match f.data with
        | .fbk x => x.sample.pos
        | _ => 0
      | none => 0
    let w := (d.seeSs1 t).ss1Seen &&& o.params.u Par.axisSs1Source
    let (a', es) := axisEnable a t p w
    (d.setData n (.axis a')).postAll n es

/-- A member of an ENABLED group is not disabled (R188). -/
def MDie.axisDisableBad (d : MDie) (n : Nat) : Bad :=
  match d.groupOf n with
  | some (g, o, _) => if o.life = .enabled then busyOf (d.handle g) else none
  | none => none

/-- Read-only parameters of an axis (R198, R225). -/
def MDie.axisRead (d : MDie) (n : Nat) (o : Obj) (a : Axis) (id : Nat) : Option Int :=
  let frac (p : Int) : Int := p % oneCount
  if id = Par.axisMode then some a.core.shown.code
  else if id = Par.axisSetPos then some (counts a.cur.p)
  else if id = Par.axisSetFrac then some (frac a.cur.p)
  else if id = Par.axisSetVel then some a.cur.v
  else if id = Par.axisSetAcc then some a.cur.a
  else if id = Par.axisTarget then some (counts a.core.target)
  else if id = Par.axisTargetFrac then some (frac a.core.target)
  else if id = Par.axisTargetVel then some a.core.targetVel
  else if id = Par.axisStopCause then some a.core.stopCause
  else if id = Par.axisPath then some (match d.groupOf n with | some (g, _, _) => (d.handle g).toNat | none => 0)
  else if id = Par.axisEpoch then some (match a.ra.hor with | h :: _ => h.epoch | [] => a.ra.epoch)
  else if id = Par.axisCommitNow then some (d.leadOf n o a)
  else if id = Par.axisRaFlags then some ((o.params.u Par.axisRaFlags ||| (if (a.ra.corrAt (d.tickOf n)).isSome then 8 else 0) : Nat))
  else if id = Par.axisEpochCount then some a.ra.epochCount
  else if id = Par.axisEpochCause then some a.ra.epochCause
  else if id = Par.axisLateCount then some a.ra.lateCount
  else if id = Par.axisRefineCount then some a.ra.refineCount
  else if id = Par.axisStaleRecords then some a.ra.staleRecords
  else none

/-- The accepted motion commands for an axis that have not taken effect, in order of acceptance. -/
def MDie.motionsAhead (d : MDie) (n : Nat) : List Action := (d.actsFor n).filter (fun a => isMotion a.op)

/-- The target of the last accepted motion command, where that is a `MOVE_ABS` or `MOVE_REL`: the base of the next `MOVE_REL` (R172). -/
inductive RelBase where
  /-- It is the set-point at the tick of the move. -/
  | setPoint
  | target (p : Int)
  /-- The target of a `MOVE_REL` from a set-point that has not taken effect. -/
  | unknown
  deriving DecidableEq, Repr

def RelBase.known : RelBase → Option Int
  | .target p => some p
  | _ => none

def MDie.relBaseOf (d : MDie) (n : Nat) (a : Axis) : RelBase :=
  if !a.core.lastIsTarget then .setPoint
  else match (d.motionsAhead n).getLast? with
    | some x => if x.op = .moveAbs then .target (posAt x.pkt.body 0) else .unknown
    | none => .target a.core.target

/-- A `MOVE_REL` whose base is known at its acceptance is the `MOVE_ABS` to the sum; one from an unknown target is marked (R172). -/
def MDie.fixRel (d : MDie) (op : Op) (p : Pkt) : Op × Pkt × Bool :=
  match op, d.find p.target with
  | .moveRel, some (n, o) => match o.data with
    | .axis a => match d.relBaseOf n a with
      | .target b =>
        let x := b + posAt p.body 0
        (.moveAbs, { p with body := di64 (counts x) ++ d32 (x % oneCount).toNat ++ List.replicate 4 0 }, false)
      | .unknown => (op, p, true)
      | .setPoint => (op, p, false)
    | _ => (op, p, false)
  | _, _ => (op, p, false)

/-- The last accepted motion command of an axis is noted (R172). -/
def MDie.noteMotion (d : MDie) (op : Op) (h : U32) : MDie :=
  match d.find h with
  | some (n, o) => match o.data with
    | .axis a => if isMotion op then d.setData n (.axis { a with core := { a.core with lastIsTarget := op == .moveAbs || op == .moveRel } }) else d
    | _ => d
  | none => d

/-- Refusals of the opcodes of R200 aimed at an axis. -/
def MDie.axisOpBad (d : MDie) (n : Nat) (op : Op) (o : Obj) (a : Axis) (b : List Byte) : Bad :=
  let mode := statBad 10 (moveModeCheck a.core)
  match op with
  | .moveAbs => firstBad [needEnabled o, mode, statBad 9 (softStatic o.params (posAt b 0))]
  | .moveRel => firstBad [needEnabled o, mode, statBad 9 (relStatic o.params (d.relBaseOf n a).known (posAt b 0))]
  | .moveVel => firstBad [needEnabled o, mode, statBad 9 (velRange o.params (rdI b 0 8)), statBad 12 (velOutward o.params (rdI b 0 8) a.cur.p)]
  | .moveHold => firstBad [needEnabled o, mode]
  | .stop | .stopQuick => firstBad [needEnabled o, badIf (a.core.mode == .path) 10 .wrongState]
  | .axisGetSample => needEnabled o
  | _ => none

/-- `AXIS_GET_SAMPLE`. -/
def MDie.axisSample (d : MDie) (n : Nat) (o : Obj) (a : Axis) : Result :=
  let ep : Nat := ((d.axisRead n o a Par.axisEpoch).getD 0).toNat
  ⟨image64 (counts a.cur.p), BitVec.ofNat 64 ((a.cur.p % oneCount).toNat + ep * 2 ^ 32 + a.core.shown.code * 2 ^ 48)⟩

/-! `PATH`. -/

def MDie.pathPar (d : MDie) (n id : Nat) (v : U64) : Bad :=
  if id = Par.pathMember then
    firstBad [bindBad d v [.axis] [],
      match d.objects.find? (fun (x : Nat × Obj) => x.1 != n && (match x.2.data with
          | .path _ => v != 0 && (List.range 8).any (fun i => x.2.params.get Par.pathMember i == v)
          | _ => false)) with
      | some (g, _) => busyOf (d.handle g)
      | none => none]
  else none

/-- R187. -/
def pathCreateBad (d : MDie) (word : Nat) : Bad := firstBad [badIf (word != 0) 8 .badParam, badIf (decide (8 ≤ d.countOf .path)) 11 .noResource]

/-- R188. -/
def MDie.pathEnableBad (d : MDie) (o : Obj) : Bad :=
  let named := (List.range 8).filter (fun i => o.params.u Par.pathMember i != 0)
  let ok := named.all (fun i => match d.find (o.params.h Par.pathMember i) with
    | some (_, m) => match m.data with
      | .axis a => m.life == .enabled && a.core.mode == .idle && m.params.u Par.axisRateClass == o.params.u Par.pathRateClass
      | _ => false
    | none => false)
  badIf (named == [] || !ok || o.params.u Par.pathVel == 0 || o.params.u Par.pathAccel == 0 || o.params.u Par.pathDecel == 0
    || o.params.u Par.pathQuickDecel == 0) 10 .wrongState

/-- Every member enters PATH (R188). -/
def MDie.pathEnableDo (d : MDie) (n t : Nat) : MDie :=
  match d.path? n with
  | none => d
  | some (o, _) =>
    let d := d.setData n (.path { Path.create with plan := Plan.rest t 0, hold := d.restPoint o })
    (d.members o).foldl (fun d (x : Nat × Nat) => match d.axis? x.2 with
      | some (_, a) => d.setData x.2 (.axis { a with core := { a.core with mode := .path, goal := .rest, inPos := none } })
      | none => d) d

/-- The drain of a group (R197); a quick stop in progress keeps its ramp. -/
def MDie.pathDrain (d : MDie) (n t : Nat) : MDie :=
  match d.path? n with
  | none => d
  | some (o, p) =>
    if p.mode = 0 then
      (d.setData n (.path { Path.create with segDone := p.segDone, lastId := p.lastId })).membersIdle o (p.point t) t |>.toIdle n t
    else if p.mode = 2 then d.setData n (.path { p with draining := true, next := [] })
    else d.pathHalt n t false 0 true

def MDie.pathRead (p : Path) (t id : Nat) : Option Int :=
  if id = Par.pathMode then some p.mode
  else if id = Par.pathQueued then some p.queued
  else if id = Par.pathSegId then some (((p.segs.filter (fun g => !g.done)).head?.map (fun g => g.id)).getD p.lastId)
  else if id = Par.pathSegDone then some p.segDone
  else if id = Par.pathSpeed then some (roundEven ((p.plan.at t).v * ((2 ^ 24 : Nat) : Rat)))
  else none

/-- Members note a replanning of their group (R210). -/
def MDie.noteMembers (d : MDie) (o : Obj) : MDie :=
  (d.members o).foldl (fun d (x : Nat × Nat) => match d.axis? x.2 with
    | some (_, a) => d.setData x.2 (.axis { a with ra := a.ra.note 9 })
    | none => d) d

/-- A limit or feed scale written while the group runs replans from the tick (R193, R210). -/
def MDie.pathWritten (d : MDie) (n t id : Nat) : MDie :=
  match d.path? n with
  | none => d
  | some (o, p) =>
    if p.mode ≠ 1 ∨ ¬ isPathLimit id then d
    else (d.setData n (.path (p.replan o.params (d.memberLims o) t))).noteMembers o

/-- A limit of an axis is written: its plan follows (R179), or that of the group of which it is a running member (R193). -/
def MDie.axisWritten (d : MDie) (n t id : Nat) : MDie :=
  match d.axis? n with
  | none => d
  | some (_, a) =>
    if a.core.mode = .path ∧ (id = Par.axisVelLimit ∨ id = Par.axisAccel) then
      match d.groupOf n with
      | some (g, o, p) => if p.mode = 1 then (d.setData g (.path (p.replan o.params (d.memberLims o) t))).noteMembers o else d
      | none => d
    else d.axisDo n t (.limit id)

/-- Start of the next segment (R190). -/
def MDie.segStart (d : MDie) (o : Obj) (p : Path) : List Rat := p.startPoint.getD (d.restPoint o)

/-- Is a member of the group held by a condition (R184, R185)? -/
def MDie.pathBlocked (d : MDie) (o : Obj) : Bool :=
  (d.members o).any (fun (x : Nat × Nat) => match d.axis? x.2 with
    | some (_, a) => a.core.blkSs1 || a.core.blkFbk
    | none => false)

def MDie.pathOpBad (d : MDie) (op : Op) (n : Nat) (o : Obj) (p : Path) (b : List Byte) : Bad :=
  match op with
  | .pathLine | .pathArc =>
    let used (i : Nat) : Bool := o.params.u Par.pathMember i != 0
    let ends := if op = .pathArc then 32 else 16
    let g := pathSeg op o.params b (d.segStart o p)
    -- a stop accepted for a later tick has not ended (R191)
    let stopping : Bool := p.mode == 2 || d.rm.actions.any (fun a => (a.op == .stop || a.op == .stopQuick) && d.isOwn a.pkt.target && hSlot a.pkt.target == n)
    let arc : Bad := match arcCheck o.params g used stopping with
      | some .badParam => bad 8 .badParam
      | some .wrongState => bad 10 .wrongState
      | some s => bad 12 s
      | none => none
    firstBad [needEnabled o, badIf ((List.range 8).any (fun i => !used i && rdU b (ends + 8 * i) 8 != 0)) 8 .badParam, arc,
      badIf (decide (rdI b 8 8 < 0)) 9 .outOfRange, badIf (d.pathBlocked o) 10 .faulted, badIf (decide (64 ≤ p.queued)) 11 .noResource]
  | .pathFlush | .stop | .stopQuick => needEnabled o
  | _ => none

/-- `PATH_LINE`, `PATH_ARC` (R190). A segment that was accepted before a member was blocked is not run while it is (R184, R185). -/
def MDie.pathAppend (d : MDie) (op : Op) (n t : Nat) (b : List Byte) : MDie :=
  match d.path? n with
  | none => d
  | some (o, p) =>
    if o.life ≠ .enabled ∨ 64 ≤ p.queued ∨ d.pathBlocked o then d
    else (d.setData n (.path (p.append o.params (d.memberLims o) (pathSeg op o.params b (d.segStart o p)) t))).noteMembers o

/-- `PATH_FLUSH` (R195). -/
def MDie.pathFlush (d : MDie) (n t : Nat) : MDie × Result :=
  match d.path? n with
  | none => (d, noResult)
  | some (o, p) =>
    if o.life ≠ .enabled then (d, noResult)
    else
      let (p', gone) := p.flush o.params (d.memberLims o) t
      let d := d.setData n (.path p')
      (if p.mode = 1 then d.noteMembers o else d, ⟨BitVec.ofNat 64 gone, 0⟩)

/-- `STOP`, `STOP_QUICK` of a group (R195). -/
def MDie.pathStop (d : MDie) (n t : Nat) (quick : Bool) : MDie :=
  match d.path? n with
  | none => d
  | some (o, p) => if o.life ≠ .enabled ∨ p.stopHeld quick then d else d.pathHalt n t quick (if quick then 2 else 1) false

/-! Effects. -/

/-- Effect of an Ephemeris opcode at tick `t`. -/
def MDie.motionDo (d : MDie) (op : Op) (n t : Nat) (b : List Byte) : MDie × Result :=
  match op with
  | .pathLine | .pathArc => (d.pathAppend op n t b, noResult)
  | .pathFlush => d.pathFlush n t
  | .axisGetSample => (d, match d.axis? n with | some (o, a) => d.axisSample n o a | none => noResult)
  | _ => match d.path? n, motionCmd op b with
    | some _, _ => (d.pathStop n t (op == .stopQuick), noResult)
    | none, some c => (d.axisDo n t c, noResult)
    | none, none => (d, noResult)

end Sys2Proof.Machine
end

