-- ==== Sys2Proof/Machine/OrreryObj.lean ====
section
/-! DEFINITION. Gear links, cams, compare events, captures and line clocks as objects: refusals, creation, enable, binding to
sources on other nodes, parameters, opcodes (R229 … R269). -/

namespace Sys2Proof.Machine

open Sys2Proof

/-! Sources on other nodes (R231). -/

/-- Bind to a source on another node, unless its stream is bound already: `XTAG` 1, the source's handle. -/
def MDie.bindSource (d : MDie) (h : U32) : MDie :=
  if !d.isRemote h || (d.stream? h).isSome then d
  else
    let d := { d with streams := d.streams ++ [(⟨h, none, [], 0, 0, false⟩ : SrcStream)] }
    d.send (d.packet 6 (hNode h) 1 h [])

/-- The source an object consumes. -/
def Obj.source (o : Obj) : U32 :=
  match o.data with
  | .gear _ => o.params.h Par.gearMaster
  | .lclk _ => o.params.h Par.lclkSource
  | _ => 0

/-- Is a source still consumed by an object that is ENABLED or draining? -/
def MDie.consumed (d : MDie) (h : U32) : Bool :=
  d.objects.any (fun (x : Nat × Obj) => (x.2.life == .enabled || x.2.life == .draining) && x.2.source == h)

/-- Streams without a consumer end: the receiver is removed at the source (R231). -/
def MDie.dropStreams (d : MDie) : MDie :=
  let gone := d.streams.filter (fun s => !d.consumed s.src)
  gone.foldl (fun d s => d.send (d.packet 6 (hNode s.src) 0 s.src [])) { d with streams := d.streams.filter (fun s => d.consumed s.src) }

/-- Refusal of a source on another node (R230, R255). Whether its 32 receivers are taken is known there alone: a free value (log 13). -/
def MDie.remoteBad (d : MDie) (h : U32) : Bad :=
  if !d.isRemote h || (d.stream? h).isSome then none
  else firstBad [badIf (!d.reachable (hNode h)) 10 .unreachable, badIf (decide (Config.free d.free 2 % 2 = 1)) 11 .noResource]

/-! `GEAR`. -/

def gearPar (d : MDie) (id : Nat) (v : U64) : Bad :=
  if id = Par.gearMaster then bindBad d v [.fbk] [.axis]
  else if id = Par.gearSlave then bindBad d v [.axis] []
  else if id = Par.gearCam then bindBad d v [.cam] []
  else none

def gearCreateBad (d : MDie) (word : Nat) : Bad := firstBad [badIf (word != 0) 8 .badParam, badIf (decide (128 ≤ d.countOf .gear)) 11 .noResource]

/-- Modes in which a link may engage (R230, R232). -/
def engageable (m : AxisMode) : Bool := m == .idle || m == .position || m == .velocity

/-- R230; a slave already linked is reported before its mode (log 32). -/
def MDie.gearEnableBad (d : MDie) (n : Nat) (o : Obj) : Bad :=
  let m := o.params.h Par.gearMaster
  let c := o.params.h Par.gearCam
  match d.find (o.params.h Par.gearSlave) with
  | some (s, so) =>
    match so.data with
    | .axis a =>
      let linked : Bad := match d.linkOf s with
        | some (l, _, _) => if l = n then none else busyOf (d.handle l)
        | none => none
      if m = 0 ∨ so.life ≠ .enabled ∨ (c ≠ 0 ∧ d.isLife c .enabled = false) ∨ (!d.isRemote m && (d.find m).isNone) then bad 10 .wrongState
      else match linked with
        | some x => some x
        | none => if engageable a.core.mode then d.remoteBad m else bad 10 .wrongState
    | _ => bad 10 .wrongState
  | none => bad 10 .wrongState

/-- The link waits, and engages at once where master data is held (R231, R232). -/
def MDie.gearEnableDo (d : MDie) (n t : Nat) : MDie :=
  match d.gear? n with
  | none => d
  | some (o, _) =>
    let d := (d.setData n (.gear Gear.create)).bindSource (o.params.h Par.gearMaster)
    match d.find (o.params.h Par.gearSlave) with
    | some (s, _) => d.gearEngageAt n s t
    | none => d

def MDie.gearRead (d : MDie) (o : Obj) (g : Gear) (id : Nat) : Option Int :=
  let corr : Bool := match d.find (o.params.h Par.gearSlave) with
    | some (n, so) => match so.data with
      | .axis a => (a.ra.corrAt (d.tickOf n)).isSome
      | _ => false
    | none => false
  if id = Par.gearNumNow then some (if g.engaged then g.law.num else o.params.i Par.gearNum)
  else if id = Par.gearDenNow then some (if g.engaged then g.law.den else o.params.u Par.gearDen)
  else if id = Par.gearState then some (g.stateCode corr)
  else if id = Par.gearArmed then some g.armedCode
  else if id = Par.gearCamNow then some g.camNow.toNat
  else if id = Par.gearCycles then some (match d.camTabOf g.camNow with
    | some c => if g.engaged then c.cycle (g.law.x g.prevM).1 else 0
    | none => 0)
  else none

def gearOpBad (d : MDie) (op : Op) (o : Obj) (b : List Byte) : Bad :=
  match op with
  | .gearRatio => firstBad [needEnabled o, badIf (rdU b 24 1 % 4 == 3) 8 .badParam, badIf (rdU b 12 4 == 0) 9 .outOfRange]
  | .gearCamSwitch =>
    let h := BitVec.ofNat 64 (rdU b 0 4)
    firstBad [needEnabled o, badIf (o.params.h Par.gearCam == 0 || !namesClass d h [.cam] []) 8 .badParam]
  | .gearShift => firstBad [needEnabled o, badIf (decide (rdU b 16 8 = 0 ∨ 2 ^ 62 < rdU b 16 8)) 9 .outOfRange]
  | _ => none

/-- A change of the slave's plan by a gear command (R210). -/
def MDie.noteSlave (d : MDie) (o : Obj) : MDie :=
  match d.find (o.params.h Par.gearSlave) with
  | some (s, so) => match so.data with
    | .axis a => d.setData s (.axis { a with ra := a.ra.note 8 })
    | _ => d
  | none => d

/-- `GEAR_RATIO`, `GEAR_CAM_SWITCH`, `GEAR_SHIFT` at tick `t` (R236, R237, R244). -/
def MDie.gearDo (d : MDie) (op : Op) (n t : Nat) (b : List Byte) : MDie :=
  match d.gear? n with
  | none => d
  | some (o, g) =>
    if o.life ≠ .enabled then d
    else
      let kin := if g.engaged then (d.srcKin (o.params.h Par.gearMaster) t).map (fun (x : Kin × Bool) => x.1) else none
      let r := gearCmd g (d.gearTab g) kin op b t
      ((d.setData n (.gear r.1)).postAll n r.2).noteSlave o

/-! `CAM` (R240 … R242). -/

def camCreateBad (d : MDie) (word : Nat) : Bad :=
  let np := word % 32768
  firstBad [badIf (decide (32768 ≤ word)) 8 .badParam, badIf (decide (np < 2 ∨ 16384 < np)) 9 .outOfRange,
    badIf (decide (32 ≤ d.countOf .cam) || (d.mem.alloc (camBytes np) 4096 true).isNone) 11 .noResource]

/-- The table's space is taken (R240). -/
def MDie.camCreate (d : MDie) (n word : Nat) : MDie × ObjData :=
  let np := word % 32768
  match d.mem.alloc (camBytes np) n true with
  | some (m, a) => ({ d with mem := m }, .cam ⟨np, a, camBytes np⟩)
  | none => (d, .cam ⟨np, 0, 0⟩)

/-- The check of the table (R242). -/
def MDie.camEnableBad (d : MDie) (c : Cam) : Bad :=
  match camCheck (d.mem.sram.readN c.addr (64 + 8 * c.points)) c.points with
  | some cause => some (10, .badParam, ⟨0, BitVec.ofNat 64 cause⟩)
  | none => none

/-- The first link that uses a table (R242). -/
def MDie.camUser (d : MDie) (n : Nat) : Option U32 :=
  let h := d.handle n
  (d.objects.find? (fun (x : Nat × Obj) => match x.2.data with
    | .gear g => x.2.life == .enabled && (x.2.params.h Par.gearCam == h || g.camNow == h || g.camArmed == some h)
    | _ => false)).map (fun (x : Nat × Obj) => d.handle x.1)

def MDie.camRead (d : MDie) (c : Cam) (id : Nat) : Option Int :=
  if id = Par.camPoints then some c.points
  else if id = Par.camAddr then some c.addr
  else if id = Par.camBytes then some c.bytes
  else if id = Par.camPoolFree then some d.mem.poolFree
  else none

/-! `EVT` (R245 … R251). -/

def evtPar (d : MDie) (id : Nat) (v : U64) : Bad :=
  if id = Par.evtSource then bindBad d v [.axis, .fbk] []
  else if id = Par.evtDest then
    let k := v.toNat % 256
    let i := v.toNat / 256
    badIf (decide (2 ^ 16 ≤ v.toNat ∨ 2 < k ∨ (k = 0 ∧ i ≠ 0) ∨ (k = 1 ∧ 7 < i) ∨ (k = 2 ∧ 31 < i))) 9 .outOfRange
  else none

/-- `EVT` and `CAPT` share 512 slots. -/
def evtCreateBad (d : MDie) (word : Nat) : Bad :=
  firstBad [badIf (word != 0) 8 .badParam, badIf (decide (512 ≤ d.countOf .evt + d.countOf .capt)) 11 .noResource]

/-- R245, R246, R250. -/
def MDie.evtEnableBad (d : MDie) (o : Obj) : Bad :=
  let h := o.params.h Par.evtSource
  let dest := o.params.u Par.evtDest
  let fio : Bool := dest % 256 != 2 || (match d.obj? (32 + dest / 256) with
    | some f => f.params.u Par.fioConfig == 3 && f.params.u Par.fioDriver == 1
    | none => false)
  badIf ((d.find h).isNone || !fio || (d.isFbk h && o.params.i Par.evtLeadNs != 0)) 10 .wrongState

def evtRead (c : Cmp) (id : Nat) : Option Int :=
  if id = Par.evtState then some c.st
  else if id = Par.evtNextPos then some (counts c.next)
  else if id = Par.evtRemain then some (match c.remain with | some r => r | none => 0xFFFFFFFF)
  else if id = Par.evtFireCount then some c.fireCount
  else if id = Par.evtMissedCount then some c.missedCount
  else none

/-- The drain of an `EVT` (R251): edges not driven are withdrawn, the armed position is discarded. -/
def MDie.evtDrain (d : MDie) (n t : Nat) : MDie :=
  match d.evt? n with
  | none => d
  | some (_, c) =>
    let d := d.setData n (.evt { c with st := 0, placed := [] })
    if c.pulseEnd.isNone then d.toIdle n t else d

def evtOpBad (op : Op) (o : Obj) (b : List Byte) : Bad :=
  match op with
  | .evtArm => firstBad [needEnabled o, badIf (decide (rdI b 16 8 < 0)) 8 .badParam]
  | .evtDisarm => needEnabled o
  | _ => none

/-- `EVT_DISARM` (R269): edges not driven are withdrawn. -/
def MDie.evtDisarm (d : MDie) (n : Nat) : MDie × Result :=
  match d.evt? n with
  | none => (d, noResult)
  | some (o, c) =>
    if o.life ≠ .enabled then (d, noResult)
    else (d.setData n (.evt { c with st := 0, placed := [] }), ⟨BitVec.ofInt 64 ((evtRead c Par.evtRemain).getD 0), 0⟩)

/-! `CAPT` (R252, R253). -/

def captPar (d : MDie) (id : Nat) (v : U64) : Bad :=
  if id = Par.captSource then bindBad d v [.axis, .fbk] []
  else if id = Par.captTrigger then
    let k := v.toNat % 256
    let i := v.toNat / 256
    badIf (decide (2 ^ 16 ≤ v.toNat ∨ 1 < k ∨ (k = 0 ∧ 7 < i) ∨ (k = 1 ∧ 31 < i))) 9 .outOfRange
  else none

def captRead (c : Capt) (id ix : Nat) : Option Int :=
  if id = Par.captLastPos then some (counts (c.lastPos.getD ix 0))
  else if id = Par.captLastTime then some ((c.lastTime / 1000000000 % 2 ^ 32 * 2 ^ 32 + c.lastTime % 1000000000 : Nat))
  else if id = Par.captCount then some c.count
  else if id = Par.captArmed then some (if c.armed then 1 else 0)
  else none

/-! `LCLK` (R255 … R262). -/

def lclkPar (d : MDie) (id : Nat) (v : U64) : Bad :=
  if id = Par.lclkSource then bindBad d v [.fbk] [.axis] else none

def lclkCreateBad (d : MDie) (word : Nat) : Bad :=
  let taken := d.objects.any (fun (x : Nat × Obj) => match x.2.data with | .lclk l => l.output == word | _ => false)
  firstBad [badIf (decide (16 ≤ word)) 8 .badParam, badIf taken 11 .noResource]

def MDie.lclkEnableBad (d : MDie) (o : Obj) : Bad :=
  let h := o.params.h Par.lclkSource
  if h = 0 then bad 10 .wrongState
  else if d.isRemote h then d.remoteBad h
  else badIf (d.find h).isNone 10 .wrongState

def MDie.lclkEnableDo (d : MDie) (n : Nat) : MDie :=
  match d.lclk? n with
  | none => d
  | some (o, l) => (d.setData n (.lclk (l.enable o.params))).bindSource (o.params.h Par.lclkSource)

def lclkRead (o : Obj) (l : Lclk) (id : Nat) : Option Int :=
  if id = Par.lclkOutput then some l.output
  else if id = Par.lclkLineIndex then some l.high
  else if id = Par.lclkLinesLeft then some (match l.left with | some n => n | none => 0xFFFFFFFF)
  else if id = Par.lclkFlags then some ((o.params.u Par.lclkFlags ||| (if l.slewing then 8 else 0) : Nat))
  else if id = Par.lclkOrigin then some (counts l.origin)
  else if id = Par.lclkPosDelayNow then some (counts l.delayNow)
  else none

/-- The drain of an output (R262): edges after the pulse in progress are discarded. -/
def MDie.lclkDrain (d : MDie) (n t : Nat) : MDie :=
  match d.lclk? n with
  | none => d
  | some (_, l) =>
    let d := d.setData n (.lclk { l with placed := [] })
    if l.pulseEnd.isNone then d.toIdle n t else d

def lclkOpBad (op : Op) (o : Obj) (b : List Byte) : Bad :=
  match op with
  | .lclkArm => needEnabled o
  | .lclkReg => firstBad [needEnabled o, badIf (decide (rdI b 12 4 < -50000 ∨ 50000 < rdI b 12 4)) 9 .outOfRange]
  | _ => none

/-- `LCLK_ARM` (R256). -/
def MDie.lclkArm (d : MDie) (n t : Nat) (b : List Byte) : MDie :=
  match d.lclk? n with
  | none => d
  | some (o, l) =>
    if o.life ≠ .enabled then d
    else
      let s := d.srcSample (o.params.h Par.lclkSource) t
      (d.setData n (.lclk (l.arm o.params (posAt b 0) (rdU b 12 4) s.p t))).lclkPlace n (max t d.ns) 4

/-- The delay the parameters of an output give. -/
def lclkDelay (ps : Params) : Int := ps.i Par.lclkPosDelay * oneCount + ps.u Par.lclkPosDelayFrac

/-- `LCLK_REG` (R259): the parameters take the new delays. -/
def MDie.lclkRegDo (d : MDie) (n t : Nat) (b : List Byte) : MDie :=
  match d.lclk? n with
  | none => d
  | some (o, _) =>
    if o.life ≠ .enabled then d
    else
      let ps := ((o.params.setI Par.lclkPosDelay 0 (rdI b 0 8)).set Par.lclkPosDelayFrac 0 (BitVec.ofNat 64 (rdU b 8 4))).setI
        Par.lclkTimeDelay 0 (rdI b 12 4)
      (d.modObj n (fun o => { o with params := ps })).lclkReg n t (lclkDelay ps)

/-- A written delay acts as an `LCLK_REG` (R259). -/
def MDie.lclkWritten (d : MDie) (n t id : Nat) : MDie :=
  if id = Par.lclkPosDelay ∨ id = Par.lclkPosDelayFrac ∨ id = Par.lclkTimeDelay then
    match d.lclk? n with
    | some (o, _) => d.lclkReg n t (lclkDelay o.params)
    | none => d
  else d

/-- Effect of an opcode of group 0x5 (R269). -/
def MDie.orreryDo (d : MDie) (op : Op) (n t : Nat) (b : List Byte) : MDie × Result :=
  match op with
  | .gearRatio | .gearCamSwitch | .gearShift => (d.gearDo op n t b, noResult)
  | .evtArm => (if d.enabledAt n then d.evtArm n t b else d, noResult)
  | .evtDisarm => d.evtDisarm n
  | .captArm => (match d.capt? n with
    | some (o, c) => if o.life = .enabled then d.setData n (.capt { c with armed := true }) else d
    | none => d, noResult)
  | .lclkArm => (d.lclkArm n t b, noResult)
  | .lclkReg => (d.lclkRegDo n t b, noResult)
  | _ => (d, noResult)

end Sys2Proof.Machine
end

