-- ==== Sys2Proof/Machine/FbkDie.lean ====
section
/-! DEFINITION. Feedback channels on the die: refusals, creation, enable, snapshots, reads, the tick, rollbacks
(R122 … R160, R212). -/

namespace Sys2Proof.Machine

open Sys2Proof

/-- Key of a front-end source. -/
def srcKey (type chan : Nat) : Nat := 16 * type + chan

def MDie.levelsOf (d : MDie) (key : Nat) : Nat := (alGet d.encLevels key).getD 0

/-- The axes of a lane (R123). -/
def MDie.laneAxesOf (d : MDie) (chan : Nat) : Nat := match d.obj? (72 + chan) with | some o => laneAxes o.params | none => 0

/-! Object. -/

def fbkPar (f : Fbk) (id : Nat) (v : U64) : Bad :=
  firstBad [badIf (!fbkParamApplies f.type id) 8 .badParam, badIf (id == Par.fbkInterp && !fbkInterpOk f.type v.toNat) 9 .outOfRange]

/-- R123. -/
def MDie.fbkCreateBad (d : MDie) (word : Nat) : Bad :=
  let f := Fbk.create word
  let taken := d.objects.any (fun (x : Nat × Obj) => match x.2.data with
    | .fbk g => g.type == f.type && g.chan == f.chan && g.sub == f.sub
    | _ => false)
  match fbkCreateCheck word with
  | some .badParam => bad 8 .badParam
  | some s => bad 9 s
  | none => firstBad [badIf (f.type == 4 && decide (d.laneAxesOf f.chan < f.sub + 1)) 9 .outOfRange, badIf taken 11 .noResource]

/-- Parameters of a new channel that depend on its type (R159). -/
def fbkInitial (word : Nat) : Params := Params.set [] Par.fbkInterp 0 (image64 (fbkInterpReset (bitsOf word 3 0)))

def fbkEnableBad (o : Obj) (f : Fbk) : Bad := badIf (f.type == 3 && !ssiCadenceOk o.params) 12 .infeasible

/-- The first ENABLED object that takes the position of a channel (R149). -/
def MDie.fbkUser (d : MDie) (n : Nat) : Option U32 :=
  let h := d.handle n
  (d.objects.find? (fun (x : Nat × Obj) => x.1 != n && x.2.life == .enabled && x.2.holds h)).map (fun (x : Nat × Obj) => d.handle x.1)

def MDie.fbkDisableBad (d : MDie) (n : Nat) : Bad := match d.fbkUser n with | some h => busyOf h | none => none

/-- Is the source of a channel there: the pair link up, or its lane ENABLED (R127, R148)? -/
def MDie.fbkPresent (d : MDie) (f : Fbk) : Bool := if f.type ≤ 3 then d.pairLink else d.enabledAt (72 + f.chan)

/-- `DL_STALE` of a channel (R140, R161). -/
def dlStaleEv (f : Fbk) : Ev := faultEv Evt.dlStale 0 (d8 f.chan ++ d8 f.sub)

/-- A channel whose lane reports its uplink stale takes that as a channel fault, once (R140, R145). -/
def dlaneStale (f : Fbk) : Fbk :=
  if f.cnt.stale then f
  else { f with cnt := { f.cnt with stale := true }, mon := addDue f.mon (dlStaleEv f) }

/-- Does the lane of a channel report its uplink stale (R140)? -/
def MDie.fbkLaneStale (d : MDie) (f : Fbk) : Bool :=
  f.type == 4 && (match d.obj? (72 + f.chan) with
    | some o => (match o.data with
      | .dlane l => ((l.slots[f.sub]?).map (fun x => x.staleReported)).getD false
      | _ => false)
    | none => false)

/-- The channel publishes from the tick of its enable on (R125, R150). -/
def MDie.fbkEnableDo (d : MDie) (n t : Nat) : MDie :=
  match d.fbk? n with
  | none => d
  | some (o, f) =>
    let f := fbkEnable o.params f (d.levelsOf (srcKey f.type f.chan)) ((alGet d.encTracks f.chan).getD []) t
    let f := if d.fbkLaneStale f then dlaneStale f else f
    d.setData n (.fbk (fbkPublish o.params f t (d.fbkPresent f)))

def fbkRead (f : Fbk) (id ix : Nat) : Option Int :=
  if id = Par.fbkType then some f.type
  else if id = Par.fbkChan then some f.chan
  else if id = Par.fbkState then some f.st.code
  else if id = Par.fbkPosition then some (counts f.sample.pos)
  else if id = Par.fbkPosFrac then some (f.sample.pos % oneCount)
  else if id = Par.fbkSpeed then some f.sample.speed
  else if id = Par.fbkStatus then some f.sample.status
  else if id = Par.fbkRawCount then some (counts f.cnt.raw)
  else if id = Par.fbkAmpNow then some f.mon.ampNow
  else if id = Par.fbkAmpMin then some f.mon.ampMin
  else if id = Par.fbkAmpMax then some f.mon.ampMax
  else if id = Par.fbkExtremes then some (f.mon.extremes.getD ix 0)
  else if id = Par.fbkEdgeFastCount then some f.mon.edgeFast
  else if id = Par.fbkHallCode then some f.cnt.hallCode
  else if id = Par.fbkHallBadCount then some f.mon.hallBad
  else if id = Par.fbkIndexPos then some f.mon.idxPos
  else if id = Par.fbkIndexDelta then some f.mon.idxDelta
  else none

/-- A parameter as stored, and what its write does (R159). The sample of the tick uses it (R51). -/
def MDie.fbkWritten (d : MDie) (n id : Nat) (v : U64) : MDie :=
  match d.fbk? n with
  | none => d
  | some (o, f) =>
    if id = Par.fbkStatsReset then d.setData n (.fbk (fbkStatsReset f))
    else if id = Par.fbkSsiClock then d.setPar n id 0 (BitVec.ofNat 64 (ssiClockStored v.toNat))
    else if o.life = .enabled then d.setData n (.fbk (fbkForm o.params f d.tick))
    else d

/-! Rollback (R154, R212). -/

/-- Shift the coordinate of one member of a group. -/
def PathSeg.shift (g : PathSeg) (i : Nat) (q : Rat) : PathSeg :=
  { g with
    start := listMod g.start i (fun x => x + q), stop := listMod g.stop i (fun x => x + q)
    shape := match g.shape with
      | .arc a b dir n c1 c2 => .arc a b dir n (if a = i then c1 + q else c1) (if b = i then c2 + q else c2)
      | .line => .line }

/-- Shift an axis by an offset change of its channel, together with the law its set-points follow. -/
def MDie.axisRollback (d : MDie) (n : Nat) (delta : Int) : MDie :=
  match d.axis? n with
  | none => d
  | some (_, a) =>
    let shift (s : KSample) : KSample := { s with p := s.p + delta }
    let a' : Axis := { a with core := axisShift a.core delta, cur := shift a.cur, ra := a.ra.note 5 }
    let d := d.setData n (.axis a')
    match a.core.mode with
    | .geared => match d.linkOf n with
      | some (l, _, g) => d.setData l (.gear { g with law := { g.law with s0 := g.law.s0 + delta } })
      | none => d
    | .path => match d.groupOf n with
      | some (g, go, p) =>
        match (List.range 8).find? (fun i => go.params.h Par.pathMember i == d.handle n) with
        | some i =>
          let q := posR delta / pathScale go.params i
          d.setData g (.path { p with
            segs := p.segs.map (fun s => s.shift i q), next := p.next.map (fun s => s.shift i q)
            hold := listMod p.hold i (fun x => x + q) })
        | none => d
      | none => d
    | _ => d

/-- An offset change of a channel is a rollback of every axis bound to it. -/
def MDie.rollback (d : MDie) (n : Nat) (delta : Int) : MDie :=
  if delta = 0 then d
  else (d.slotsOf .axis).foldl (fun d a => match d.axis? a with
    | some (o, _) => if (o.life = .enabled ∨ o.life = .draining) ∧ o.params.h Par.axisFbk = d.handle n then d.axisRollback a delta else d
    | none => d) d

/-! Opcodes (R160). -/

def MDie.fbkOpBad (d : MDie) (op : Op) (o : Obj) (f : Fbk) (b : List Byte) : Bad :=
  match op with
  | .fbkSetState => firstBad [badIf (decide (2 < rdU b 0 1)) 8 .badParam, needEnabled o,
      badIf (rdU b 0 1 == 1 && f.st != .service && fbkFaultPresent f) 10 .faulted]
  | .fbkRefIndex =>
    let idx : Bool := match d.obj? (72 + f.chan) with
      | some l => bitOf (l.params.u Par.dlaneIndexEn) f.sub
      | none => false
    firstBad [badIf (f.type == 2 || f.type == 3 || (f.type == 4 && !idx)) 7 .denied, badIf (decide (2 < rdU b 8 1)) 8 .badParam, needEnabled o]
  | .fbkSetPos | .fbkRefCancel | .fbkGetSample => needEnabled o
  | _ => none

/-- Effect of a Vernier opcode at tick `t`. -/
def MDie.fbkDo (d : MDie) (op : Op) (n t : Nat) (b : List Byte) : MDie × Result :=
  match d.fbk? n with
  | none => (d, noResult)
  | some (o, f) =>
    if o.life ≠ .enabled then (d, noResult)
    else match op with
      | .fbkSetState =>
        let (f, es) := fbkSetState f (chStateOf (rdU b 0 1)) t
        ((d.setData n (.fbk f)).postAll n es, noResult)
      | .fbkSetPos =>
        let delta := setPosDelta f (posAt b 0)
        ((d.setData n (.fbk (moveOffset f delta))).rollback n delta,
         ⟨image64 (counts delta), BitVec.ofNat 64 (delta % oneCount).toNat⟩)
      | .fbkRefIndex => (d.setData n (.fbk { f with mon := { f.mon with ref := some (rdI b 0 8 * oneCount, rdU b 8 1, t) } }), noResult)
      | .fbkRefCancel =>
        (d.setData n (.fbk { f with mon := { f.mon with ref := none } }), ⟨if f.mon.ref.isSome then 1 else 0, 0⟩)
      | .fbkGetSample =>
        (d, ⟨image64 (counts f.sample.pos), BitVec.ofNat 64 ((f.sample.pos % oneCount).toNat + f.sample.status * 2 ^ 32)⟩)
      | _ => (d, noResult)

/-! Snapshots and reads. -/

/-- Published position of a raw one. -/
def fbkOut (ps : Params) (f : Fbk) (raw : Int) : Int := (if ps.u Par.fbkDir = 1 then -raw else raw) + f.offset

/-- Compare events of a channel see its motion since the last snapshot or read (R250). -/
def MDie.fbkEvents (d : MDie) (n : Nat) (cross : Nat → Int → Option (Nat × Int)) : MDie :=
  let h := d.handle n
  (d.slotsOf .evt).foldl (fun d e => match d.evt? e with
    | some (o, _) => if o.params.h Par.evtSource = h then d.evtFbk e (cross (o.params.u Par.evtDir)) 8 else d
    | none => d) d

/-- One channel at a snapshot (R126). -/
def MDie.fbkSnap (d : MDie) (n t : Nat) (s : SrcSnap) : MDie :=
  match d.fbk? n with
  | none => d
  | some (o, f) =>
    if o.life ≠ .enabled ∨ 4 ≤ f.type then d
    else
      let f' := fbkSnapshot o.params (srcKey f.type f.chan) f t s
      let out := fbkOut o.params f
      let cross (dir : Nat) (P : Int) : Option (Nat × Int) :=
        if f.type = 0 then crossLinear dir P (out f.cnt.raw) (out f'.cnt.raw) (t - 500) t
        else crossSteps dir P (out f.cnt.raw) (f'.cnt.steps.map (fun x => (out x.1, x.2)))
      (d.setData n (.fbk f')).fbkEvents n cross

/-- The conversions of one source with one more; those of a tick begin with its snapshot (R126). -/
def addTrack (l : List Track) (x : Track) : List Track := if x.at_ % 16000 = 15000 then [x] else l.drop (l.length - 31) ++ [x]

/-- The snapshot at time `t`; a digital source without an entry had no edge. -/
def MDie.snapshot (d : MDie) (t : Nat) (srcs : List SrcSnap) : MDie :=
  let d := { d with encLevels := srcs.foldl (fun (l : List (Nat × Nat)) (s : SrcSnap) =>
    let k := srcKey s.type s.chan
    alSet l k (s.edges.foldl (fun (m : Nat) (e : InEdge) => setLevel m e.input e.level) ((alGet l k).getD 0))) d.encLevels
                    encTracks := srcs.foldl (fun (l : List (Nat × List Track)) (s : SrcSnap) =>
    if s.type = 0 then alSet l s.chan (addTrack ((alGet l s.chan).getD []) ⟨t, s.sin.toInt, s.cos.toInt⟩) else l) d.encTracks }
  (d.slotsOf .fbk).foldl (fun d n => match d.fbk? n with
    | some (_, f) => match srcs.find? (fun (s : SrcSnap) => s.type == f.type && s.chan == f.chan) with
      | some s => d.fbkSnap n t s
      | none => if f.type = 0 then d else d.fbkSnap n t ⟨f.type, f.chan, 0, 0, false, []⟩
    | none => d) d

/-- Faults and reports found since the last tick are applied (R145). -/
def MDie.fbkDue (d : MDie) (n t : Nat) : MDie :=
  match d.fbk? n with
  | none => d
  | some (_, f) =>
    let (f, es) := fbkApplyDue f t
    (d.setData n (.fbk f)).postAll n es

/-- Indices crossed are compared with those before them (R152). -/
def MDie.fbkIndexCheck (d : MDie) (n : Nat) : MDie :=
  match d.fbk? n with
  | none => d
  | some (o, f) => d.setData n (.fbk (checkIndices o.params f))

/-- Indices of the tick's snapshot complete a reference, after the commands of the tick (R153, R154). -/
def MDie.fbkIndices (d : MDie) (n : Nat) : MDie :=
  match d.fbk? n with
  | none => d
  | some (o, f) =>
    let (f', es) := indexAll o.params f.mon.idxNow f
    ((d.setData n (.fbk f')).postAll n es).rollback n (f'.offset - f.offset)

/-- A read or an uplink moved a channel from one raw position and time to another. -/
def MDie.fbkMoved (d : MDie) (n : Nat) (old : Fbk) : MDie :=
  match d.fbk? n with
  | none => d
  | some (o, f) => match old.cnt.reads, f.cnt.reads with
    | (p0, t0) :: _, (p1, t1) :: _ =>
      if t0 < t1 then d.fbkEvents n (fun dir P => crossLinear dir P (fbkOut o.params f p0) (fbkOut o.params f p1) t0 t1) else d
    | _, _ => d

/-! The tick. -/

/-- Start of a class 0 tick: draining channels end, ENABLED ones publish (R125, R149). -/
def MDie.fbkTick (d : MDie) (t : Nat) : MDie :=
  (d.slotsOf .fbk).foldl (fun d n => match d.fbk? n with
    | none => d
    | some (o, f) => match o.life with
      | .enabled => d.setData n (.fbk (fbkPublish o.params f t (d.fbkPresent f)))
      | .draining => (d.setData n (.fbk (fbkInvalid f))).toIdle n t
      | _ => d) d

/-- The loss of the source of a channel (R148). -/
def MDie.fbkLost (d : MDie) (n cause t : Nat) : MDie := d.faultPlain n (faultEv Evt.sourceLost t (d8 cause))

/-- The pair link goes down: every channel fed by the F die loses its source. -/
def MDie.fbkPairLost (d : MDie) (t : Nat) : MDie :=
  (d.slotsOf .fbk).foldl (fun d n => match d.fbk? n with
    | some (o, f) => if f.type ≤ 3 ∧ (o.life = .enabled ∨ o.life = .draining) then d.fbkLost n 1 t else d
    | none => d) d

/-- A lane leaves ENABLED (R148). -/
def MDie.fbkLaneLost (d : MDie) (lane t : Nat) : MDie :=
  (d.slotsOf .fbk).foldl (fun d n => match d.fbk? n with
    | some (o, f) => if f.type = 4 ∧ f.chan = lane ∧ (o.life = .enabled ∨ o.life = .draining) then d.fbkLost n 2 t else d
    | none => d) d

/-! Rows of the channel. -/

/-- The filter count of the amplitude window is reached (R134); the tick applies what is found (R145). -/
def MDie.fbkAmpCount (d : MDie) (n : Nat) : MDie :=
  match d.fbk? n with
  | none => d
  | some (o, f) => if o.life = .enabled ∧ f.type = 0 then d.setData n (.fbk { f with mon := ampFilter o.params f.mon }) else d

/-- The speed timeout has run (R157). -/
def MDie.fbkSpeedTimeout (d : MDie) (n : Nat) : MDie :=
  match d.fbk? n with
  | none => d
  | some (o, f) =>
    if o.life = .enabled ∧ f.type ≠ 3 ∧ f.spd.baseTime + o.params.u Par.fbkSpeedTimeout * 1000 ≤ d.ns then
      let s := f.sample
      let st := s.status % 64 + s.status / 256 * 256 + 128
      d.setData n (.fbk { f with spd := (speedZero { f.spd with methodT := false } true).sp, sample := { s with speed := 0, status := st } })
    else d

/-- The read of an `SSI` source starts (R138). -/
def MDie.fbkReadStart (d : MDie) (n : Nat) (dataHigh : Bool) : MDie :=
  match d.fbk? n with
  | none => d
  | some (o, f) =>
    if o.life = .enabled ∧ f.type = 3 ∧ f.cnt.ssiBusy.isNone then
      (d.passTo (ssiStart o.params f.cnt.ssiNext)).setData n (.fbk (ssiReadStart o.params f dataHigh))
    else d

/-- The frame of an `SSI` read is complete (R138, R139). -/
def MDie.fbkReadDone (d : MDie) (n frame : Nat) : MDie :=
  match d.fbk? n with
  | none => d
  | some (o, f) =>
    if o.life = .enabled ∧ f.type = 3 then
      (d.setData n (.fbk (ssiReadComplete o.params f frame))).fbkMoved n f
    else d

end Sys2Proof.Machine
end

