-- ==== Sys2Proof/Machine/LoopDie.lean ====
section
/-! DEFINITION. Loop groups and trace buffers on the die: refusals, admission, enable, gate, supervision, drain, opcodes
(R271 … R295, R325 … R335). -/

namespace Sys2Proof.Machine

open Sys2Proof

/-! Axes and destinations of a group. -/

/-- The axis with an index of a group (R273). -/
def MDie.lgrpAxis (d : MDie) (n i : Nat) : Option (Nat × Obj × Axis) :=
  d.objects.findSome? (fun (x : Nat × Obj) => match x.2.data with
    | .axis a => if x.2.params.h Par.axisLgrp = d.handle n ∧ x.2.params.u Par.axisLgrpIndex = i then some (x.1, x.2, a) else none
    | _ => none)

/-- Axes of a group: index, slot, object, axis. -/
def MDie.lgrpAxes (d : MDie) (n : Nat) : List (Nat × Nat × Obj × Axis) :=
  (List.range 4).filterMap (fun i => (d.lgrpAxis n i).map (fun x => (i, x)))

/-- The group an axis is bound to. -/
def MDie.lgrpOf (d : MDie) (o : Obj) : Option (Nat × Obj × Lgrp) :=
  match d.find (o.params.h Par.axisLgrp) with
  | some (n, g) => match g.data with | .lgrp x => some (n, g, x) | _ => none
  | none => none

/-- The other axis that holds the index an axis would take (R273). -/
def MDie.axisJoinBad (d : MDie) (n id : Nat) (ps : Params) : Bad :=
  if id ≠ Par.axisLgrp ∧ id ≠ Par.axisLgrpIndex ∨ ps.u Par.axisLgrp = 0 then none
  else match d.objects.find? (fun (x : Nat × Obj) => x.1 != n && (match x.2.data with
      | .axis _ => x.2.params.h Par.axisLgrp == ps.h Par.axisLgrp && x.2.params.u Par.axisLgrpIndex == ps.u Par.axisLgrpIndex
      | _ => false)) with
    | some (m, _) => busyOf (d.handle m)
    | none => none

/-- An axis of an ENABLED or DRAINING group is not disabled (R273). -/
def MDie.axisGroupBad (d : MDie) (o : Obj) : Bad :=
  match d.lgrpOf o with
  | some (n, g, _) => if g.life = .enabled ∨ g.life = .draining then busyOf (d.handle n) else none
  | none => none

/-- The lane slot that carries an axis (R383): slot of the lane, its object, slot on the lane. -/
def MDie.laneOf (d : MDie) (h : U32) : Option (Nat × Obj × Lane × Nat) :=
  d.objects.findSome? (fun (x : Nat × Obj) => match x.2.data with
    | .dlane l => ((List.range (laneAxes x.2.params)).find? (fun s => x.2.params.u Par.dlaneSlotMode s != 0 && x.2.params.h Par.dlaneSlotAxis s == h)).map
        (fun s => (x.1, x.2, l, s))
    | _ => none)

/-- The PWM group of a pair. -/
def MDie.pwmOf (d : MDie) (pair : Nat) : Option (Nat × Obj × Pwmg) :=
  d.objects.findSome? (fun (x : Nat × Obj) => match x.2.data with
    | .pwmg g => if g.mask.testBit pair then some (x.1, x.2, g) else none
    | _ => none)

/-- An axis driven by a lane's microstep generator needs the lane UP (R366). -/
def MDie.axisLaneBad (d : MDie) (n : Nat) : Bad :=
  match d.laneOf (d.handle n) with
  | some (_, o, l, s) => badIf (o.params.u Par.dlaneSlotMode s == 2 && l.link != 3) 10 .wrongState
  | none => none

/-! Admission (R272, R283). -/

/-- Groups of an engine other than the one in a slot. -/
def MDie.groupsOn (d : MDie) (e except : Nat) : List (Obj × Lgrp) :=
  d.objects.filterMap (fun (x : Nat × Obj) => match x.2.data with
    | .lgrp g => if x.1 ≠ except ∧ g.engine = e then some (x.2, g) else none
    | _ => none)

def MDie.engineLoad (d : MDie) (e except : Nat) : Rat := (d.groupsOn e except).foldl (fun s (x : Obj × Lgrp) => s + x.2.load x.1.params) 0

def MDie.cramUsed (d : MDie) (e except : Nat) : Nat := (d.groupsOn e except).foldl (fun s (x : Obj × Lgrp) => s + x.2.cram x.1.params) 0

/-- Does a group with the load and coefficient RAM given fit an engine? -/
def MDie.admits (d : MDie) (e except : Nat) (load : Rat) (cram : Nat) : Bool :=
  decide (d.engineLoad e except + load ≤ engineBudget) && decide ((d.groupsOn e except).length < 32)
    && decide (d.cramUsed e except + cram ≤ 262144)

/-- Parameters of a new group that its create word gives. -/
def lgrpInitial (word : Nat) : Params := Params.set [] Par.lgrpRateClass 0 (BitVec.ofNat 64 (bitsOf word 2 0))

/-- The engine a create chooses (R272). -/
def MDie.chooseEngine (d : MDie) (word : Nat) : Option Nat :=
  let g := Lgrp.create word 0
  let ps := lgrpInitial word
  let fits (e : Nat) : Bool := d.admits e 4096 (g.load ps) (g.cram ps)
  match bitsOf word 4 3 with
  | 2 =>
    let a := if d.engineLoad 1 4096 < d.engineLoad 0 4096 then 1 else 0
    if fits a then some a else if fits (1 - a) then some (1 - a) else none
  | e => if fits e then some e else none

def MDie.lgrpCreateBad (d : MDie) (word : Nat) : Bad :=
  match lgrpCreateCheck word with
  | some .badParam => bad 8 .badParam
  | some s => bad 9 s
  | none => badIf (d.chooseEngine word).isNone 11 .noResource

/-- A write that changes load or room is admitted again (R283, R326). -/
def MDie.readmitBad (d : MDie) (n : Nat) (g : Lgrp) (ps : Params) : Bad :=
  badIf (!d.admits g.engine n (g.load ps) (g.cram ps)) 11 .noResource

/-! Parameters. -/

/-- Elements of a by-section parameter that a group has (R294). -/
def lgrpElems (g : Lgrp) (id : Nat) (outer : Bool) : Nat :=
  let dm : Option SecDims := if outer then g.outerDims else some g.inner.dims
  match dm with
  | none => 0
  | some dm =>
    if [Par.lgrpYSrc, Par.lgrpYGain, Par.lgrpYShift, Par.lgrpYNow].contains id then dm.p
    else if [Par.lgrpZSrc, Par.lgrpZGain, Par.lgrpZShift].contains id then dm.nz
    else if [Par.lgrpUDst, Par.lgrpUGain, Par.lgrpUOffset, Par.lgrpUNow].contains id then dm.m
    else if id = Par.lgrpState then dm.n
    else if id = Par.lgrpQNow then dm.q
    else 1

/-- Is it a by-section parameter? -/
def bySection (id : Nat) : Bool := match paramRow? id with | some r => r.cls == some .lgrp && r.idx == 32 | none => false

/-- Is an index beyond the dimensions of its section? -/
def lgrpIndexBad (g : Lgrp) (id ix : Nat) : Bad :=
  badIf (bySection id && decide (lgrpElems g id (decide (16 ≤ ix)) ≤ ix % 16)) 9 .outOfRange

/-- Source and destination words (R275 … R277, R376). -/
def lgrpWordBad (id : Nat) (v : U64) : Bad :=
  let w := v.toNat
  let ty := bitsOf w 3 0
  if id = Par.lgrpYSrc then
    let k := bitsOf w 15 8
    firstBad [badIf (decide (bitsOf w 7 6 ≠ 0 ∨ 2 ^ 16 ≤ w)) 8 .badParam,
      badIf (decide (5 < ty ∨ (ty = 4 ∧ 3 < k) ∨ (ty = 5 ∧ 7 < k))) 9 .outOfRange]
  else if id = Par.lgrpZSrc then
    firstBad [badIf (decide (bitsOf w 7 6 ≠ 0 ∨ bitsOf w 15 12 ≠ 0 ∨ 2 ^ 24 ≤ w)) 8 .badParam, badIf (decide (4 < ty)) 9 .outOfRange]
  else if id = Par.lgrpUDst then
    firstBad [badIf (decide (bitsOf w 7 6 ≠ 0 ∨ 2 ^ 16 ≤ w)) 8 .badParam,
      badIf (decide (2 < ty ∨ (ty = 2 ∧ 11 < bitsOf w 15 8))) 9 .outOfRange]
  else none

/-- A group with a new `LGRP.OUTER_DIMS`. -/
def Lgrp.withOuter (g : Lgrp) (ps : Params) (v : Nat) : Lgrp :=
  let g := { g with outer := some (LoopSec.create (dimsOf v)) }
  g.realloc (g.bytes ps)

/-- Class checks of a parameter entry; `ps` are the parameters with the entry written. -/
def MDie.lgrpPar (d : MDie) (n : Nat) (g : Lgrp) (ps : Params) (id ix : Nat) (v : U64) : Bad :=
  if id = Par.lgrpRateClass ∨ id = Par.lgrpOuterDiv ∨ id = Par.lgrpListMode ∨ id = Par.lgrpHostBankBytes then d.readmitBad n g ps
  else if id = Par.lgrpOuterDims then
    let w := v.toNat
    let dm := dimsOf w
    firstBad [badIf (decide (w % 32 ≠ 0 ∨ 2 ^ 22 ≤ w)) 8 .badParam, badIf (!dimsRange dm) 9 .outOfRange, badIf g.outer.isNone 10 .wrongState,
      if g.outer.isSome then d.readmitBad n (g.withOuter ps w) ps else none]
  else firstBad [lgrpIndexBad g id ix, lgrpWordBad id v]

/-- What a write does beyond storing the value (R326). `LGRP.HOST_BANK_BYTES` touches the banks only of a group with host lists, to
which R326 confines its rules (log 157). -/
def MDie.lgrpWritten (d : MDie) (n id : Nat) (v : U64) : MDie :=
  match d.lgrp? n with
  | none => d
  | some (o, g) =>
    if id = Par.lgrpOuterDims then d.setData n (.lgrp (g.withOuter o.params v.toNat))
    else if id = Par.lgrpListMode ∨ (id = Par.lgrpHostBankBytes ∧ o.params.u Par.lgrpListMode = 1) then
      d.setData n (.lgrp (g.realloc (g.bytes o.params)))
    else d

/-- Number of steps of the list in force, and a step of it. -/
def lgrpSteps (ps : Params) (g : Lgrp) (outer : Bool) : Nat :=
  match (if outer then g.outer else some g.inner) with
  | none => 0
  | some s => if ps.u Par.lgrpListMode = 1 then s.steps.length else Config.genSteps (if outer then ps.u Par.lgrpOuterDims else g.word) % 1025

def lgrpStep (ps : Params) (g : Lgrp) (outer : Bool) (i : Nat) : U64 :=
  match (if outer then g.outer else some g.inner) with
  | none => 0
  | some s => if lgrpSteps ps g outer ≤ i then 0
      else if ps.u Par.lgrpListMode = 1 then s.steps.getD i 0 else Config.genStep (if outer then ps.u Par.lgrpOuterDims else g.word) i

/-- Is a swap accepted and not yet in force? -/
def MDie.swapPending (d : MDie) (n : Nat) (g : Lgrp) : Bool :=
  g.swapNow || d.rm.actions.any (fun a => a.op == .lgrpBankSwap && d.isOwn a.pkt.target && hSlot a.pkt.target == n)

/-- Computed parameters of a group (R294, R332). A signal that the section does not have, and the states, measured outputs and
integrators of a group whose lists are the host's, are open: R294 gives their elements for the dimensions, R326 no place for them in
a host list (log 156). -/
def MDie.lgrpRead (d : MDie) (n : Nat) (o : Obj) (g : Lgrp) (id ix : Nat) : Option Int :=
  let s : LoopSec := if 16 ≤ ix then g.outer.getD g.inner else g.inner
  let i := ix % 16
  let have_ : Bool := decide (ix < 16) || g.outer.isSome
  let host (l : List Int) : List Int := if o.params.u Par.lgrpListMode = 1 then [] else l
  let sig (bits : Nat) (l : List Int) : Option Int :=
    some (((if have_ then l[i]? else none)).getD (openSignal bits 5 ((id : Int) :: (ix : Int) :: g.data.map (fun b => (b.toNat : Int)))))
  if id = Par.lgrpEngine then some g.engine
  else if id = Par.lgrpDims then some (bitsOf g.word 22 5 * 32 : Nat)
  else if id = Par.lgrpAxes then some (((d.lgrpAxes n).foldl (fun m x => m + 2 ^ x.1) 0 : Nat))
  else if id = Par.lgrpCycles then some ((g.costs o.params).1 + 65536 * (g.costs o.params).2 : Nat)
  else if id = Par.lgrpEngineLoad then
    let r := d.engineLoad g.engine 4096
    some (divOpen 13 r.num r.den)
  else if id = Par.lgrpBankBytes then some (g.bytes o.params)
  else if id = Par.lgrpActiveBank then some g.active
  else if id = Par.lgrpSwapPending then some (if d.swapPending n g then 1 else 0)
  else if id = Par.lgrpBankStatus then
    some ((if (g.bankCause o.params 0).isNone then 1 else 0) + (if (g.bankCause o.params 1).isNone then 2 else 0))
  else if id = Par.lgrpFeNow then some (countsTrunc (g.feNow.getD ix 0))
  else if id = Par.lgrpSatFlags then some g.satFlags
  else if id = Par.lgrpSatCount then some g.satCount
  else if id = Par.lgrpUNow then sig 16 s.us
  else if id = Par.lgrpState then sig 32 (host s.xs)
  else if id = Par.lgrpYNow then sig 16 (host s.ys)
  else if id = Par.lgrpQNow then sig 32 (host s.qs)
  else if id = Par.lgrpDataBytes ∧ o.params.u Par.lgrpListMode = 0 then some (Config.genData g.word % 32769)
  else if id = Par.lgrpListSteps then some (lgrpSteps o.params g (decide (16 ≤ ix)))
  else if id = Par.lgrpListCheck then some g.listCheck
  else if id = Par.lgrpParkCount then some g.parkCount
  else if id = Par.lgrpStartDelayMax then some g.startMax
  else none

/-! Enable (R274, R327, R366, R384). -/

/-- Does a section's wiring allow enable? -/
def MDie.secOk (d : MDie) (n : Nat) (ps : Params) (base : Nat) (dm : SecDims) : Bool :=
  let ax (w : Nat) : Option (Nat × Obj × Axis) := d.lgrpAxis n (bitsOf w 5 4)
  let h (w : Nat) : U32 := match ax w with | some x => d.handle x.1 | none => 0
  let fbk (w : Nat) : Bool := match ax w with | some x => x.2.1.params.u Par.axisFbk != 0 | none => false
  let yOk (i : Nat) : Bool :=
    let w := ps.u Par.lgrpYSrc (base + i)
    match bitsOf w 3 0 with
    | 1 | 2 | 3 => fbk w
    | 4 => (ax w).isSome && (d.laneOf (h w)).isSome
    | _ => true
  let zOk (i : Nat) : Bool :=
    let w := ps.u Par.lgrpZSrc (base + i)
    match bitsOf w 3 0 with
    | 1 | 2 => match ax w with
      | some (m, o, a) => decide (bitsOf w 23 16 ≤ d.leadOf m o a)
      | none => false
    | _ => true
  let driven (k : Nat) : Bool := d.objects.any (fun (x : Nat × Obj) => x.1 != n && (x.2.life == .enabled || x.2.life == .draining) &&
    (match x.2.data with
     | .lgrp g => (List.range g.inner.dims.m).any (fun j => let w := x.2.params.u Par.lgrpUDst j; bitsOf w 3 0 == 2 && bitsOf w 15 8 == k)
     | _ => false))
  let uOk (j : Nat) : Bool :=
    let w := ps.u Par.lgrpUDst (base + j)
    match bitsOf w 3 0 with
    | 0 => true
    | 1 => base == 0 && decide (bitsOf w 15 8 ≤ 2) && (ax w).isSome && (match d.laneOf (h w) with
        | some (_, o, l, s) => o.life == .enabled && l.link == 3 && o.params.u Par.dlaneSlotMode s == 1
        | none => false)
    | _ => base == 0 && (ax w).isSome && !driven (bitsOf w 15 8) && (match d.pwmOf (bitsOf w 15 8) with
        | some (_, o, _) => o.life == .enabled
        | none => false)
  (List.range dm.p).all yOk && (List.range dm.nz).all zOk && (List.range dm.m).all uOk

/-- The check of the host lists: section, step, cause. -/
def Lgrp.hostCheck (ps : Params) (g : Lgrp) : Option (Nat × Nat × Nat) :=
  let one (sec : Nat) (s : LoopSec) : Option (Nat × Nat × Nat) :=
    match Sys2Proof.Machine.listCheck s.steps (g.bytes ps) (ps.u Par.lgrpDataBytes) s.dims.m s.dims.p with
    | .ok _ => none
    | .error (i, c) => some (sec, i, c)
  if ps.u Par.lgrpListMode ≠ 1 then none
  else match one 0 g.inner with
    | some x => some x
    | none => g.outer.bind (one 1)

/-- `LGRP.LIST_CHECK` and `RESULT1` of a failed check (R327). -/
def hostCheckCode : Option (Nat × Nat × Nat) → Nat
  | some (sec, i, c) => i % 65536 + 65536 * c + 2 ^ 24 * sec
  | none => 0

def MDie.lgrpEnableBad (d : MDie) (n : Nat) (o : Obj) (g : Lgrp) : Bad :=
  let ax := d.lgrpAxes n
  let ok := ax.all (fun x => x.2.2.1.life == .enabled && x.2.2.1.params.u Par.axisRateClass == o.params.u Par.lgrpRateClass)
  let secs := d.secOk n o.params 0 g.inner.dims && (match g.outerDims with | some dm => d.secOk n o.params 16 dm | none => true)
  if ax.isEmpty || !ok || !secs || (g.bankCause o.params g.active).isSome then bad 10 .wrongState
  else match g.hostCheck o.params with
    | some x => some (10, .badParam, ⟨0, BitVec.ofNat 64 (hostCheckCode (some x))⟩)
    | none => if o.params.u Par.lgrpListMode = 1 then
        d.readmitBad n { g with data := List.replicate (o.params.u Par.lgrpDataBytes) 0 } o.params else none

/-- A refused enable of a group with host lists leaves its cause in `LGRP.LIST_CHECK`. -/
def MDie.lgrpNoteCheck (d : MDie) (n : Nat) : MDie :=
  match d.lgrp? n with
  | some (o, g) => d.setData n (.lgrp { g with listCheck := hostCheckCode (g.hostCheck o.params) })
  | none => d

def MDie.lgrpEnableDo (d : MDie) (n : Nat) : MDie :=
  match d.lgrp? n with
  | none => d
  | some (o, g) =>
    let data := if o.params.u Par.lgrpListMode = 1 then List.replicate (o.params.u Par.lgrpDataBytes) 0 else []
    let g' := { g with inner := g.inner.start, outer := g.outer.map LoopSec.start, data := data, listCheck := 0, feCount := [0, 0, 0, 0]
                       feHit := [false, false, false, false], feNow := [0, 0, 0, 0], swapNow := false, satCount := 0, gateTick := none, staged := [], settle := 0, dropAt := none, dropQuick := false
                       parkCount := 0, startMax := 0 }
    let d := (d.lgrpAxes n).foldl (fun d x => d.setData x.2.1 (.axis { x.2.2.2 with standstill := none })) (d.setData n (.lgrp g'))
    -- the pairs keep theirs until a word of the group is transferred (R351)
    (List.range g.inner.dims.m).foldl (fun d j =>
      let k := bitsOf (o.params.u Par.lgrpUDst j) 15 8
      if bitsOf (o.params.u Par.lgrpUDst j) 3 0 ≠ 2 then d
      else match d.pwmOf k with
        | some (m, _, p) => d.setData m (.pwmg { p with wake := p.wake ||| 2 ^ k })
        | none => d) d

/-! Standstill and drain (R291, R292, R351, R388). -/

/-- An axis applies its standstill: its lane slot follows the axis, its PWM pairs take the pattern. -/
def MDie.axisStill (d : MDie) (n : Nat) : MDie :=
  match d.axis? n with
  | none => d
  | some (o, a) =>
    let m := o.params.u Par.axisStandstill
    let d := d.setData n (.axis { a with standstill := some m })
    match d.lgrpOf o with
    | none => d
    | some (_, go, g) =>
      (List.range g.inner.dims.m).foldl (fun d j =>
        let w := go.params.u Par.lgrpUDst j
        if bitsOf w 3 0 = 2 ∧ bitsOf w 5 4 = o.params.u Par.axisLgrpIndex then
          match d.pwmOf (bitsOf w 15 8) with
          | some (k, _, p) => d.setData k (.pwmg { p with
              still := p.still.set (bitsOf w 15 8) (some m), wake := p.wake - (p.wake &&& 2 ^ bitsOf w 15 8) })
          | none => d
        else d) d

/-- A stop of one axis by its group (R182, R195, R291). -/
def MDie.lgrpStopAxis (d : MDie) (n t : Nat) (quick : Bool) : MDie :=
  match d.axis? n with
  | none => d
  | some (o, a) =>
    -- a stop that is under way already changes to the quick ramp (R183, R292)
    let slow : Bool := quick && !a.core.quick && (match a.core.goal with | .stop _ => true | _ => false) && !(atRest a.cur)
    if slow ∧ a.core.mode ≠ .path ∧ (o.life = .draining ∨ a.core.mode = .blocked) then
      (d.setData n (.axis { a with core := a.core.toQuick o.params t, ra := a.ra.note 1 })).resample n t
    else if o.life ≠ .enabled then d
    else if a.core.mode = .path then
      match d.groupOf n with
      | some (g, _, p) =>
        if p.mode = 1 ∨ (quick ∧ p.mode = 2 ∧ p.stopWhy ≠ 2 ∧ p.stopWhy ≠ 3) then d.pathHalt g t quick (if quick then 2 else 1) false else d
      | none => d
    else if atRest a.cur ∧ (a.core.mode = .idle ∨ a.core.mode = .blocked) then d
    else (d.axisDo n t (.stop quick)).resample n t

/-- The stops at the start of a drain (R291). -/
def MDie.lgrpStop (d : MDie) (n t : Nat) : MDie :=
  let d := match d.lgrp? n with | some (_, g) => d.setData n (.lgrp { g with settle := 0, dropAt := none }) | none => d
  (d.lgrpAxes n).foldl (fun d x => d.lgrpStopAxis x.2.1 t false) d

/-- Destinations take standstill at once, the axes stop, and the group ends (R292, R293, R330): on their quick ramps after a following
error, else on their normal ones (R183). -/
def MDie.lgrpDrop (d : MDie) (n t : Nat) : MDie :=
  let quick := match d.lgrp? n with | some (_, g) => g.dropQuick | none => false
  let d := (d.lgrpAxes n).foldl (fun d x => (d.lgrpStopAxis x.2.1 t quick).axisStill x.2.1) d
  d.toIdle n t

/-- Is the engine of a group halted by debug? Such a group reaches no clean boundary (R599). -/
def MDie.lgrpHalted (d : MDie) (g : Lgrp) : Bool := ((d.engines[g.engine]?).map (fun e => e.halted)).getD false

/-- A fault of a group; `drop` for the causes that cut the outputs at once, from a drain that is under way too (R293, R330). -/
def MDie.lgrpFault (d : MDie) (n : Nat) (e : Ev) (t : Nat) (drop : Bool) : MDie :=
  let (d, go) := (d.post n e).faultMark n e.code
  let live : Bool := match d.obj? n with | some o => o.life == .draining | none => false
  if !go && !(drop && live) then d
  else if drop then
    match d.lgrp? n with
    | some (_, g) => if d.lgrpHalted g then d.setData n (.lgrp { g with dropAt := some t }) else d.lgrpDrop n t
    | none => d
  else d.lgrpStop n t

/-- A following-error fault (R290, R292). -/
def MDie.lgrpFeFault (d : MDie) (n i t : Nat) : MDie :=
  match d.lgrp? n with
  | none => d
  | some (o, g) =>
    let e := faultEv Evt.followingError t (d8 i ++ List.replicate 7 0 ++ di64 (countsTrunc (g.feNow.getD i 0)))
    let (d, go) := (d.post n e).faultMark n e.code
    if !go then d
    else if o.params.u Par.lgrpFeAction = 1 then
      match d.lgrp? n with
      | some (_, g) => d.setData n (.lgrp { g with dropAt := some (t + classPeriod (o.params.u Par.lgrpRateClass)), dropQuick := true })
      | none => d
    else d.lgrpStop n t

/-- The row `FE_TIME_REACHED`: the counter of an axis stands at its limit. -/
def MDie.lgrpFeReached (d : MDie) (n i : Nat) : MDie :=
  match d.lgrp? n with
  | none => d
  | some (o, g) =>
    if o.life = .enabled ∧ d.lgrpHalted g = false ∧ i < 4 ∧ o.params.u Par.lgrpFeLimit i ≠ 0 ∧ 0 < g.feCount.getD i 0
        ∧ o.params.u Par.lgrpFeTime i ≤ g.feCount.getD i 0 then
      (d.setData n (.lgrp { g with feHit := g.feHit.set i true })).lgrpFeFault n i (d.tickOf n)
    else d

/-- Every axis has rested long enough: the clean boundary (R291). -/
def MDie.lgrpSettled (d : MDie) (n t : Nat) : MDie :=
  match d.lgrp? n with
  | none => d
  | some (o, g) =>
    if o.life = .draining ∧ d.lgrpHalted g = false ∧ g.dropAt.isNone ∧ o.params.u Par.lgrpSettle ≤ g.settle then
      ((d.lgrpAxes n).foldl (fun d x => d.axisStill x.2.1) d).toIdle n t
    else d

/-- A tick of a group after the samples of its axes: an end that is due, and the count of ticks at rest (R291, R292). -/
def MDie.lgrpTick (d : MDie) (n t : Nat) : MDie :=
  match d.lgrp? n with
  | none => d
  | some (o, g) =>
    if o.life ≠ .draining ∨ d.lgrpHalted g then d
    else match g.dropAt with
      | some w => if w ≤ t then d.lgrpDrop n t else d
      | none =>
        let rest := (d.lgrpAxes n).all (fun x => x.2.2.2.cur.v == 0 && x.2.2.2.cur.a == 0)
        (d.setData n (.lgrp { g with settle := if rest then g.settle + 1 else 0 })).lgrpSettled n t

/-! The gate (R275 … R282, R287 … R290). -/

/-- Channel sample of an axis. -/
def MDie.axisSampleOf (d : MDie) (o : Obj) : Option FbkSample :=
  match d.find (o.params.h Par.axisFbk) with
  | some (_, f) => match f.data with | .fbk x => some x.sample | _ => none
  | none => none

/-- The sigma-delta input a word names, at the gate of the tick that started at `t`; the group's previous gate was that of tick `last`. -/
def MDie.latchSd (d : MDie) (t : Nat) (last : Option Nat) (w : Nat) : Int × Nat × Bool :=
  match d.sdin? (64 + bitsOf w 15 8) with
  | some (_, x) => let (v, held) := x.latched (t + 1000) (last.map (fun k => k + 1000)); (v, 0, held)
  | none => (0, 0, true)

/-- Measured value, further shift, and whether it was held (R275, R282, R358). -/
def MDie.latchY (d : MDie) (n t : Nat) (last : Option Nat) (w : Nat) : Int × Nat × Bool :=
  match d.lgrpAxis n (bitsOf w 5 4) with
  | none => if bitsOf w 3 0 = 5 then d.latchSd t last w else (0, 0, false)
  | some (m, o, a) =>
    let fb := d.axisSampleOf o
    let held : Bool := match fb with | some s => !bitOf s.status 0 || bitOf s.status 5 | none => true
    let p := match fb with | some s => s.pos | none => a.cur.p
    let v := match fb with | some s => s.speed | none => 0
    match bitsOf w 3 0 with
    | 1 => (p - a.cur.p, 16, held)
    | 2 => (v - a.cur.v, 0, held)
    | 3 => (v, 0, held)
    | 4 => match d.laneOf (d.handle m) with
      | some (_, _, l, s) => (l.word s (bitsOf w 15 8), 0, ((l.slots[s]?).map (fun x => x.stale)).getD true)
      | none => (0, 0, true)
    | 5 => d.latchSd t last w
    | _ => (0, 0, false)

/-- Value of a reference slot, and whether its preview was shortened (R276). A control input that the group's outer section does not
have is open (log 156). -/
def MDie.latchZ (d : MDie) (n t : Nat) (ps : Params) (g : Lgrp) (w : Nat) : Int × Bool :=
  match bitsOf w 3 0 with
  | 1 | 2 => match d.lgrpAxis n (bitsOf w 5 4) with
    | none => (0, false)
    | some (m, o, a) =>
      let lead := d.leadOf m o a
      let k := min (bitsOf w 23 16) lead
      let s := match a.ra.hor.find? (fun h => h.tick == t + k * axisPeriod o.params) with | some h => h.s | none => a.cur
      (if bitsOf w 3 0 = 1 then s.v else s.a, decide (lead < bitsOf w 23 16))
  | 3 => (ps.i Par.lgrpRef (bitsOf w 11 8), false)
  | 4 => (((g.outer.bind (fun s => s.us[bitsOf w 11 8]?)).getD (openSignal 16 6 [(w : Int), (t : Int)])), false)
  | _ => (0, false)

/-- Values latched for a section at the gate of the tick that started at `t`: d with its shift, z, flags of R288. -/
def MDie.latch (d : MDie) (n t base : Nat) (last : Option Nat) (ps : Params) (g : Lgrp) (dm : SecDims) : List (Int × Nat) × List Int × List (Nat × Nat) :=
  let ys := (List.range dm.p).map (fun i => d.latchY n t last (ps.u Par.lgrpYSrc (base + i)))
  let zs := (List.range dm.nz).map (fun i => d.latchZ n t ps g (ps.u Par.lgrpZSrc (base + i)))
  (ys.map (fun y => (y.1, y.2.1)), zs.map (fun z => z.1),
   firstFlag 8 (zs.map (fun z => (z.1, z.2))) ++ firstFlag 9 (ys.map (fun y => (y.1, y.2.2))))

/-- Word range of a destination (R347, R384). -/
def dstRange (ps : Params) (j : Nat) : Option (Int × Int) :=
  match bitsOf (ps.u Par.lgrpUDst j) 3 0 with
  | 1 => some (-32767, 32767)
  | 2 => some (0, 65535)
  | _ => none

/-- Outcome of a section's run on the die. -/
structure SecRun where
  sec : LoopSec
  data : List Byte
  flags : List (Nat × Nat)
  outs : List (Nat × Int)
  trace : List Int

/-- Gate areas of both sections: the inner's, and the outer's 256 bytes above it (R300). -/
def MDie.gateBytes (d : MDie) (n t : Nat) (last : Option Nat) (ps : Params) (g : Lgrp) (fe : List Int) : List Byte :=
  let one (base : Nat) (dm : SecDims) : List Byte := let (ds, zv, _) := d.latch n t base last ps g dm; gateArea ds zv fe
  one 0 g.inner.dims ++ (match g.outerDims with | some dm => one 16 dm | none => List.replicate 256 0)

/-- Run one section with latched values. The control inputs of a host list are those its `OUT` steps read (R316). -/
def Lgrp.runSec (ps : Params) (g : Lgrp) (outer : Bool) (s : LoopSec) (ds : List (Int × Nat)) (zv : List Int) (gate : List Byte) : SecRun :=
  let base := if outer then 16 else 0
  let dst (j : Nat) : Option (Int × Int) := if outer then none else dstRange ps j
  if ps.u Par.lgrpListMode = 1 then
    let r := runHost (g.bank g.active) gate g.data s dst
    ⟨{ s with ctx := r.ctx, us := r.us.foldl (fun l x => l.set x.1 x.2) s.us }, r.data, ((List.range 16).filter (fun i => r.sat.testBit i)).map (fun i => (i, 0)), r.outs, r.trace⟩
  else
    let o := 32 + (if outer then bodyBytes g.inner.dims else 0)
    let x := runSection ps base (g.bank g.active) o s ds zv dst
    ⟨x.sec, g.data, x.flags, x.outs, []⟩

/-- The bank swap in force from this gate on (R287): the section's integrators, bits of those moved. -/
def Lgrp.swapSec (ps : Params) (g : Lgrp) (outer : Bool) (s : LoopSec) (zv : List Int) : LoopSec × Nat :=
  let base := if outer then 16 else 0
  let o := 32 + (if outer then bodyBytes g.inner.dims else 0)
  let zs := (zv.zipIdx).map (fun x => (scaleIn x.1 (ps.i Par.lgrpZGain (base + x.2)) (ps.u Par.lgrpZShift (base + x.2))).1)
  let (qs, m) := swapIntegrators (ps.u Par.lgrpBumpless = 1) (g.bank (1 - g.active)) (g.bank g.active) o s zs
  ({ s with qs := qs }, m)

/-- Records of the traces of a group after a run (R331). -/
def MDie.lgrpTrace (d : MDie) (n t new : Nat) (host : Bool) (vals : List Int) (eflags : Nat) : MDie :=
  (d.slotsOf .trace).foldl (fun d k => match d.trace? k, d.lgrp? n with
    | some (o, x), some (_, g) =>
      if o.life ≠ .enabled ∨ o.params.h Par.traceGroup ≠ d.handle n then d
      else
        let idx := x.writeIdx
        let (hit, x', es) := x.run o.params t new
        let sels := ((List.range 16).map (fun i => o.params.u Par.traceSelect i)).filter (fun s => bitsOf s 3 0 ≠ 0)
        let (d, vs) := if host then (d, vals) else sels.foldl (fun (y : MDie × List Int) s =>
          if 8 ≤ bitsOf s 3 0 then
            let w := if bitsOf s 3 0 = 8 then 16 else 32
            let (d, v) := y.1.draw (2 ^ w)
            (d, y.2 ++ [asSigned w v])
          else (y.1, y.2 ++ [traceValue g s])) (d, [])
        let size := x.size
        let d := (d.setData k (.trace x')).postAll k es
        if hit then
          let rec' := traceRecord size t idx eflags g.satFlags (vs.take 16)
          let d := { d with mem := d.mem.write (x.addr + idx % x.depth * size) rec' }
          d.bump k Par.traceDropped 0 (vs.length - 16)
        else d
    | _, _ => d) d

/-- Element of a flag in a list. -/
def flagAt (l : List (Nat × Nat)) (bit : Nat) : Option Nat := (l.find? (fun x => x.1 == bit)).map (fun x => x.2)

/-- The gate of the tick that started at `t`. -/
def MDie.lgrpGate (d : MDie) (n t : Nat) : MDie :=
  match d.lgrp? n with
  | none => d
  | some (o, g) =>
    let ps := o.params
    let p := classPeriod (ps.u Par.lgrpRateClass)
    let halted := d.lgrpHalted g
    if (o.life ≠ .enabled ∧ o.life ≠ .draining) ∨ halted ∨ g.gateTick = some t ∨ ¬ isTick p t then d
    else
      let host := decide (ps.u Par.lgrpListMode = 1)
      -- following error (R290)
      let fes := (List.range 4).map (fun i => match d.lgrpAxis n i with
        | some (_, ao, a) => (match d.axisSampleOf ao with | some s => s.pos - a.cur.p | none => 0)
        | none => 0)
      let fst := (List.range 4).map (fun i => feStep (ps.u Par.lgrpFeLimit i) (ps.u Par.lgrpFeTime i) (g.feCount.getD i 0) (fes.getD i 0))
      let hits := (fst.zip g.feHit).map (fun x => x.1.2 && !x.2)
      let last := g.gateTick
      let g := { g with feNow := fes, feCount := fst.map (fun x => x.1), feHit := fst.map (fun x => x.2), gateTick := some t, satStart := g.satFlags }
      -- sections
      let (ds, zv, fl0) := d.latch n t 0 last ps g g.inner.dims
      let outerRuns := isTick (p * ps.u Par.lgrpOuterDiv) t
      let lo := match g.outer with | some s => some (s, d.latch n t 16 last ps g s.dims) | none => none
      let (inner, m0) := if g.swapNow ∧ ¬ host then g.swapSec ps false g.inner zv else (g.inner, 0)
      let (os, m1) := match lo with
        | some (s, _, ozv, _) => if g.swapNow ∧ ¬ host then (let r := g.swapSec ps true s ozv; (some r.1, r.2)) else (some s, 0)
        | none => (none, 0)
      let moved := m0 ||| m1
      let swapEv := if g.swapNow then [report Evt.bankSwapped t (d8 g.active ++ d8 ((if ps.u Par.lgrpBumpless = 1 ∧ ¬ host then 1 else 0)
        + (if moved = 0 then 0 else 2)) ++ d8 moved)] else []
      let gate := d.gateBytes n t last ps g fes
      let r := g.runSec ps false inner ds zv gate
      let g1 := { g with inner := r.sec, data := r.data, staged := r.outs, swapNow := false
                         satCount := if (flagAt r.flags 2).isSome then (g.satCount + 1) % 2 ^ 32 else g.satCount }
      let flIn := fl0 ++ (if moved = 0 then [] else [(5, 0)]) ++ r.flags
      let (g2, flOut, tr2) := match os, lo with
        | some s, some (_, ods, ozv, ofl) => if outerRuns then
            (let x := g1.runSec ps true s ods ozv gate; ({ g1 with outer := some x.sec, data := x.data }, ofl ++ x.flags, x.trace))
          else ({ g1 with outer := some s }, [], [])
        | _, _ => (g1, [], [])
      let before := g2.satFlags
      let (g3, e1) := g2.addFlags t 0 flIn
      let (g4, e2) := g3.addFlags t 1 flOut
      let new := g4.satFlags - (g4.satFlags &&& before)
      -- contexts and their delays (R329)
      let cls := ps.u Par.lgrpRateClass
      let (d, delay) := d.draw (if cls = 0 then 261 else 65536)
      let (d, parks) := if cls ≠ 0 ∧ (d.groupsOn g.engine n).any (fun x => x.1.params.u Par.lgrpRateClass == 0) then d.draw (2 ^ cls + 1) else (d, 0)
      let g5 := { g4 with startMax := max g4.startMax delay, parkCount := (g4.parkCount + parks) % 2 ^ 32 }
      let d := (d.setData n (.lgrp g5)).postAll n (swapEv ++ e1 ++ e2)
      let d := { d with engines := listMod d.engines g.engine (fun e => { e with run := r.sec.ctx, step := 0, group := d.handle n }) }
      let d := d.lgrpTrace n t new host (r.trace ++ tr2)
        (match g2.outer with | some s => if outerRuns then s.ctx.eflags else r.sec.ctx.eflags | none => r.sec.ctx.eflags)
      let d := match flagAt flIn 3, flagAt flOut 3 with
        | some k, _ => if ps.u Par.lgrpXsatAction = 1 then d.lgrpFault n (faultEv Evt.stateSaturated t (d8 0 ++ d8 k)) t false else d
        | none, some k => if ps.u Par.lgrpXsatAction = 1 then d.lgrpFault n (faultEv Evt.stateSaturated t (d8 1 ++ d8 k)) t false else d
        | none, none => d
      (List.range 4).foldl (fun d i => if hits.getD i false then d.lgrpFeFault n i t else d) d

/-- Sigma-delta results older than the last one the gates of the tick that started at `t` could read are no longer held. -/
def MDie.gateDone (d : MDie) (t : Nat) : MDie :=
  (d.slotsOf .sdin).foldl (fun d k => match d.sdin? k with
    | some (_, x) => d.setData k (.sdin (x.gateDone (t + 1000)))
    | none => d) d

/-! Losses (R293). -/

/-- Where a group uses an object that has left ENABLED: section, y index or 0xFF. -/
def MDie.lgrpUses (d : MDie) (n k : Nat) (ps : Params) (g : Lgrp) : Option (Nat × Nat) :=
  let axH (w : Nat) : U32 := match d.lgrpAxis n (bitsOf w 5 4) with | some x => d.handle x.1 | none => 0
  let onLane (w : Nat) : Bool := match d.laneOf (axH w) with | some (m, _) => m == k | none => false
  let y (base p : Nat) : Option Nat := (List.range p).find? (fun i =>
    let w := ps.u Par.lgrpYSrc (base + i)
    (bitsOf w 3 0 == 4 && onLane w) || (bitsOf w 3 0 == 5 && 64 + bitsOf w 15 8 == k))
  let u : Bool := (List.range g.inner.dims.m).any (fun j =>
    let w := ps.u Par.lgrpUDst j
    (bitsOf w 3 0 == 1 && onLane w) || (bitsOf w 3 0 == 2 && (match d.pwmOf (bitsOf w 15 8) with | some (m, _) => m == k | none => false)))
  match y 0 g.inner.dims.p with
  | some i => some (0, i)
  | none => if u then some (0, 0xFF) else match g.outerDims with
    | some dm => (y 16 dm.p).map (fun i => (1, i))
    | none => none

/-- A lane, PWM group or sigma-delta input has left ENABLED. -/
def MDie.lgrpInputLost (d : MDie) (k t : Nat) : MDie :=
  (d.slotsOf .lgrp).foldl (fun d n => match d.lgrp? n with
    | some (o, g) => if o.life ≠ .enabled ∧ o.life ≠ .draining then d else match d.lgrpUses n k o.params g with
      | some (s, i) => d.lgrpFault n (faultEv Evt.inputLost t (d8 s ++ d8 i ++ [0, 0] ++ d32 (d.handle k).toNat)) t true
      | none => d
    | none => d) d

/-- A bound axis has entered DISABLED after a fault. -/
def MDie.lgrpAxisFault (d : MDie) (k code t : Nat) : MDie :=
  match d.obj? k with
  | none => d
  | some o => match d.lgrpOf o with
    | some (n, go, _) => if go.life ≠ .enabled then d
        else d.lgrpFault n (faultEv Evt.axisFault t (d32 (d.handle k).toNat ++ d16 code)) t false
    | none => d

/-- The end of a trace that is disabled: it records no further, and R335 gives its `TRACE_STOPPED` no cause (log 156). -/
def MDie.traceEnd (d : MDie) (n t : Nat) : MDie :=
  match d.trace? n with
  | none => d
  | some (_, x) =>
    let (d, c) := if x.st = 1 ∨ x.st = 2 then d.draw 256 else (d, 0)
    let (x, es) := x.halt t c
    ((d.setData n (.trace x)).postAll n es).toIdle n t

/-- The traces of a group that has left ENABLED stop (R331). -/
def MDie.lgrpLeft (d : MDie) (n t : Nat) : MDie :=
  (d.slotsOf .trace).foldl (fun d k => match d.trace? k with
    | some (o, x) => if o.params.h Par.traceGroup = d.handle n then
        (let (x, es) := x.halt t 4; (d.setData k (.trace x)).postAll k es) else d
    | none => d) d

/-- What the objects that left ENABLED between two states bring about, at time `t`. -/
def MDie.losses (before d : MDie) (t : Nat) : MDie :=
  let left := before.objects.filterMap (fun (x : Nat × Obj) =>
    if x.2.life = .enabled ∧ d.enabledAt x.1 = false then some (x.1, x.2.cls) else none)
  let d := left.foldl (fun d (x : Nat × Class) => match x.2 with
    | .dlane => (d.fbkLaneLost (x.1 - 72) t).lgrpInputLost x.1 t
    | .pwmg | .sdin => d.lgrpInputLost x.1 t
    | _ => d) d
  -- PWM pairs take the standstill of their axes (R170, R351)
  let d := (d.slotsOf .axis).foldl (fun d n =>
    let on (x : MDie) : Bool := match x.axis? n with | some (_, a) => a.standstill.isSome | none => false
    if on d && !on before then d.axisStill n else d) d
  let ended := d.posted.filter (fun e => e.code == Evt.objectIdle && e.fault)
  let d := ended.foldl (fun d e => d.lgrpAxisFault (hSlot e.src) (rdU e.data 0 2) t) d
  (before.slotsOf .lgrp).foldl (fun d' n => if before.enabledAt n ∧ d'.enabledAt n = false then d'.lgrpLeft n t else d') d

/-! Opcodes (R295, R332, R334). -/

def MDie.lgrpOpBad (d : MDie) (op : Op) (n : Nat) (o : Obj) (g : Lgrp) (b : List Byte) : Bad :=
  let running : Bool := o.life == .enabled || o.life == .draining
  match op with
  | .lgrpCoefWrite =>
    let bk := rdU b 0 1
    let off := rdU b 4 4
    firstBad [badIf (decide (1 < bk)) 8 .badParam, badIf (decide (off % 8 ≠ 0 ∨ g.bytes o.params < off + rdU b 2 2)) 9 .outOfRange,
      badIf (running && bk == g.active) 10 .wrongState, badIf (bk != g.active && d.swapPending n g) 10 .busy]
  | .lgrpBankSwap => firstBad [badIf (d.swapPending n g) 10 .busy,
      match g.bankCause o.params (1 - g.active) with
      | some c => some (10, .badParam, ⟨0, BitVec.ofNat 64 c⟩)
      | none => none]
  | .lgrpResetState => needEnabled o
  | .lgrpStepWrite =>
    let off := rdU b 4 4
    firstBad [badIf (decide (1 < rdU b 0 1)) 8 .badParam,
      badIf (decide (off % 8 ≠ 0 ∨ 8192 < off + rdU b 2 2) || (rdU b 0 1 == 1 && g.outer.isNone)) 9 .outOfRange,
      badIf (running || o.params.u Par.lgrpListMode == 0) 10 .wrongState]
  | .lgrpStepRead => firstBad [badIf (decide (1 < rdU b 0 1)) 8 .badParam,
      badIf (decide (lgrpSteps o.params g (rdU b 0 1 == 1) ≤ rdU b 2 2)) 9 .outOfRange]
  | _ => none

/-- A list with words written at a step index; steps between hold 0 (`NOP`). -/
def writeSteps (ws : List U64) (at_ : Nat) (new : List U64) : List U64 :=
  (ws ++ List.replicate (at_ + new.length - ws.length) 0).take at_ ++ new ++ ws.drop (at_ + new.length)

/-- Steps of a list, up to its `END`. -/
def listInForce (ws : List U64) : List U64 :=
  match ws.findIdx? (fun w => stOp w.toNat == 15) with
  | some i => ws.take (i + 1)
  | none => ws

/-- Effect of a Loop opcode at tick `t`. -/
def MDie.lgrpDo (d : MDie) (op : Op) (n t : Nat) (b : List Byte) : MDie × Result :=
  match d.lgrp? n with
  | none => (d, noResult)
  | some (o, g) =>
    let running := decide (o.life = .enabled ∨ o.life = .draining)
    match op with
    | .lgrpCoefWrite => (d.setData n (.lgrp (g.coefWrite (rdU b 0 1) (rdU b 4 4) ((b.drop 8).take (rdU b 2 2)))), noResult)
    | .lgrpBankSwap =>
      let g' := { g with active := 1 - g.active, swapNow := running }
      let d := d.setData n (.lgrp g')
      (if running then d else d.post n (report Evt.bankSwapped t (d8 g'.active ++ [0, 0])), ⟨BitVec.ofNat 64 g'.active, 0⟩)
    | .lgrpResetState =>
      if o.life ≠ .enabled then (d, noResult)
      else (d.setData n (.lgrp (g.resetState (bitOf (rdU b 0 1) 0) (bitOf (rdU b 0 1) 1) (bitOf (rdU b 0 1) 2))), noResult)
    | .lgrpTakeFlags =>
      let f := if g.gateTick = some t then g.satStart else g.satFlags
      (d.setData n (.lgrp { g with satFlags := g.satFlags - (g.satFlags &&& f), satStart := 0 }), ⟨BitVec.ofNat 64 f, 0⟩)
    | .lgrpStepWrite =>
      if running then (d, noResult)
      else
        let k := rdU b 2 2
        let new := (List.range (k / 8)).map (fun i => BitVec.ofNat 64 (rdU b (8 + 8 * i) 8))
        let put (s : LoopSec) : LoopSec := { s with steps := writeSteps s.steps (rdU b 4 4 / 8) new }
        (d.setData n (.lgrp (if rdU b 0 1 = 1 then { g with outer := g.outer.map put } else { g with inner := put g.inner })), noResult)
    | .lgrpStepRead =>
      let i := rdU b 2 2
      let outer := decide (rdU b 0 1 = 1)
      (d, ⟨lgrpStep o.params g outer i, lgrpStep o.params g outer (i + 1)⟩)
    | _ => (d, noResult)

/-! `TRACE` (R331 … R334). -/

def traceCreateBad (d : MDie) (word : Nat) : Bad := firstBad [badIf (word != 0) 8 .badParam, badIf (decide (64 ≤ d.countOf .trace)) 11 .noResource]

def tracePar (d : MDie) (ps : Params) (id : Nat) (v : U64) : Bad :=
  if id = Par.traceGroup then bindBad d v [.lgrp] []
  else if id = Par.tracePost then badIf (decide (ps.u Par.traceDepth ≤ v.toNat)) 9 .outOfRange
  else if id = Par.traceSelect then badIf (decide (9 < bitsOf v.toNat 3 0)) 9 .outOfRange
  else if id = Par.traceTrigFlags then badIf (decide (2 ^ 10 ≤ v.toNat)) 9 .outOfRange
  else none

/-- Does a trace name a group with host lists? -/
def MDie.traceHost (d : MDie) (o : Obj) : Bool :=
  match d.find (o.params.h Par.traceGroup) with
  | some (_, g) => g.params.u Par.lgrpListMode == 1
  | none => false

def MDie.traceBytes (d : MDie) (o : Obj) : Nat := o.params.u Par.traceDepth * traceRecBytes (d.traceHost o) o.params

def MDie.traceEnableBad (d : MDie) (n : Nat) (o : Obj) : Bad :=
  firstBad [match d.objects.find? (fun (x : Nat × Obj) => x.1 != n && x.2.cls == .trace && x.2.life == .enabled
        && o.params.u Par.traceGroup != 0 && x.2.params.h Par.traceGroup == o.params.h Par.traceGroup) with
      | some (k, _) => busyOf (d.handle k)
      | none => none,
    badIf ((d.mem.release n).alloc (d.traceBytes o) n false).isNone 11 .noResource]

def MDie.traceEnableDo (d : MDie) (n : Nat) : MDie :=
  match d.trace? n with
  | none => d
  | some (o, _) => match (d.mem.release n).alloc (d.traceBytes o) n false with
    | some (m, a) => { d with mem := m }.setData n (.trace { Trace.create with
        addr := a, bytes := d.traceBytes o, depth := o.params.u Par.traceDepth, size := traceRecBytes (d.traceHost o) o.params })
    | none => d

def MDie.traceRead (d : MDie) (o : Obj) (x : Trace) (id : Nat) : Option Int :=
  if id = Par.traceAddr then some x.addr
  else if id = Par.traceRecBytes then some (traceRecBytes (d.traceHost o) o.params)
  else if id = Par.traceWriteIdx then some x.writeIdx
  else if id = Par.traceState then some x.st
  else if id = Par.traceTrigIdx then some x.trigIdx
  else none

def MDie.traceOpBad (d : MDie) (op : Op) (o : Obj) (x : Trace) (b : List Byte) : Bad :=
  match op with
  | .traceArm => needEnabled o
  | .traceRead =>
    let r := rdU b 0 4
    badIf (decide (x.writeIdx ≤ r ∨ r + x.depth < x.writeIdx ∨ rdU b 4 2 % 16 ≠ 0 ∨ x.size ≤ rdU b 4 2)) 9 .outOfRange
  | _ => none

def MDie.traceDo (d : MDie) (op : Op) (n t : Nat) (b : List Byte) : MDie × Result :=
  match d.trace? n with
  | none => (d, noResult)
  | some (o, x) =>
    match op with
    | .traceArm => if o.life ≠ .enabled then (d, noResult) else (d.setData n (.trace x.arm), noResult)
    | .traceStop =>
      let (x, es) := x.halt t 3
      ((d.setData n (.trace x)).postAll n es, ⟨BitVec.ofNat 64 (x.writeIdx % 2 ^ 32), 0⟩)
    | .traceRead =>
      let bs := d.mem.sram.readN (x.addr + rdU b 0 4 % x.depth * x.size + rdU b 4 2) 16
      (d, ⟨BitVec.ofNat 64 (rdU bs 0 8), BitVec.ofNat 64 (rdU bs 8 8)⟩)
    | _ => (d, noResult)

end Sys2Proof.Machine
end

