-- ==== Sys2Proof/Machine/Gates.lean ====
section
/-! DEFINITION. The balls of the PWM pairs (R336, R337, R340, R349 … R353): what drives each pair, and the edges that leave. -/

namespace Sys2Proof.Machine

open Sys2Proof

/-- Is an engine halted by debug (R353, R387)? -/
def MDie.frozen (d : MDie) : Bool := d.engines.any (fun e => e.halted)

/-- The group of a pair. -/
def MDie.gateGroup (d : MDie) (i : Nat) : Option (Obj × Pwmg) :=
  match d.pwmOf i with
  | some (_, o, g) => some (o, g)
  | none => none

/-- What drives a pair now. -/
def MDie.gateSource (d : MDie) (i : Nat) : GateSrc :=
  if d.boot.ready = false then .off
  else if d.frozen then .hold
  else match d.gateGroup i with
    | none => .pattern false false
    | some (o, g) => pairSource o.params g (o.life = .enabled || o.life = .draining) i

/-- One edge of a pair at counter clock `cc`, if its levels change there. -/
def MDie.gateEdge (d : MDie) (i cc : Nat) : MDie :=
  match d.gatePairs[i]? with
  | none => d
  | some x =>
    let og := d.gateGroup i
    let ps : Params := match og with | some (o, _) => o.params | none => []
    let l := x.levelAt ps (og.map (fun y => y.2)) i cc
    let ball : Option (Bool × Bool) := if x.src = .off then none else some (if og.isSome then polarised ps i l else l)
    let offAt := (if x.now.1 && !l.1 then some cc else x.offAt.1, if x.now.2 && !l.2 then some cc else x.offAt.2)
    let d := { d with gatePairs := d.gatePairs.set i { x with now := l, ball := ball, offAt := offAt } }
    if ball = x.ball then d else d.emit (.gate i cc ball)

/-- No edge leaves past the next boundary of a running group before that boundary is worked. -/
def MDie.gateCap (d : MDie) (i cc : Nat) : Nat :=
  if d.frozen then cc
  else match d.gateGroup i with
    | some (o, g) => if o.life = .enabled ∨ o.life = .draining then min cc g.next else cc
    | none => cc

/-- The edges of a pair before counter clock `cc`, what drives it unchanged. -/
def MDie.gateRun (d : MDie) (i cc : Nat) : MDie :=
  match d.gatePairs[i]? with
  | none => d
  | some x =>
    let cc := d.gateCap i cc
    if cc ≤ x.seen then d
    else
      let og := d.gateGroup i
      let ts := (x.changes (match og with | some (o, _) => o.params | none => []) (og.map (fun y => y.2)) i).filter (fun t =>
        decide (x.seen ≤ t ∧ t < cc))
      let d := (sortBy (fun (a b : Nat) => decide (a ≤ b)) ts).foldl (fun (d : MDie) t => d.gateEdge i t) d
      { d with gatePairs := d.gatePairs.modify i (fun x => { x with seen := cc }) }

/-- The edges of the pairs of a mask before counter clock `cc`. -/
def MDie.gatesTo (d : MDie) (mask cc : Nat) : MDie := (pairsOf mask).foldl (fun (d : MDie) i => d.gateRun i cc) d

/-- At counter clock `cc` the pairs of a mask are driven as the state says now. -/
def MDie.gatesSet (d : MDie) (mask cc : Nat) : MDie :=
  (pairsOf mask).foldl (fun (d : MDie) i =>
    let d := d.gateRun i cc
    match d.gatePairs[i]? with
    | none => d
    | some x =>
      let s := d.gateSource i
      let t := max x.seen (d.gateCap i cc)
      let d := if x.src = s then d else { d with gatePairs := d.gatePairs.set i { x with src := s, since := t, was := x.now } }
      d.gateEdge i t) d

/-- Every pair at the end of a step. -/
def MDie.gatesNow (d : MDie) : MDie := d.gatesSet 0xFFF (ccOf d.ns)

end Sys2Proof.Machine
end

