-- ==== Sys2Proof/Machine/PwmDie.lean ====
section
/-! DEFINITION. PWM groups and sigma-delta inputs on the die (R337 … R362). -/

namespace Sys2Proof.Machine

open Sys2Proof

/-- The next class 0 tick: the one after the tick that has begun. -/
def MDie.nextTick (d : MDie) : Nat := max (d.tick + 16000) (d.ns / 16000 * 16000)

/-- Run to a running time, if it lies before the next class 0 tick; none where it lies later. -/
def MDie.passUp (d : MDie) (due : Nat) : Option MDie :=
  if due ≤ d.upNs then some d
  else if d.ns + (due - d.upNs) ≤ d.nextTick then some (d.passTo (d.ns + (due - d.upNs))) else none

/-- The same while the die is not up, when no tick has anything to do: any running time ahead. -/
def MDie.passBoot (d : MDie) (due : Nat) : Option MDie :=
  if d.boot.ready then d.passUp due
  else if due ≤ d.upNs then some d else some (d.passTo (d.ns + (due - d.upNs)))

/-- Start of the class 0 tick in progress. -/
def MDie.tick0 (d : MDie) : Nat := d.tick

/-- Fault inputs that are low, as a mask. -/
def MDie.faultLow (d : MDie) : Nat := (d.pwmFault.zipIdx).foldl (fun m (x : Bool × Nat) => if x.1 then m + 2 ^ x.2 else m) 0

/-- Life-cycle states in which debug is open (R361, R598). -/
def MDie.debugOpen (d : MDie) : Bool := d.mram.lc == 1 || d.mram.lc == 3

/-! `PWMG`. -/

def MDie.pwmgCreateBad (d : MDie) (word : Nat) : Bad :=
  let m := bitsOf word 11 0
  firstBad [badIf (decide (m = 0 ∨ 2 ^ 12 ≤ word)) 8 .badParam,
    match d.objects.find? (fun (x : Nat × Obj) => match x.2.data with | .pwmg g => g.mask &&& m != 0 | _ => false) with
    | some (n, _) => busyOf (d.handle n)
    | none => none]

/-- Parameters indexed by pair (R359). -/
def byPair (id : Nat) : Bool := [Par.pwmgOn, Par.pwmgOff, Par.pwmgDead, Par.pwmgSafe, Par.pwmgOnNow].contains id

/-- The shadow set (R343). -/
def isShadow (id : Nat) : Bool := [Par.pwmgPeriod, Par.pwmgCmpa, Par.pwmgCmpb, Par.pwmgOn, Par.pwmgOff, Par.pwmgDead].contains id

/-- Bits of `PWMG.POLARITY` that are not reserved. -/
def polarityMask : Nat := 0x0FFF0FFF

def pwmgIndexBad (g : Pwmg) (id ix : Nat) : Bad := badIf (byPair id && !g.mask.testBit ix) 9 .outOfRange

/-- Class checks of an entry; `ps` are the parameters with the entry written. -/
def pwmgPar (o : Obj) (g : Pwmg) (ps : Params) (id ix : Nat) (v : U64) : Bad :=
  let running : Bool := o.life == .enabled || o.life == .draining
  firstBad [pwmgIndexBad g id ix, badIf (id == Par.pwmgSafe && v == 3) 8 .badParam,
    badIf (id == Par.pwmgPolarity && decide (v.toNat &&& polarityMask ≠ v.toNat)) 8 .badParam,
    badIf (id == Par.pwmgPhase && decide (carrier ps (shadowSet ps) ≤ v.toNat)) 9 .outOfRange,
    badIf (id == Par.pwmgPeriod && running && ps.u Par.pwmgMode == 0) 10 .wrongState]

def MDie.pwmgEnableBad (d : MDie) (o : Obj) : Bad :=
  firstBad [badIf (o.params.u Par.pwmgFaultMode == 0 && d.faultLow &&& o.params.u Par.pwmgFaultSel != 0) 10 .faulted,
    badIf (!pwmEnableOk o.params) 12 .infeasible]

def MDie.pwmgEnableDo (d : MDie) (n t : Nat) : MDie :=
  match d.pwmg? n with
  | none => d
  | some (o, g) => d.setData n (.pwmg { g.enable o.params t with faultHold := d.faultLow &&& o.params.u Par.pwmgFaultSel != 0 })

def MDie.pwmgRead (d : MDie) (o : Obj) (g : Pwmg) (id ix : Nat) : Option Int :=
  if id = Par.pwmgPairs then some g.mask
  else if id = Par.pwmgLoadPending then some (if g.loadPending then 1 else 0)
  else if id = Par.pwmgPeriodNow then some (match g.active with | some s => (carrierRun o.params g.mask s : Int) | none => 0)
  else if id = Par.pwmgOnNow then some (match g.active with | some s => ((s.pairs.getD ix ⟨0, 0, 0⟩).on : Int) | none => 0)
  else if id = Par.pwmgFaultIn then some d.faultLow
  else if id = Par.pwmgStretchCount then some g.stretchCount
  else if id = Par.pwmgCycleFaults then some g.cycleFaults
  else none

/-- Shadow writes: stored, or discarded while a load is pending (R345). -/
def MDie.pwmShadow (d : MDie) (n t : Nat) (ws : List (Nat × Nat × U64)) : MDie :=
  match d.pwmg? n with
  | none => d
  | some (_, g) =>
    if ws = [] then d
    else if g.loadPending then
      let (g, es) := g.discard t ws.length
      ((d.setData n (.pwmg g)).orPar n Par.pwmgFlags 1).postAll n es
    else ws.foldl (fun d (w : Nat × Nat × U64) => d.setPar n w.1 w.2.1 w.2.2) d

/-- `LOAD_ALL`. -/
def MDie.pwmLoad (d : MDie) (n pairs : Nat) : MDie :=
  match d.pwmg? n with
  | some (o, g) => if o.life = .enabled then d.setData n (.pwmg (g.loadAll pairs)) else d
  | none => d

def pwmOpBad (lockedOut : Bool) (op : Op) (o : Obj) (g : Pwmg) (b : List Byte) : Bad :=
  let mask := rdU b 0 2
  let outside := badIf (decide (mask &&& g.mask ≠ mask)) 8 .badParam
  match op with
  | .pwmWrite => firstBad [outside, badIf ((List.range (pairsOf mask).length).any (fun i => rdU b (12 + 8 * i) 4 != 0)) 8 .badParam, badIf (bitOf (rdU b 2 1) 1 && rdU b 4 2 == 0) 9 .outOfRange, needEnabled o,
      badIf (bitOf (rdU b 2 1) 1 && o.params.u Par.pwmgMode == 0) 10 .wrongState]
  | .pwmLoadAll => needEnabled o
  | .pwmForce => firstBad [outside, badIf (decide (3 ≤ rdU b 2 1)) 8 .badParam, badIf lockedOut 7 .locked, needEnabled o]
  | _ => none

/-- Effect of a PWM opcode at tick `t`. -/
def MDie.pwmDo (d : MDie) (op : Op) (n t : Nat) (b : List Byte) : MDie :=
  match d.pwmg? n with
  | none => d
  | some (o, g) =>
    if o.life ≠ .enabled then d
    else match op with
      | .pwmWrite =>
        let fl := rdU b 2 1
        let per := if bitOf fl 1 then [(Par.pwmgPeriod, 0, BitVec.ofNat 64 (rdU b 4 2))] else []
        let ws := ((pairsOf (rdU b 0 2)).zipIdx).flatMap (fun (x : Nat × Nat) =>
          [(Par.pwmgOn, x.1, BitVec.ofNat 64 (rdU b (8 + 8 * x.2) 2)), (Par.pwmgOff, x.1, BitVec.ofNat 64 (rdU b (10 + 8 * x.2) 2))])
        let d := d.pwmShadow n t (per ++ ws)
        if bitOf fl 0 then d.pwmLoad n 0 else d
      | .pwmLoadAll => d.pwmLoad n 0
      | .pwmForce =>
        let p : Option Nat := if bitOf (rdU b 3 1) 0 then none else some (rdU b 2 1)
        d.setData n (.pwmg { g with force := (pairsOf (rdU b 0 2)).foldl (fun l i => l.set i p) g.force })
      | _ => d

/-- Trigger firings reach the triggered sigma-delta inputs (R357). -/
def MDie.sdinFire (d : MDie) (n : Nat) (fs : List (Nat × Nat)) : MDie :=
  fs.foldl (fun d (f : Nat × Nat) => (d.slotsOf .sdin).foldl (fun d k => match d.sdin? k with
    | some (o, x) => if o.life = .enabled ∧ o.params.u Par.sdinMode = 1 ∧ o.params.h Par.sdinTrigGroup = d.handle n ∧ o.params.u Par.sdinTrig = f.1 then
        d.setData k (.sdin { x with trigAt := some (nsOfCc f.2) }) else d
    | none => d) d) d

/-- Is a transfer of a Loop Engine's words to a group unaligned (R347)? -/
def MDie.pwmUnaligned (d : MDie) (o : Obj) (g : Pwmg) : Bool :=
  d.objects.any (fun (x : Nat × Obj) => match x.2.data with
    | .lgrp l => (x.2.life == .enabled || x.2.life == .draining) && (List.range l.inner.dims.m).any (fun j =>
        let w := x.2.params.u Par.lgrpUDst j
        bitsOf w 3 0 == 2 && g.mask.testBit (bitsOf w 15 8)) && !pwmAligned o.params (classPeriod (x.2.params.u Par.lgrpRateClass))
    | _ => false)

/-- The trigger events of a group up to a counter clock; answers the firings. -/
def MDie.pwmTriggers (d : MDie) (n upTo : Nat) : MDie × List (Nat × Nat) :=
  match d.pwmg? n with
  | none => (d, [])
  | some (o, g) =>
    let (g, fs) := g.triggers o.params upTo
    ((d.setData n (.pwmg g)).sdinFire n fs, fs)

/-- The probe points 8 … 19 see a carrier boundary of the group of their pair (R601). -/
def MDie.carrierMark (d : MDie) (mask t : Nat) : MDie :=
  { d with carrier := d.carrier ++ ((List.range 12).filter (fun k => bitOf mask k)).map (fun k => (k, t)) }

/-- The next boundary of a group (R342 … R345, R352), with the trigger events before it. -/
def MDie.pwmBoundary (d : MDie) (n : Nat) : MDie × List (Nat × Nat) :=
  match d.pwmg? n with
  | none => (d, [])
  | some (o, g) =>
    if (o.life ≠ .enabled ∧ o.life ≠ .draining) ∨ d.frozen then (d, [])
    else
      let b := g.next
      let t := nsOfCc b / 16000 * 16000
      let d := d.gatesTo g.mask b
      if o.life = .draining then ((d.toIdle n t).gatesSet g.mask b, [])
      else
        let (d, f1) := if g.start.isSome then d.pwmTriggers n (b - 1) else (d, [])
        match d.pwmg? n with
        | none => (d, f1)
        | some (o, g) =>
          let una := (g.active.isNone || g.loadPending) && g.engineReq != 0 && !g.unalignedDone && d.pwmUnaligned o g
          let r := g.boundary o.params d.faultLow t
          let d := (d.setData n (.pwmg { r.g with unalignedDone := g.unalignedDone || una, trigSeen := b })).gatesSet g.mask b
          let cyc := if g.faultHold then 32 else 0
          let d := d.carrierMark g.mask (nsOfCc b)
          let d := (d.orPar n Par.pwmgFlags (r.flags + (if una then 16 else 0) + cyc)).postAll n r.evs
          let (d, f2) := d.pwmTriggers n b
          (d, f1 ++ f2)

/-- Boundaries and triggers of a group up to time `T` (exclusive), at most `k` boundaries. -/
def MDie.pwmRun (d : MDie) (n T : Nat) : Nat → MDie × List (Nat × Nat)
  | 0 => (d, [])
  | k + 1 => match d.pwmg? n with
    | none => (d, [])
    | some (o, g) =>
      if (o.life ≠ .enabled ∧ o.life ≠ .draining) ∨ d.frozen then (d, [])
      else if nsOfCc g.next < T then
        let (d, f1) := d.pwmBoundary n
        let (d, f2) := d.pwmRun n T k
        (d, f1 ++ f2)
      else d.pwmTriggers n (ccOf T - 1)

/-- A fault of a group in the latching mode ends it at once with the safe pattern (R350). -/
def MDie.pwmFaultNow (d : MDie) (n low t : Nat) : MDie :=
  match d.obj? n with
  | none => d
  | some o =>
    let (d, _) := (d.post n (faultEv Evt.pwmFault t (d8 low))).faultMark n Evt.pwmFault
    if o.life = .enabled ∨ o.life = .draining then d.toIdle n t else d

/-- What a fault input that has been low for a number of counter clocks does to every group that selects it (R349, R350). -/
def MDie.pwmFaultAll (d : MDie) (i clocks : Nat) : MDie :=
  (d.slotsOf .pwmg).foldl (fun d n => match d.pwmg? n with
    | none => d
    | some (o, g) =>
      let low := d.faultLow &&& o.params.u Par.pwmgFaultSel
      if (o.life ≠ .enabled ∧ o.life ≠ .draining) ∨ bitOf (o.params.u Par.pwmgFaultSel) i = false ∨ clocks ≤ o.params.u Par.pwmgFaultFilt then d
      else if o.params.u Par.pwmgFaultMode = 0 then d.pwmFaultNow n low d.tick0
      else if g.faultHold then d.setData n (.pwmg { g with highAt := none })
      else
        let (g, es) := g.cycleFault low d.tick0
        ((d.setData n (.pwmg g)).orPar n Par.pwmgFlags 32).postAll n es) d

/-- A fault input is low. The path to the balls takes up to 25 ns, and a pulse under 5 ns may pass unseen (R349, R354, log 137). -/
def MDie.pwmInputLow (d : MDie) (i clocks : Nat) : MDie :=
  let d := { d with pwmFault := d.pwmFault.set i true }
  if d.frozen then d
  else
    let (d, k) := d.draw 11
    let (d, seen) := if clocks < 2 then d.draw 2 else (d, 1)
    let d := if seen = 1 then d.pwmFaultAll i clocks else d
    d.gatesSet 0xFFF (ccOf d.ns + k)

/-- A fault input returns high. -/
def MDie.pwmInputHigh (d : MDie) (i : Nat) : MDie :=
  let d := { d with pwmFault := d.pwmFault.set i false }
  (d.slotsOf .pwmg).foldl (fun d n => match d.pwmg? n with
    | some (o, g) => if g.faultHold ∧ d.faultLow &&& o.params.u Par.pwmgFaultSel = 0 ∧ g.highAt.isNone then
        d.setData n (.pwmg { g with highAt := some d.ns }) else d
    | none => d) d

/-- The end of a freeze (R353): mode 0 on its grid, the others at the next class 0 tick. -/
def MDie.pwmThaw (d : MDie) : MDie :=
  let d := (d.slotsOf .pwmg).foldl (fun d n => match d.pwmg? n with
    | some (o, g) =>
      let b := if o.params.u Par.pwmgMode = 0 then firstBoundary o.params d.ns else ccOf d.nextTick
      d.setData n (.pwmg { g with start := none, next := b, trigSeen := b })
    | none => d) d
  (List.range 4).foldl (fun d i => if d.pwmFault.getD i false then d.pwmInputLow i 256 else d) d

/-! `SDIN`. -/

def sdinPar (d : MDie) (id : Nat) (v : U64) : Bad := if id = Par.sdinTrigGroup then bindBad d v [.pwmg] [] else none

def MDie.sdinEnableBad (d : MDie) (o : Obj) : Bad :=
  badIf (o.params.u Par.sdinMode == 1 && !d.isLife (o.params.h Par.sdinTrigGroup) .enabled) 10 .wrongState

/-- The ENABLED loop group that reads an input (R358). -/
def MDie.sdinUser (d : MDie) (n : Nat) : Option U32 :=
  d.objects.findSome? (fun (x : Nat × Obj) => match x.2.data with
    | .lgrp g =>
      let reads (base p : Nat) : Bool := (List.range p).any (fun i =>
        let w := x.2.params.u Par.lgrpYSrc (base + i)
        bitsOf w 3 0 == 5 && 64 + bitsOf w 15 8 == n)
      if x.2.life = .enabled ∧ (reads 0 g.inner.dims.p || (match g.outerDims with | some dm => reads 16 dm.p | none => false)) = true
      then some (d.handle x.1) else none
    | _ => none)

def MDie.sdinDisableBad (d : MDie) (n : Nat) : Bad := match d.sdinUser n with | some h => busyOf h | none => none

/-- The drain of an input: without a result in progress it ends at once (R358). -/
def MDie.sdinDrain (d : MDie) (n t : Nat) : MDie :=
  match d.sdin? n with
  | some (o, x) => if o.params.u Par.sdinMode = 1 ∧ x.trigAt.isNone then d.toIdle n t else d
  | none => d

def sdinRead (x : Sdin) (id : Nat) : Option Int :=
  if id = Par.sdinResult then some x.result
  else if id = Par.sdinResultTime then some (x.time / 1000000000 % 2 ^ 32 * 2 ^ 32 + x.time % 1000000000 : Nat)
  else none

/-- Instant of the result an input forms next; none while it waits for a trigger. -/
def MDie.sdinInstant (d : MDie) (o : Obj) (x : Sdin) : Option Nat :=
  if o.params.u Par.sdinMode = 1 then
    (if d.isLife (o.params.h Par.sdinTrigGroup) .enabled ∨ o.life = .draining then x.trigAt else none)
  else
    let next := sdinNext o.params (d.ns - 1)
    some (if next = x.time then sdinNext o.params next else next)

/-- A result is formed from the modulator's bits before its instant (R356, R357). -/
def MDie.sdinResult (d : MDie) (n : Nat) (bits : List Bool) : MDie :=
  match d.sdin? n with
  | none => d
  | some (o, x) =>
    if (o.life ≠ .enabled ∧ o.life ≠ .draining) ∨ d.frozen then d
    else match d.sdinInstant o x with
      | none => d
      | some at_ =>
        if d.nextTick < at_ then d
        else
          let need := sdinBits o.params
          let bs := (bits ++ List.replicate (need - bits.length) false).take need
          let d := d.passTo at_
          let t := at_ / 16000 * 16000
          let (x, es, fl) := x.form o.params bs at_ t
          let (d, k) := d.draw 151
          let d := ((d.setData n (.sdin (x.deliver k))).orPar n Par.sdinFlags fl).postAll n es
          if o.life = .draining then d.toIdle n t else d

/-- Draining inputs whose result never came end at a tick. -/
def MDie.sdinTick (d : MDie) (t : Nat) : MDie :=
  (d.slotsOf .sdin).foldl (fun d n => match d.obj? n with
    | some o => if o.life = .draining ∧ o.drainAt + 16000 ≤ t then d.toIdle n t else d
    | none => d) d

end Sys2Proof.Machine
end

