-- ==== Sys2Proof/Machine/LaneDie.lean ====
section
/-! DEFINITION. Drive lanes on the die: refusals, enable, frames, uplinks, staleness, loss, drain (R363 … R393), and the hand-over
of loop outputs to lanes and PWM groups (R282, R347, R384). -/

namespace Sys2Proof.Machine

open Sys2Proof

/-! Object. -/

def laneIndexBad (ps : Params) (id ix : Nat) : Bad :=
  badIf ((match paramRow? id with | some r => r.cls == some .dlane && r.idx == 4 | none => false) && decide (laneAxes ps ≤ ix)) 9 .outOfRange

/-- Slots in use. -/
def laneUsed (ps : Params) : List Nat := (List.range (laneAxes ps)).filter (fun s => ps.u Par.dlaneSlotMode s != 0)

/-- R370, R383. -/
def MDie.laneEnableBad (d : MDie) (o : Obj) : Bad :=
  let ps := o.params
  let used := laneUsed ps
  let okAxis (s : Nat) : Bool := match d.find (ps.h Par.dlaneSlotAxis s) with
    | some (_, a) => a.cls == .axis && (ps.u Par.dlaneSlotMode s != 2 || a.params.u Par.axisLgrp == 0)
    | none => false
  let twice := used.any (fun s => used.any (fun r => r != s && ps.u Par.dlaneSlotAxis r == ps.u Par.dlaneSlotAxis s))
  firstBad [badIf (!used.all okAxis || twice) 10 .wrongState, badIf (!laneTimingOk ps) 12 .infeasible]

def MDie.laneEnableDo (d : MDie) (n t : Nat) : MDie :=
  match d.lane? n with
  | some (_, l) => d.setData n (.dlane (l.enable t))
  | none => d

/-- The first ENABLED object that uses a slot of a lane (R389). -/
def MDie.laneUser (d : MDie) (n : Nat) : Option U32 :=
  match d.lane? n with
  | none => none
  | some (lo, _) =>
    (d.objects.find? (fun (x : Nat × Obj) => x.2.life == .enabled && (match x.2.data with
      | .fbk f => f.type == 4 && f.chan + 72 == n
      | .axis _ => (laneUsed lo.params).any (fun s => lo.params.h Par.dlaneSlotAxis s == d.handle x.1)
      | .lgrp g => (d.lgrpUses x.1 n x.2.params g).isSome
      | _ => false))).map (fun (x : Nat × Obj) => d.handle x.1)

def MDie.laneDisableBad (d : MDie) (n : Nat) : Bad := match d.laneUser n with | some h => busyOf h | none => none

/-- The drain of a lane (R390). -/
def MDie.laneDrain (d : MDie) (n : Nat) : MDie :=
  match d.lane? n with
  | some (o, l) => d.setData n (.dlane { l with drain := some (o.params.u Par.dlaneDrainFrames) })
  | none => d

def laneRead (l : Lane) (id ix : Nat) : Option Int :=
  if id = Par.dlaneLinkState then some l.link
  else if id = Par.dlaneDelayNs then some l.d
  else if id = Par.dlaneTurnNs then some l.turn
  else if id = Par.dlaneUlStale then some (((l.slots.zipIdx).foldl (fun m (x : LaneSlot × Nat) => if x.1.stale then m + 2 ^ x.2 else m) 0 : Nat))
  else if id = Par.dlaneSstat then some (rdU ((l.slots[ix]?.map (fun x => x.up)).getD []) 6 2)
  else if id = Par.dlaneUstat then some l.ustat
  else if id = Par.dlaneVbus then some l.vbus
  else none

def laneOpBad (op : Op) (o : Obj) (b : List Byte) : Bad :=
  match op with
  | .dlaneStageReset => firstBad [badIf (decide (rdU b 0 1 = 0 ∨ 15 < rdU b 0 1)) 9 .outOfRange, needEnabled o]
  | .dlaneGetUplink => firstBad [badIf (decide (laneAxes o.params ≤ rdU b 0 1)) 9 .outOfRange, needEnabled o]
  | _ => none

def MDie.laneDo (d : MDie) (op : Op) (n : Nat) (b : List Byte) : MDie × Result :=
  match d.lane? n with
  | none => (d, noResult)
  | some (_, l) => match op with
    | .dlaneStageReset => (d.setData n (.dlane { l with lctrl := l.lctrl ||| rdU b 0 1 }), noResult)
    | .dlaneGetUplink => (d, l.uplinkWords (rdU b 0 1))
    | _ => (d, noResult)

/-- The end of a lane that faults with a cause whose event is posted: it stops sending at once (R366, R379, R380). -/
def MDie.laneEnd (d : MDie) (n cause t : Nat) : MDie :=
  match d.lane? n with
  | none => d
  | some (o, l) =>
    if o.life ≠ .enabled ∧ o.life ≠ .draining then d
    else ((d.faultMark n cause).1.setData n (.dlane { l with link := 0, drain := none })).toIdle n t

/-- A fault of a lane. -/
def MDie.laneFault (d : MDie) (n : Nat) (e : Ev) (t : Nat) : MDie := (d.post n e).laneEnd n e.code t

/-! Hand-over of loop outputs (R282, R347, R384). -/

/-- One output word of a group, for the tick that begins. -/
def MDie.loopWord (d : MDie) (n t : Nat) (ps : Params) (j : Nat) (w : Int) : MDie :=
  let dst := ps.u Par.lgrpUDst j
  match bitsOf dst 3 0 with
  | 1 => match d.lgrpAxis n (bitsOf dst 5 4) with
    | none => d
    | some (a, _) => match d.laneOf (d.handle a) with
      | none => d
      | some (k, _, l, s) =>
        -- words that no destination names are open (log 156)
        let open_ := (List.range 3).map (fun (i : Nat) => openSignal 16 7 [(k : Int), (s : Int), (i : Int)])
        let put (x : LaneSlot) : LaneSlot := { x with duty := some (listMod (x.duty.getD open_) (bitsOf dst 15 8) (fun _ => w)) }
        d.setData k (.dlane { l with slots := listMod l.slots s put })
  | 2 => match d.pwmOf (bitsOf dst 15 8) with
    | some (k, o, _) => if o.life = .enabled then d.pwmShadow k t [(Par.pwmgOn, bitsOf dst 15 8, image64 w)] else d
    | none => d
  | _ => d

/-- The PWM groups a group drives. -/
def MDie.drivenPwm (d : MDie) (ps : Params) (m : Nat) : List Nat :=
  ((List.range m).filterMap (fun j =>
    let w := ps.u Par.lgrpUDst j
    if bitsOf w 3 0 = 2 then (d.pwmOf (bitsOf w 15 8)).map (fun x => x.1) else none)).eraseDups

/-- The words of every group whose output tick begins at `t`. -/
def MDie.loopOutputs (d : MDie) (t : Nat) : MDie :=
  (d.slotsOf .lgrp).foldl (fun d n => match d.lgrp? n with
    | none => d
    | some (o, g) =>
      let due : Bool := match g.gateTick with
        | some k => k + classPeriod (o.params.u Par.lgrpRateClass) == t
        | none => false
      if (o.life ≠ .enabled ∧ o.life ≠ .draining) ∨ !due ∨ g.staged = [] ∨ d.frozen then d
      else
        let d := d.setData n (.lgrp { g with staged := [] })
        let d := g.staged.foldl (fun d (x : Nat × Int) => d.loopWord n t o.params x.1 x.2) d
        let pairs := g.staged.foldl (fun k (x : Nat × Int) =>
          let w := o.params.u Par.lgrpUDst x.1
          if bitsOf w 3 0 = 2 then k ||| 2 ^ bitsOf w 15 8 else k) 0
        (d.drivenPwm o.params g.inner.dims.m).foldl (fun d k => d.pwmLoad k pairs) d) d

/-! Frames (R367 … R373, R383 … R390). -/

/-- Is a `DUTY` slot driven: its axis's group computes (R384)? -/
def MDie.dutyDriven (d : MDie) (h : U32) : Bool :=
  match d.find h with
  | some (_, o) => match d.lgrpOf o with
    | some (_, go, _) => go.life == .enabled || go.life == .draining
    | none => false
  | none => false

/-- Content of one slot (R386), with the slot's bookkeeping, and bytes of `AMP_LIMITED`. -/
def MDie.slotContent (d : MDie) (t : Nat) (o : Obj) (l : Lane) (s : Nat) (x : LaneSlot) : LaneSlot × Option Nat :=
  let ps := o.params
  let mode := ps.u Par.dlaneSlotMode s
  let h := ps.h Par.dlaneSlotAxis s
  match d.find h with
  | none => (x.put (stillWords false) false, none)
  | some (_, ao) => match ao.data with
    | .axis a =>
      let short := decide (ao.params.u Par.axisStandstill = 1) && mode != 0
      let live := ao.life == .enabled || ao.life == .draining
      if mode = 0 ∨ l.link = 2 ∨ o.life = .draining ∨ a.standstill.isSome then ({ x.put (stillWords short) false with duty := none, rest := 0 }, none)
      else if mode = 1 then
        match (if d.dutyDriven h then x.duty else none) with
        | some ws => (x.put ([2, 0] ++ (ws.map (leInt 2)).flatten) false, none)
        | none => ({ x.put (stillWords short) false with duty := none }, none)
      else if !live then (x.put (stillWords short) false, none)
      else match d.srcKin h (t + ps.u Par.dlaneApplyAt) with
        | none => (x.put (stillWords short) false, none)
        | some (k, _) =>
          let rest := if k.v = 0 then min 65536 (x.rest + 1) else 0
          let (ws, lim) := microstep ps s rest k.p k.v
          ({ x.put ws false with rest := rest }, lim)
    | _ => (x.put (stillWords false) false, none)

/-- The standstill modes of a lane's slots (R388). -/
def MDie.laneShorts (d : MDie) (ps : Params) : List Bool :=
  (List.range (laneAxes ps)).map (fun s => ps.u Par.dlaneSlotMode s != 0 && (match d.find (ps.h Par.dlaneSlotAxis s) with
    | some (_, a) => a.params.u Par.axisStandstill == 1
    | none => false))

/-- The slot's words changed, or a loop group gave new ones. -/
def slotFresh (old new : LaneSlot) (fresh : Bool) : LaneSlot :=
  if fresh ∧ new.upd = old.upd ∧ new.duty.isSome then { new with upd := (new.upd + 1) % 16 } else new

/-- The downlink frame of class 0 tick `t`; `fresh` are the lanes' slots (lane slot number, slot) that got words of a loop group. -/
def MDie.laneFrame (d : MDie) (n t : Nat) (fresh : List (Nat × Nat)) : MDie :=
  match d.lane? n with
  | none => d
  | some (o, l) =>
    if o.life ≠ .enabled ∧ o.life ≠ .draining then d
    else if l.link < 2 then (if o.life = .draining then (d.setData n (.dlane { l with link := 0, drain := none })).toIdle n t else d)
    else if l.drain = some 0 then (d.setData n (.dlane { l with link := 0, drain := none })).toIdle n t
    else
      let ps := o.params
      -- frames repeated by a debug freeze carry no standstill mode and do not count (R387, R390)
      let l := { l with drain := if d.frozen then l.drain else l.drain.map (fun k => k - 1) }
      let shorts := d.laneShorts ps
      if d.frozen then
        let l := l.build ps true shorts
        (d.setData n (.dlane l)).emit (.laneFrame (n - 72) l.frame)
      else
        let out : List (LaneSlot × Option Nat) := (l.slots.zipIdx).map (fun (x : LaneSlot × Nat) =>
          if laneAxes ps ≤ x.2 then (x.1, none) else
            let (y, lim) := d.slotContent t o l x.2 x.1
            (slotFresh x.1 y (fresh.contains (n, x.2)), lim))
        let clamped := (out.zipIdx).filterMap (fun (x : (LaneSlot × Option Nat) × Nat) => x.1.2.map (fun a => (x.2, a)))
        let post := if msDue l.ampPost t then clamped.take 1 else ([] : List (Nat × Nat))
        let l := ({ l with slots := out.map (fun (x : LaneSlot × Option Nat) => x.1), ampPost := if post = [] then l.ampPost else some t }).build ps false shorts
        let d := (d.setData n (.dlane l)).orPar n Par.dlaneFlags (if clamped = [] then 0 else 1)
        let d := d.postAll n (post.map (fun (x : Nat × Nat) => report Evt.ampLimited t (d8 x.1 ++ [0] ++ d16 x.2)))
        d.emit (.laneFrame (n - 72) l.frame)

/-- Slots that the groups whose output tick begins at `t` drive. -/
def MDie.dutyFresh (d : MDie) (t : Nat) : List (Nat × Nat) :=
  (d.slotsOf .lgrp).flatMap (fun n => match d.lgrp? n with
    | none => []
    | some (o, g) =>
      if g.gateTick.map (fun k => k + classPeriod (o.params.u Par.lgrpRateClass)) = some t then
        (g.staged.map (fun x => x.1)).filterMap (fun j =>
          let w := o.params.u Par.lgrpUDst j
          if bitsOf w 3 0 = 1 then (d.lgrpAxis n (bitsOf w 5 4)).bind (fun a => (d.laneOf (d.handle a.1)).map (fun x => (x.1, x.2.2.2))) else none)
      else [])

/-- Loop outputs and downlink frames at class 0 tick `t`. -/
def MDie.lanesTick (d : MDie) (t : Nat) : MDie :=
  let fresh := d.dutyFresh t
  (d.slotsOf .dlane).foldl (fun d n => d.laneFrame n t fresh) (d.loopOutputs t)

/-- The row `HOLD_DELAY_REACHED` (R385): a slot at rest long enough takes its hold amplitude. -/
def MDie.laneHold (d : MDie) (n s : Nat) : MDie :=
  match d.lane? n with
  | none => d
  | some (o, l) => match l.slots[s]? with
    | none => d
    | some x =>
      if o.life ≠ .enabled ∨ l.link ≠ 3 ∨ laneAxes o.params ≤ s ∨ o.params.u Par.dlaneSlotMode s ≠ 2 ∨ d.frozen ∨ x.rest < o.params.u Par.dlaneHoldDelay s then d
      else match d.slotContent d.tick0 o l s { x with rest := x.rest - 1 } with
        | (y, lim) =>
          let post := lim.isSome && msDue l.ampPost d.tick0
          let d := (d.setData n (.dlane { l with slots := l.slots.set s y, ampPost := if post then some d.tick0 else l.ampPost })).orPar n Par.dlaneFlags (if lim.isSome then 1 else 0)
          match lim with
          | some a => if post then d.post n (report Evt.ampLimited d.tick0 (d8 s ++ [0] ++ d16 a)) else d
          | none => d

/-! Uplinks (R374 … R380). -/

/-- The lane has seen 64 valid `IDLE` sets (R366). -/
def MDie.laneTrained (d : MDie) (n : Nat) : MDie :=
  match d.lane? n with
  | some (o, l) => if o.life = .enabled ∧ l.link = 1 then d.setData n (.dlane { l with link := 2, valid := 0 }) else d
  | none => d

/-- An uplink frame arrives: `sof` and `eof` in ns after the tick (R369, R377, R380). -/
def MDie.laneUplink (d : MDie) (n : Nat) (code : Bool) (sof eof : Nat) (b : List Byte) : MDie :=
  match d.lane? n with
  | none => d
  | some (o, l) =>
    if (o.life ≠ .enabled ∧ o.life ≠ .draining) ∨ l.link < 2 ∨ l.frame = [] ∨ l.pendingUp.isSome then d
    else
      let t := d.tick0
      let d := if eof ≤ 16000 then d.passTo (t + eof) else d
      match l.judge o.params code eof b with
      | x :: xs => (x :: xs).foldl (fun (d : MDie) (f : UplinkFault) => match f with
          | .crc => d.bump n Par.dlaneUlCrcErrors 0 1
          | .late => d.bump n Par.dlaneUlLate 0 1
          | .seq => d.orPar n Par.dlaneFlags 4
          | .other => d) d
      | [] =>
        let (l, e1) := l.accept sof t b
        let (l, e2, fl, f) := l.reports o.params b t
        let d := ((d.setData n (.dlane l)).orPar n Par.dlaneFlags fl).postAll n (e1 ++ e2)
        match f with
        | some e => d.laneEnd n e.code t
        | none => d

/-- A channel of a lane at a tick: the count of the accepted uplink, or staleness (R140, R378). -/
def MDie.laneChannel (d : MDie) (lo : Obj) (l : Lane) (n s t : Nat) (accepted : Bool) : MDie :=
  (d.slotsOf .fbk).foldl (fun d k => match d.fbk? k with
    | none => d
    | some (o, f) =>
      if o.life ≠ .enabled ∨ f.type ≠ 4 ∨ f.chan + 72 ≠ n ∨ f.sub ≠ s then d
      else
        let b := (l.slots[s]?.map (fun x => x.up)).getD []
        let ss := rdU b 6 2
        if accepted ∧ bitOf ss 3 then
          let idx := if bitOf ss 2 ∧ bitOf (lo.params.u Par.dlaneIndexEn) s then some (rdU b 12 4) else none
          (d.setData k (.fbk (dlaneUplink o.params f (rdU b 8 4) (t - lo.params.u Par.dlaneSampleLead) idx))).fbkMoved k f
        else if ((l.slots[s]?).map (fun x => x.staleReported)).getD false then d.setData k (.fbk (dlaneStale f))
        else d) d

/-- What class 0 tick `t` finds of the uplinks of the tick before (R378, R379). -/
def MDie.laneTick (d : MDie) (n t : Nat) : MDie :=
  match d.lane? n with
  | none => d
  | some (o, l) =>
    if o.life ≠ .enabled ∧ o.life ≠ .draining then d
    else if l.link < 2 then
      if o.life = .enabled ∧ l.link = 1 ∧ l.since + o.params.u Par.dlaneTrainTimeout * 1000000 ≤ t then
        d.laneFault n (faultEv Evt.laneLost t (d8 1)) t else d
    else
      let accepted := l.pendingUp.isSome
      let (l, st, fr) := l.tickUplink o.params
      let l := { l with lossRun := if l.link = 3 then l.lossRun else 0 }
      let d := d.setData n (.dlane l)
      let d := d.postAll n ((if st = 0 then [] else [report Evt.ulStale t (d8 st)]) ++ (if fr = 0 then [] else [clearedEv Evt.ulStale t (d8 fr)]))
      let d := (List.range (laneAxes o.params)).foldl (fun d s => d.laneChannel o l n s t accepted) d
      if o.life = .enabled ∧ l.link = 2 ∧ l.since + o.params.u Par.dlaneTrainTimeout * 1000000 ≤ t then
        d.laneFault n (faultEv Evt.laneLost t (d8 1)) t
      else if l.link = 3 ∧ o.params.u Par.dlaneLossLimit ≤ l.lossRun then d.laneFault n (faultEv Evt.laneLost t (d8 2)) t
      else d

def MDie.laneUplinks (d : MDie) (t : Nat) : MDie := (d.slotsOf .dlane).foldl (fun d n => d.laneTick n t) d

/-- The training of a lane times out (R366). -/
def MDie.laneTimeout (d : MDie) (n : Nat) : MDie :=
  match d.lane? n with
  | none => d
  | some (o, l) =>
    let due := l.since + o.params.u Par.dlaneTrainTimeout * 1000000
    if o.life = .enabled ∧ (l.link = 1 ∨ l.link = 2) ∧ due ≤ d.nextTick then
      let d := d.passTo due
      d.laneFault n (faultEv Evt.laneLost d.tick0 (d8 1)) d.tick0
    else d

/-- Slots stale for `DLANE.STALE_LIMIT` ticks are reported (R379). -/
def MDie.laneStale (d : MDie) (n : Nat) : MDie :=
  match d.lane? n with
  | none => d
  | some (o, l) =>
    let hit (x : LaneSlot) (s : Nat) : Bool := decide (s < laneAxes o.params) && x.stale && !x.staleReported && decide (o.params.u Par.dlaneStaleLimit ≤ x.staleRun)
    let m := (l.slots.zipIdx).foldl (fun m (x : LaneSlot × Nat) => if hit x.1 x.2 then m + 2 ^ x.2 else m) 0
    if (o.life ≠ .enabled ∧ o.life ≠ .draining) ∨ l.link < 2 ∨ m = 0 then d
    else
      let l := { l with slots := (l.slots.zipIdx).map (fun (x : LaneSlot × Nat) => if hit x.1 x.2 then { x.1 with staleReported := true } else x.1) }
      let d := (d.setData n (.dlane l)).post n (report Evt.ulStale d.tick0 (d8 m))
      (List.range (laneAxes o.params)).foldl (fun d s => d.laneChannel o l n s d.tick0 false) d

/-- No uplink for `DLANE.LOSS_LIMIT` ticks (R379). -/
def MDie.laneLoss (d : MDie) (n : Nat) : MDie :=
  match d.lane? n with
  | none => d
  | some (o, l) =>
    if (o.life = .enabled ∨ o.life = .draining) ∧ l.link = 3 ∧ o.params.u Par.dlaneLossLimit ≤ l.lossRun then
      d.laneFault n (faultEv Evt.laneLost d.tick0 (d8 2)) d.tick0
    else d

end Sys2Proof.Machine
end

