-- ==== Sys2Proof/Machine/FioDie.lean ====
section
/-! DEFINITION. Field I/O on the die: refusals, enable, samples, timers, supply, silence of the logic side (R394 … R417). -/

namespace Sys2Proof.Machine

open Sys2Proof

/-- A channel with its object. -/
def MDie.chan? (d : MDie) (c : Nat) : Option (Obj × Chan) :=
  match d.obj? (32 + c), d.field.chans[c]? with
  | some o, some ch => some (o, ch)
  | _, _ => none

def MDie.setChan (d : MDie) (c : Nat) (ch : Chan) : MDie :=
  { d with field := { d.field with chans := d.field.chans.set c (ch.powered d.field.regulator) } }

/-- The F die samples and reports: its logic side is alive and its regulator runs. -/
def MDie.fieldLive (d : MDie) : Bool := d.field.silent.isNone && d.field.regulator

/-! Object. -/

def fioInputPars : List Nat := [Par.fioFilter, Par.fioInvert, Par.fioOpenWireEn, Par.fioNotify]
def fioOutputPars : List Nat :=
  [Par.fioDriver, Par.fioOut, Par.fioOvlMode, Par.fioRetryMs, Par.fioOutTest, Par.fioOpenLoadEn, Par.fioBlank, Par.fioHoldMode,
   Par.fioHoldTimeout, Par.fioFallback]

/-- Does a parameter apply to a role (R394)? -/
def fioApplies (role id : Nat) : Bool :=
  if fioInputPars.contains id then role == 1 || role == 2
  else if fioOutputPars.contains id then role == 3
  else if id = Par.fioSamplePeriod then role != 0
  else true

/-- Class checks of an entry; `ps` are the parameters with the entry written. -/
def fioPar (ps : Params) (id : Nat) (v : U64) : Bad :=
  let role := ps.u Par.fioConfig
  firstBad [badIf (id == Par.fioOut && ps.u Par.fioDriver == 1) 7 .denied, badIf (!fioApplies role id) 8 .badParam,
    badIf (id == Par.fioSamplePeriod && !fioPeriodOk v.toNat) 9 .outOfRange,
    badIf ((id == Par.fioSamplePeriod || id == Par.fioConfig) && role == 3 && fioPeriod ps == 0) 9 .outOfRange]

/-- Inputs of the F die that sample continuously (R398). -/
def MDie.fioContinuous (d : MDie) : Nat :=
  ((List.range 32).filter (fun c => match d.chan? c with
    | some (o, _) => o.life == .enabled && o.params.u Par.fioConfig != 3 && fioPeriod o.params == 0
    | none => false)).length

def MDie.fioEnableBad (d : MDie) (o : Obj) : Bad :=
  firstBad [badIf (o.params.u Par.fioConfig == 0) 10 .wrongState,
    badIf (fioPeriod o.params == 0 && decide (8 ≤ d.fioContinuous)) 11 .noResource]

def MDie.fioEnableDo (d : MDie) (c t : Nat) : MDie :=
  match d.chan? c with
  | none => d
  | some (o, ch) =>
    let ch' := ch.enable o.params t
    let d := d.setChan c ch'
    if ch.held ∧ ch'.role = 3 then d.setPar (32 + c) Par.fioOut 0 (if ch'.out.cmd then 1 else 0) else d

/-- The ENABLED `EVT` or `CAPT` that names a channel (R412). -/
def MDie.fioUser (d : MDie) (c : Nat) : Option U32 :=
  (d.objects.find? (fun (x : Nat × Obj) => x.2.life == .enabled && (match x.2.data with
    | .evt _ => x.2.params.u Par.evtDest == 2 + 256 * c
    | .capt _ => x.2.params.u Par.captTrigger == 1 + 256 * c
    | _ => false))).map (fun (x : Nat × Obj) => d.handle x.1)

def MDie.fioDisableBad (d : MDie) (c : Nat) : Bad := match d.fioUser c with | some h => busyOf h | none => none

/-- The clean boundary of a channel (R412): now for none. -/
def fioBoundary (ps : Params) (ch : Chan) (now : Nat) : Option Nat :=
  if ch.role = 3 then ch.out.pulseEnd
  else
    let p := fioPeriod ps
    if p = 0 ∨ 10000 ≤ now % p then none else some (now / p * p + 10000)

/-- The boundary is reached: the output switches off, the channel is DISABLED. -/
def MDie.fioEnd (d : MDie) (c t : Nat) : MDie :=
  match d.chan? c with
  | some (_, ch) => (d.setChan c ch.disable).toIdle (32 + c) t
  | none => d

def MDie.fioDrain (d : MDie) (c t : Nat) : MDie :=
  match d.chan? c with
  | some (o, ch) => if (fioBoundary o.params ch d.ns).isNone then d.fioEnd c t else d
  | none => d

/-- A draining channel whose boundary lies before `T` ends there. -/
def MDie.fioDrainTick (d : MDie) (c T : Nat) : MDie :=
  match d.chan? c with
  | some (o, ch) =>
    if o.life ≠ .draining then d
    else match fioBoundary o.params ch o.drainAt with
      | some b => if b ≤ T then d.fioEnd c (b / 16000 * 16000) else d
      | none => d.fioEnd c T
  | none => d

/-- What a write of a parameter does at once: the commanded level, and the hold settings. -/
def MDie.fioWritten (d : MDie) (c t id : Nat) (v : U64) : MDie :=
  match d.chan? c with
  | none => d
  | some (o, ch) =>
    if o.life ≠ .enabled ∨ ch.role ≠ 3 ∨ d.field.silent.isSome then d
    else if id = Par.fioOut then d.setChan c (ch.command o.params (v == 1) t)
    else d.setChan c (ch.settings o.params)

def MDie.fioRead (d : MDie) (c : Nat) (o : Obj) (id : Nat) : Option Int :=
  match d.field.chans[c]? with
  | none => none
  | some ch =>
    let b (x : Bool) : Int := if x then 1 else 0
    if id = Par.fioOut then (if o.life = .enabled ∨ o.life = .draining then some (b ch.out.cmd) else none)
    else if id = Par.fioIn then
      some (b ch.inp.pub + 2 * b ch.inp.last + 4 * b (o.life == .enabled && (ch.role == 1 || ch.role == 2) && !d.field.low && d.fieldLive))
    else if id = Par.fioStatus then some ((stSet ch.status 6 d.field.low : Nat))
    else if id = Par.fioReadback then some ch.out.readback
    else if id = Par.fioCurrent then some ch.out.ma
    else if id = Par.fioOvlCount then some ch.ovlCount
    else if id = Par.fioLastEdge then some (ch.inp.lastEdge / 1000000000 % 2 ^ 32 * 2 ^ 32 + ch.inp.lastEdge % 1000000000 : Nat)
    else if id = Par.fioEdgeCount then some ch.inp.edges
    else none

/-! Opcodes (R416). -/

def bitsOfMask (m : Nat) : List Nat := (List.range 32).filter (fun i => m.testBit i)

def MDie.fioOpBad (d : MDie) (op : Op) (o : Obj) (b : List Byte) : Bad :=
  match op with
  | .fioWriteMask => match (bitsOfMask (rdU b 0 4)).find? (fun c => match d.chan? c with
      | some (f, _) => !(f.life == .enabled && f.params.u Par.fioConfig == 3 && f.params.u Par.fioDriver == 0)
      | none => true) with
    | some c => some (8, .badParam, ⟨0, BitVec.ofNat 64 c⟩)
    | none => none
  | .fioReset => needEnabled o
  | _ => none

/-- One level of `FIO_WRITE_MASK`. -/
def MDie.fioLevel (d : MDie) (c t : Nat) (v : Bool) : MDie :=
  match d.chan? c with
  | some (o, ch) => if o.life = .enabled ∧ ch.role = 3 ∧ o.params.u Par.fioDriver = 0 then
      (d.setChan c (ch.command o.params v t)).setPar (32 + c) Par.fioOut 0 (if v then 1 else 0) else d
  | none => d

/-- `FIO_READ_ALL`. -/
def MDie.fioAll (d : MDie) : Result :=
  let m (f : Chan → Bool) : Nat := chanMask d.field.chans f
  let lv := m (fun c => if c.role = 3 then c.out.readback == 2 else c.inp.pub)
  ⟨BitVec.ofNat 64 (lv + 2 ^ 32 * m (fun c => c.role == 3 && c.out.cmd)), BitVec.ofNat 64 (m (fun c => c.status % 32 != 0))⟩

def MDie.fioDo (d : MDie) (op : Op) (n t : Nat) (b : List Byte) : MDie × Result :=
  match op with
  | .fioWriteMask => ((bitsOfMask (rdU b 0 4)).foldl (fun d c => d.fioLevel c t ((rdU b 4 4).testBit c)) d, noResult)
  | .fioReset => match d.chan? (n - 32) with
    | some (o, ch) => (if o.life = .enabled then d.setChan (n - 32) ch.reset else d, noResult)
    | none => (d, noResult)
  | .fioReadAll => (d, d.fioAll)
  | _ => (d, noResult)

/-! Samples and timers. -/

/-- Events of a channel carry the tick they fall in, but for a pin time (R417). -/
def fioStamped (es : List Ev) : List Ev := es.map (fun e => if e.pinTime then e else { e with ns := e.ns / 16000 * 16000 })

/-- Put a channel after something happened; captures see a level taken (R252, R398). -/
def MDie.fioTook (d : MDie) (c : Nat) (old new : Chan) (es : List Ev) : MDie :=
  let d := (d.setChan c new).postAll (32 + c) (fioStamped es)
  if old.inp.edges = new.inp.edges then d
  else
    let inv : Bool := match d.obj? (32 + c) with | some o => o.params.u Par.fioInvert == 1 | none => false
    d.captEdge 1 c (xor new.inp.level inv) new.inp.lastEdge 1000000000

/-- A sample instant of a channel (R396 … R404): voltage in mV, current drawn in µA, output current in mA. -/
def MDie.fioSample (d : MDie) (c t : Nat) (mv : Int) (ua ma : Nat) : MDie :=
  match d.chan? c with
  | none => d
  | some (o, ch) =>
    let at_ := fioInstant o.params t || (match ch.out.test with | some t0 => decide (t = t0 + 240000 ∨ t = t0 + 290000) | none => false)
    if (o.life ≠ .enabled ∧ o.life ≠ .draining) ∨ !d.fieldLive ∨ !at_ ∨ t < d.ns ∨ d.nextTick < t then d
    else
      let d := d.passTo t
      -- a comparator edge is resolved to 10 ns, either way (R398, log 10)
      let t := if fioPeriod o.params = 0 then (10 * divOpen 19 t 10).toNat else t
      let (ch', es) := if ch.role = 3 then ch.sampleOut o.params mv ma t (!d.field.low)
        else if d.field.low then
          let k := fioClassify o.params mv ua
          ch.filter o.params (match k with | .on => true | .prev => ch.inp.last | _ => false) t
        else ch.sampleIn o.params mv ua t
      d.fioTook c ch ch' es

/-- The filter of a continuously sampled input runs out by `T` (R398). -/
def MDie.fioFilter (d : MDie) (c T : Nat) : MDie :=
  match d.chan? c with
  | none => d
  | some (o, ch) => match ch.inp.start with
    | none => d
    | some s =>
      let due := s + o.params.u Par.fioFilter * 1000
      if (o.life ≠ .enabled ∧ o.life ≠ .draining) ∨ fioPeriod o.params ≠ 0 ∨ ch.role = 3 ∨ !d.fieldLive ∨ T < due then d
      else
        let (ch', es) := ch.take o.params (!ch.inp.level) s due
        d.fioTook c ch ch' es

/-- An off-test pulse due at `t` begins (R404). -/
def MDie.fioOffTest (d : MDie) (c t : Nat) : MDie :=
  match d.chan? c with
  | some (o, ch) => if o.life = .enabled ∧ ch.role = 3 ∧ d.fieldLive then d.setChan c (ch.offTest o.params t) else d
  | none => d

/-- An `EVT` pulse, an off-test pulse and a retry that end or fall due by `T`. -/
def MDie.fioTimers (d : MDie) (c T : Nat) : MDie :=
  match d.chan? c with
  | none => d
  | some (o, ch) =>
    let ch := match ch.out.pulseEnd with
      | some e => if e ≤ T then { ch.endPulse o.params e with held := ch.held } else ch
      | none => ch
    let ch := match ch.out.test with
      | some t0 => if t0 + 300000 ≤ T then ch.offTestEnd (t0 + 300000) else ch
      | none => ch
    match ch.retryDue with
    | some a => if a ≤ T then
        (let (ch, es) := ch.retry a
         (d.setChan c ch).postAll (32 + c) (if d.field.silent.isSome then [] else fioStamped es))
      else d.setChan c ch
    | none => d.setChan c ch

/-- What falls due on every channel before `T`. -/
def MDie.fioRun (d : MDie) (T : Nat) : MDie :=
  (List.range 32).foldl (fun d c =>
    let s := offTestAt c (T - 16000)
    let d := if s < T then d.fioOffTest c s else d
    ((d.fioTimers c (T - 1)).fioFilter c (T - 1)).fioDrainTick c T) d

/-- Class 0 tick `t`: levels commanded anew after a restart of the regulator, and publication (R397, R409). -/
def MDie.fioTick (d : MDie) (t : Nat) : MDie :=
  let d := if d.field.reload ∧ d.field.silent.isNone then
      (List.range 32).foldl (fun d c => match d.chan? c with
        | some (o, ch) => if o.life = .enabled then d.setChan c (ch.reload o.params t) else d
        | none => d) { d with field := { d.field with reload := false } }
    else d
  if !d.fieldLive then d
  else (List.range 32).foldl (fun d c => match d.chan? c with
    | some (o, ch) => if ch.role = 1 ∨ ch.role = 2 then d.setChan c (ch.publish o.params t) else d
    | none => d) d

/-! Rows. -/

/-- The filter of an input runs out (R397, R398). -/
def MDie.fioFilterExpiry (d : MDie) (c : Nat) : MDie :=
  match d.chan? c with
  | some (o, ch) => match ch.inp.start with
    | some s =>
      let due := s + o.params.u Par.fioFilter * 1000
      if fioPeriod o.params = 0 ∧ due ≤ d.nextTick then (d.passTo due).fioFilter c due else d
    | none => d
  | none => d

/-- The off-test pulse of a channel (R404). -/
def MDie.fioOffTestPulse (d : MDie) (c : Nat) : MDie :=
  let s := offTestAt c d.ns
  if c < 32 ∧ s ≤ d.nextTick then (d.passTo s).fioOffTest c s else d

/-- A thermal shutdown (R405). -/
def MDie.fioThermal (d : MDie) (c cause : Nat) : MDie :=
  match d.chan? c with
  | some (_, ch) => if ch.role = 3 ∧ ch.out.on then
      (let (ch, es) := ch.shutdown cause d.ns d.fieldLive
       (d.setChan c ch).postAll (32 + c) (es.map (fun e => { e with ns := d.tick0 })))
    else d
  | none => d

/-- A retry, or the end of a whole interval on (R405). -/
def MDie.fioRetry (d : MDie) (c : Nat) : MDie :=
  match d.chan? c with
  | none => d
  | some (_, ch) =>
    match ch.retryDue with
    | some a => if a ≤ d.nextTick then
        (let d := d.passTo a
         let (ch, es) := ch.retry a
         (d.setChan c ch).postAll (32 + c) (if d.field.silent.isSome then [] else es.map (fun e => { e with ns := d.tick0 })))
      else d
    | none => d

/-- The sum of the output currents has exceeded 4.0 A for 5 ms (R406). -/
def MDie.fioTotal (d : MDie) (mas : List Nat) : MDie :=
  let on := ((List.range 32).reverse.filter (fun c => match d.chan? c with | some (_, ch) => ch.role == 3 && ch.out.on | none => false)).map
    (fun c => (c, mas.getD c 0))
  (totalLimit on (on.foldl (fun s (x : Nat × Nat) => s + x.2) 0)).foldl (fun d c => d.fioThermal c 2) d

/-- `FIELD_SUPPLY` (R409). -/
def MDie.fieldSupply (d : MDie) (cause : Nat) (cleared : Bool) : MDie :=
  d.post 0 { code := Evt.fieldSupply, ns := d.tick0, fault := true, cleared := cleared, data := d8 cause ++ [0] ++ d16 d.field.mv }

def MDie.fieldLow (d : MDie) (mv : Nat) : MDie :=
  if d.field.low then { d with field := { d.field with mv := mv } }
  else { d with field := { d.field with mv := mv, low := true } }.fieldSupply 1 false

def MDie.fieldRestored (d : MDie) (mv : Nat) : MDie :=
  if d.field.low then { d with field := { d.field with mv := mv, low := false } }.fieldSupply 1 true
  else { d with field := { d.field with mv := mv } }

/-- The internal regulator stops: outputs off, settings lost. -/
def MDie.fieldStop (d : MDie) : MDie :=
  let d := d.fieldLow 0
  { d with field := { d.field with regulator := false, chans := d.field.chans.map Chan.lose } }

/-- The regulator restarts; with the logic side alive the settings of the ENABLED channels are loaded again. -/
def MDie.fieldRestart (d : MDie) : MDie :=
  if d.field.regulator then d
  else
    let d := { d with field := { d.field with regulator := true } }
    if d.field.silent.isSome then d
    else
      let d := (List.range 32).foldl (fun d c => match d.chan? c with
        | some (o, ch) => if o.life = .enabled then
            (let ch' := ch.enable o.params d.ns
             d.setChan c { ch' with out := { ch'.out with cmd := ch.out.cmd, on := false } })
          else d.setChan c (if o.life = .draining then ch else ch.disable)
        | none => d) d
      { d with field := { d.field with reload := true } }.fieldSupply 2 false

/-- The logic side is silent (R410). -/
def MDie.logicSilent (d : MDie) : MDie :=
  if d.field.silent.isSome then d
  else { d with field := { d.field with silent := some d.upNs, chans := d.field.chans.map Chan.silence } }

/-- A hold timeout (R410). It passes at its running time, also while the M die is in reset or boots. -/
def MDie.fioHold (d : MDie) (c : Nat) : MDie :=
  match d.field.silent, d.field.chans[c]? with
  | some since, some ch =>
    let due := since + ch.holdMs * 1000000
    if ch.held ∧ ch.holdMode ∧ ¬ ch.fellBack then
      match d.passBoot due with
      | some d => d.setChan c (ch.holdTimeout since due)
      | none => d
    else d
  | _, _ => d

/-- `FIELD_HOLD` (R411), once. -/
def MDie.fieldHold (d : MDie) : MDie :=
  match d.field.holdReport with
  | some (on, fell, ms) =>
    { d with field := { d.field with holdReport := none } }.post 0 (report Evt.fieldHold d.tick0 (d32 on ++ d32 fell ++ d32 ms))
  | none => d

/-- The logic side returns (R411). -/
def MDie.logicReturn (d : MDie) : MDie :=
  match d.field.silent with
  | none => d
  | some since =>
    let ms := (d.upNs - since) / 1000000
    let on := chanMask d.field.chans (fun c => c.held && !c.fellBack && c.out.cmd)
    let fell := chanMask d.field.chans (fun c => c.fellBack)
    let d := { d with field := { d.field with silent := none, holdReport := some (on, fell, ms) } }
    if d.boot.ready then d.fieldHold else d

/-- The pair link is lost while the M die runs: its channels fault, the F die holds their outputs (R411). -/
def MDie.fioLinkLost (d : MDie) (t : Nat) : MDie :=
  (List.range 32).foldl (fun d c => match d.obj? (32 + c) with
    | some o => if o.life = .enabled ∨ o.life = .draining then
        ((d.post (32 + c) (faultEv Evt.fioLinkLost t [])).faultMark (32 + c) Evt.fioLinkLost).1.toIdle (32 + c) t else d
    | none => d) d

end Sys2Proof.Machine
end

