-- ==== Sys2Proof/Machine/SafeDie.lean ====
section
/-! DEFINITION. What the M die holds of the safety island (R444 … R447), and the island with its two wires into the motion side. -/

namespace Sys2Proof.Machine

open Sys2Proof

/-! The mirror. -/

/-- Kinds of `SAFE` objects by slot (R25): 0 summary, 1 input pair, 2 STO, 3 SBC, 4 EDM, 5 safe-link. -/
def safeKind (slot : Nat) : Nat :=
  if slot = 88 then 0 else if slot ≤ 92 then 1 else if slot ≤ 94 then 2 else if slot ≤ 96 then 3 else if slot ≤ 100 then 4 else 5

/-- The objects a `SAFE` parameter exists on (R445). -/
def safeApplies (slot id : Nat) : Bool :=
  let k := safeKind slot
  if id < Par.safeState ∨ Par.safeEdmFault < id then true
  else if id < Par.safePairMode then k == 0
  else if id = Par.safePairMode then k == 1
  else if id = Par.safePairLevel ∨ id = Par.safePairFault then k == 1 || k == 5
  else if id = Par.safeDemands then k == 1 || k == 2
  else if id = Par.safeOutLevel then k == 2 || k == 5
  else if id < Par.safeBrkState then k == 2
  else if id < Par.safeEdmLevel then k == 3
  else k == 4

def MDie.safeRead (d : MDie) (slot id : Nat) : Option Int :=
  let b (x : Bool) : Int := if x then 1 else 0
  if id = Par.safeState then some (if d.safe.unknown then 3 else match d.safe.last with | some f => f.isl.state | none => 3)
  else match d.safe.last with
    | none => if Par.safeState < id ∧ id ≤ Par.safeEdmFault then some 0 else none
    | some fr =>
      let i := fr.isl
      let f := (slot - 93) % 2
      let p := if slot = 101 then i.link else i.pairs.getD (slot - 89) i.link
      let e := i.edms.getD (slot - 97) ⟨false, 0, false, 0⟩
      if id = Par.safeCfgCodes then some (((List.range 12).foldl (fun s n => s + i.code n * 16 ^ n) 0 : Nat))
      else if id = Par.safeUptime then some (i.tick % 2 ^ 32 : Nat)
      else if id = Par.safeSupplyMv then some i.supplyMv
      else if id = Par.safeLogCount then some i.logCount
      else if id = Par.safePairMode then some (i.mode (slot - 89))
      else if id = Par.safePairLevel then some p.level
      else if id = Par.safePairFault then some p.fault
      else if id = Par.safeDemands then some (if slot ≤ 92 then p.demands else (i.fn f).demands)
      else if id = Par.safeFnState then some (i.fn f).st
      else if id = Par.safeFnFault then some (i.fn f).fault
      else if id = Par.safeOutLevel then
        some (if slot = 101 then b i.linkA + 2 * b i.linkB else b (i.fn f).outA + 2 * b (i.fn f).outB)
      else if id = Par.safeBrkState then
        some (if !i.sbcUsed f then 0 else if (i.fn f).brkFault ≠ 0 then 3 else if i.sbcOn f then 1 else 2)
      else if id = Par.safeBrkMa then some (i.fn f).brkMa
      else if id = Par.safeBrkFault then some (i.fn f).brkFault
      else if id = Par.safeBrkTestAge then some ((i.tick - (i.fn f).brkPass) / 2000 % 2 ^ 32 : Nat)
      else if id = Par.safeBrkTestDue then some (b (i.fn f).brkDue)
      else if id = Par.safeEdmLevel then some (if !i.edmUsed (slot - 97) then 0 else if e.high then 1 else 2)
      else if id = Par.safeEdmFault then some e.fault
      else none

/-- `SAFE_READ_LOG` (R446). -/
def MDie.safeOpBad (d : MDie) (n : Nat) (b : List Byte) : Bad :=
  firstBad [badIf (n != 88) 6 .wrongClass, badIf (!d.safe.log.any (fun x => x.1.index == rdU b 0 4)) 9 .outOfRange]

def MDie.safeLog (d : MDie) (b : List Byte) : Result :=
  match d.safe.log.find? (fun x => x.1.index == rdU b 0 4) with
  | some (e, t) => ⟨BitVec.ofNat 64 (e.uptime + 2 ^ 32 * e.code + 2 ^ 40 * e.cls + 2 ^ 48 * e.slot), BitVec.ofNat 64 (leNat (shortStamp t))⟩
  | none => noResult

/-- The rebuilt log entries that the island of a frame can still hold: none of an island that has restarted, else the
last 64 by its count (R442, R444). -/
def MDie.safeHeld (d : MDie) (f : SafeFrame) : List (SafeLog × Nat) :=
  if d.safe.last.any (fun x => decide (f.isl.tick < x.isl.tick)) then []
  else d.safe.log.filter (fun x => decide ((f.isl.logCount + 2 ^ 32 - 1 - x.1.index) % 2 ^ 32 < 64))

/-- Take a status frame that left at `sent` into account at class 0 tick `t` (R444, R447). -/
def MDie.safeTake (d : MDie) (sent : Nat) (f : SafeFrame) (t : Nat) : MDie :=
  let held := d.safeHeld f
  let log := match f.entry with
    | some e => if held.any (fun x => x.1 == e) then held else ((e, t) :: held).take 64
    | none => held
  let back := if d.safe.lost then [(88, clearedEv Evt.safeStatusLost t [])] else []
  let notes := f.isl.notes.map (fun n => (n.slot, ({ code := n.code, ns := t, fault := n.fault, cleared := n.cleared, data := n.data } : Ev)))
  let d := { d with safe := { d.safe with last := some f, at_ := sent, unknown := false, lost := false, log := log } }
  (back ++ notes).foldl (fun d (x : Nat × Ev) => d.post x.1 x.2) d

/-- Frames that must have been taken by class 0 tick `t`: those that left the island 40 µs before or earlier. -/
def MDie.safeFrames (d : MDie) (t : Nat) : MDie :=
  let due := d.safe.queue.filter (fun x => decide (x.1 + 40000 ≤ t))
  due.foldl (fun d x => d.safeTake x.1 x.2 t) { d with safe := { d.safe with queue := d.safe.queue.filter (fun x => !decide (x.1 + 40000 ≤ t)) } }

/-- The row `SAFE_STATUS_FRAME`: the oldest frame held at the class 0 tick in progress. -/
def MDie.safeFrame (d : MDie) : MDie :=
  match d.safe.queue with
  | x :: r => if x.1 < d.tick then { d with safe := { d.safe with queue := r } }.safeTake x.1 x.2 d.tick else d
  | [] => d

/-- No frame for 8 ms by time `t` (R444). -/
def MDie.safeTimeout (d : MDie) (t : Nat) : MDie :=
  if d.safe.lost ∨ d.safe.queue ≠ [] ∨ t < d.safe.at_ + 8000000 then d
  else { d with safe := { d.safe with unknown := true, lost := true } }.post 88 (report Evt.safeStatusLost ((d.safe.at_ + 8000000) / 16000 * 16000) [])

/-! The island beside the die. -/

/-- `SS1_REQ0` and `SS1_REQ1` as a mask. -/
def Island.wires (i : Island) : Nat := (if i.ss1Req 0 then 1 else 0) + (if i.ss1Req 1 then 2 else 0)

/-- Put the island; a change of its request wires is seen with its time. -/
def State.setIsl (s : State) (i : Island) : State :=
  { s with isl := i, md := if i.wires = s.md.wires then s.md else { s.md with ss1Wire := (i.wires, s.md.ns) :: s.md.ss1Wire } }

/-- A safety tick: the island steps, and its status frame leaves for the M die (R427, R444). What a frame that meets a broken pair link
reports, the next one that arrives brings (R447). -/
def State.safetyTick (s : State) (r : SafeReads) : State :=
  let i := s.isl.step r
  if !i.powered then s
  else
    let s' := s.setIsl { i with notes := [] }
    let notes := s.md.safe.missed ++ i.notes
    if s.md.boot.inReset then s'
    else if s.md.pairLink then
      { s' with md := { s'.md with safe := { s'.md.safe with
        queue := s'.md.safe.queue ++ [(s.md.ns, { i.frame with isl := { i with notes := notes } })], missed := [] } } }
    else { s' with md := { s'.md with safe := { s'.md.safe with missed := notes } } }

end Sys2Proof.Machine
end

