-- ==== Sys2Proof/Machine/FabDie.lean ====
section
/-! DEFINITION. Ports and fabric on the die (R448 … R480): link states, forwarding, election, bases, routes, levels. -/

namespace Sys2Proof.Machine

open Sys2Proof

/-! Ports. -/

def portSlot (k : Nat) : Nat := 6 + k
def isExtPort (k : Nat) : Bool := decide (k < 2)

def MDie.portPs (d : MDie) (k : Nat) : Params := match d.obj? (portSlot k) with | some o => o.params | none => []
def MDie.modFab (d : MDie) (f : Fab → Fab) : MDie := { d with fab := f d.fab }

/-- Ports that are UP. -/
def MDie.upPorts (d : MDie) : List Nat := (List.range 4).filter (fun k => d.portUp k)

/-- Fabric protocol level and command level of this die (R474). -/
def MDie.ownLevels (d : MDie) : Nat × Nat :=
  match d.mram.banks[d.boot.bank]? with
  | some b => (b.fabLevel, b.cmdLevel)
  | none => (1, 1)

/-- Levels in force for the pair with a node (R474). A node that has reported none counts with the commit level (log 33). -/
def MDie.pairLevels (d : MDie) (node : Nat) : Nat × Nat :=
  let (f, c) := d.ownLevels
  let (pf, pc) := if node = d.fab.node then (f, c)
    else match d.fab.levels.find? (fun (x : Nat × Nat × Nat) => x.1 == node) with
      | some x => x.2
      | none => (d.fab.commit, d.fab.commit)
  (levelInForce f pf d.fab.commit, levelInForce c pc d.fab.commit)

/-- A packet of this die at the level in force (R474). -/
def MDie.packetTo (d : MDie) (ptype dst xtag : Nat) (xaux : U32) (payload : List Byte) : FabMsg :=
  let m := d.packet ptype dst xtag xaux payload
  { m with pkt := { m.pkt with level := if ptype = 1 ∨ ptype = 2 then 1 else (d.pairLevels dst).1 } }

/-- A base held, 0xFFFF for none (R469). -/
def MDie.heldBase (d : MDie) : Nat := if d.fab.node = 0xFFFF then 0xFFFF else d.fab.node - d.dieIndex

/-- The `DISC` fields of this die (R463). -/
def MDie.disc (d : MDie) : Disc :=
  { serial := d.serial.toNat, die := d.dieIndex, fabLevel := d.ownLevels.1, cmdLevel := d.ownLevels.2, commit := d.fab.commit
    reqBase := d.fab.reqBase, heldBase := d.heldBase, cand := d.fab.cand, prio := d.fab.own.prio
    heartbeat := if d.fab.cand = d.fab.own then d.fab.ownHb else d.fab.heartbeat }

/-- The `TOPO` report of this die (R463). -/
def MDie.topo (d : MDie) : Topo :=
  ⟨d.disc, (List.range 4).map (fun k => match d.ports[k]? with
    | some p => (p.link, (d.portPs k).u Par.portCost, p.peerSerial % 2 ^ 48)
    | none => (0, 1, 0))⟩

/-- Send `DISC` on the UP ports, except one. -/
def MDie.sendDisc (d : MDie) (except : Option Nat) : MDie :=
  (d.upPorts.filter (fun k => some k ≠ except)).foldl (fun (d : MDie) k =>
    d.sendOn k (d.packet 8 0xFFF 0 0 d.disc.encode)) d

/-- Forward a packet that arrived on a port (R465, R472). -/
def MDie.forward (d : MDie) (k : Nat) (m : FabMsg) : MDie :=
  if m.pkt.hops = 0 then d.bump (portSlot k) Par.portDropped 0 1
  else match d.fab.portFor d.portUp m.pkt.dst with
    | some j => d.sendOn j { m with pkt := { m.pkt with hops := m.pkt.hops - 1 } }
    | none => d.bump (portSlot k) Par.portDropped 0 1

/-! Routes in force (R468, R472, R473). -/

/-- Dies reachable, with this one (R478, R480). -/
def MDie.dies (d : MDie) : Nat := (d.fab.routes.filter (fun (x : Nat × Route) => (d.fab.portFor d.portUp x.1).isSome)).length + 1

/-- Is a route table that of a package of its own (R471, R478)? -/
def MDie.ownOnly (d : MDie) (node : Nat) (routes : List (Nat × Route)) : Bool :=
  d.fab.alone && routes.all (fun (x : Nat × Route) => decide (node ≤ x.1 + d.dieIndex ∧ x.1 + d.dieIndex < node + d.nDies))

/-- Apply a route version. `holder` is the serial of the package that holds a refused base. -/
def MDie.applyRoutes (d : MDie) (node version rootNode : Nat) (root : FabKey) (routes : List (Nat × Route)) (holder : Nat) : MDie :=
  let t := d.tick0
  let fresh : Bool := d.fab.node == 0xFFFF && node != 0xFFFF
  let newRoot : Bool := d.fab.root != some root
  let wasReady : Bool := d.fab.st != 1
  let last := routes.foldl (fun (l : List (Nat × Nat)) x => alSet l x.1 x.2.prim) d.fab.lastPrim
  let alone : Bool := routes.isEmpty && (d.nDies != 1 || d.portUp 0 || d.portUp 1) && !fresh
  let isolatedNow : Bool := alone && !d.fab.isolated
  let d := d.modFab (fun f => { f with
    node := if f.node = 0xFFFF then node else f.node
    version := version, rootNode := rootNode, root := some root, routes := routes, lastPrim := last, isolated := alone
    st := if d.ownOnly (if f.node = 0xFFFF then node else f.node) routes then 0 else 2 })
  let reach := d.dies
  let d := if newRoot then d.post 0 (report Evt.rootChanged t (d16 rootNode ++ d8 root.prio ++ List.replicate 5 0 ++ d64 root.serial)) else d
  let conflict (given : Nat) : Ev := faultEv Evt.nodeConflict t (d16 d.fab.reqBase ++ d16 given ++ List.replicate 4 0 ++ d64 holder)
  let d := if d.dieIndex = 0 ∧ isolatedNow then d.post 0 (conflict 0xFFFF)
    else if d.dieIndex = 0 ∧ fresh ∧ d.fab.reqBase ≠ 0xFFFF ∧ d.fab.reqBase ≠ d.fab.node then d.post 0 (conflict d.fab.node)
    else d
  let d := d.post 0 (report Evt.routeChanged t (d32 version ++ d16 reach))
  if wasReady then d else d.post 0 (report Evt.fabricReady t (d16 rootNode ++ d16 reach ++ d32 version))

/-- Nodes that have joined with a level below the commit level, at the root (R476). -/
def MDie.levelMismatches (d : MDie) (nodes : List (Nat × Disc)) : MDie :=
  let low := nodes.filter (fun x => decide (min x.2.fabLevel x.2.cmdLevel < d.fab.commit))
  let fresh := low.filter (fun x => !d.fab.below.contains x.1)
  fresh.foldl (fun (d : MDie) x =>
    d.post 0 (report Evt.levelMismatch d.tick0 (d16 x.1 ++ d8 x.2.fabLevel ++ d8 x.2.cmdLevel ++ d8 d.fab.commit)))
    (d.modFab (fun f => { f with below := low.map (fun x => x.1) }))

/-- The root computes bases and routes, applies its own and sends each die its segments (R468 … R472). -/
def MDie.rootWork (d : MDie) : MDie :=
  let rs := d.fab.reports
  let (given, isolated, conflicts) := assignBases rs
  let node (j : Nat) : Option Nat := match rs[j]? with
    | some x => if isolated.contains x.disc.serial then none
        else (given.find? (fun (g : Nat × Nat × Nat) => g.1 == x.disc.serial)).map (fun g => g.2.1 + x.disc.die)
    | none => none
  match rs.findIdx? (fun x => x.key = d.fab.own) with
  | none => d
  | some me =>
    let version := (d.fab.version + 1) % 2 ^ 32
    let myNode := if d.fab.node ≠ 0xFFFF then d.fab.node else (node me).getD 0xFFFF
    let holder := match conflicts.find? (fun (c : Nat × Nat × Nat × Nat) => c.1 == d.serial.toNat) with | some c => c.2.2.2 | none => 0
    let nodes := (rs.zipIdx).filterMap (fun (x : Topo × Nat) => (node x.2).map (fun n => (n, x.1.disc)))
    let d := d.modFab (fun f => { f with levels := nodes.foldl (fun (l : List (Nat × Nat × Nat)) x =>
      alSet l x.1 (x.2.fabLevel, x.2.cmdLevel)) f.levels })
    let d := d.applyRoutes myNode version myNode d.fab.own (if isolated.contains d.serial.toNat then [] else tableOf rs node me) holder
    let d := d.levelMismatches nodes
    let ls := fabLinks rs
    -- nearest dies first, so that each die on the way knows the route of the next
    let order := sortBy (fun (a b : Route × Nat) => decide (a.1.cost ≤ b.1.cost))
      ((List.range rs.length).filterMap (fun j => if j = me then none else (routeOf rs ls me j).map (fun r => (r, j))))
    order.foldl (fun (d : MDie) (x : Route × Nat) =>
      let held := match rs[x.2]? with | some y => if y.disc.heldBase = 0xFFFF then none else some (y.disc.heldBase + y.disc.die) | none => none
      match (match held with | some h => some h | none => node x.2) with
      | none => d
      | some dst =>
        let tb := if (node x.2).isNone then [] else tableOf rs node x.2
        (List.range 16).foldl (fun (d : MDie) seg =>
          d.sendOn (x.1.prim - 6) (d.packetTo 10 dst seg (BitVec.ofNat 32 version) (encodeSegment tb seg))) d) d

/-- May the candidate conclude: some package beside its own has reported, or R471 has made it a fabric of its own? -/
def Fab.mayRoot (f : Fab) : Bool := f.cand == f.own && f.complete && (f.alone || f.node != 0xFFFF || f.reports.any (fun x => decide (x.disc.serial ≠ f.own.serial)))

/-- The candidate takes a report; when every die named has reported it does the root's work (R468). -/
def MDie.takeTopo (d : MDie) (x : Topo) : MDie :=
  let old := d.fab.reports
  let known : Bool := old.any (fun y => y.key == x.key)
  let d := d.modFab (fun f => f.addReport x)
  let same : Bool := known && old.any (fun y => y == x)
  if d.fab.reported && d.fab.mayRoot && !(same && d.fab.root == some d.fab.own && d.fab.st == 2) then d.rootWork else d

/-- Send the report to the candidate (R468): along the port its heartbeat came by, or by the route to the root where that port is lost (R473). -/
def MDie.sendTopo (d : MDie) : MDie :=
  let d := d.modFab (fun f => { f with reported := true })
  if d.fab.cand = d.fab.own then d.takeTopo d.topo
  else
    let m := d.packet 9 (if d.fab.rootNode = 0xFFFF then 0xFFF else d.fab.rootNode) 0 0 d.topo.encode
    match d.fab.candPort with
    | some k => if d.portUp k then d.sendOn k m else d.send m
    | none => d

/-! Link state (R451 … R453, R457). -/

def MDie.setPort (d : MDie) (k : Nat) (p : Port) : MDie := { d with ports := d.ports.set k p }

/-- A port is UP (R451). -/
def MDie.portCameUp (d : MDie) (k : Nat) : MDie :=
  match d.port? k with
  | none => d
  | some p =>
    let (d, eye) := d.draw 1001
    let (p, os) := { p with link := 2, timedOut := false }.pump (p.waiting.length)
    let d := d.putSent k p os
    let d := d.post (portSlot k) (report Evt.portUp d.tick0 (d16 p.peerNode ++ d16 eye ++ List.replicate 4 0 ++ d64 p.peerSerial))
    d.modFab (fun f => { f with since := d.upNs, reported := false, st := 1 })

/-- A port leaves UP, or has not reached it (R457, R473): event, packets without acknowledgement on the other ports, report to the
root. The link state after it is `link`. -/
def MDie.portWentDown (d : MDie) (k cause link : Nat) : MDie :=
  match d.ports[k]? with
  | none => d
  | some p =>
    let wasUp : Bool := p.link == 2
    let lost : Bool := cause == 2 || cause == 3 || cause == 5
    let again := p.orphans
    let p' := p.train d.upNs
    let p' := { p' with link := link, downCount := if lost then (p.downCount + 1) % 2 ^ 32 else p.downCount, peerNode := 0xFFFF, peerSerial := 0 }
    let d := { d.setPort k p' with mer := d.mer.laneDown k }
    let d := d.post (portSlot k) { (report Evt.portDown d.tick0 (d8 cause ++ [0] ++ d16 p.peerNode)) with fault := lost }
    let d := if link = 1 then d.emit (.line k (.train false false)) else d
    let d := again.foldl (fun (d : MDie) m => d.send m) d
    if wasUp then d.sendTopo else d

/-- Causes of loss (R457): an ENABLED port trains again at once; one that drains is DOWN. -/
def MDie.portLoss (d : MDie) (k cause : Nat) : MDie :=
  if d.portUp k then
    match d.obj? (portSlot k) with
    | some o => match o.life with
      | .enabled => d.portWentDown k cause 1
      | .draining => (d.portWentDown k cause 0).toIdle (portSlot k) d.tick0
      | _ => d
    | none => d
  else d

/-- `OBJECT_ENABLE` of a port (R453): on-package ports of a CH-2 cannot be. -/
def MDie.portEnableBad (d : MDie) (k : Nat) : Bad := badIf (!isExtPort k && d.nDies == 1) 7 .denied

def MDie.portEnableDo (d : MDie) (k : Nat) : MDie :=
  match d.ports[k]? with
  | none => d
  | some p => (d.setPort k (p.train d.upNs)).emit (.line k (.train false false))

def MDie.portDisableBad (k : Nat) : Bad := badIf (!isExtPort k) 7 .denied

/-- The four steps of R453 begin: no new frame is sent. -/
def MDie.portWithdraw (d : MDie) (k : Nat) : MDie :=
  match d.ports[k]? with
  | none => d
  | some p => d.setPort k { p with withdraw := some (if p.link ≠ 2 ∨ p.sent = [] then d.upNs else d.upNs + 20000) }

/-- The steps of R453 are done at or before now: DOWN for a port that drains, TRAINING for one that retrains. -/
def MDie.portWithdrawn (d : MDie) (k : Nat) : MDie :=
  match d.ports[k]?, d.obj? (portSlot k) with
  | some p, some o => match p.withdraw with
    | none => d
    | some w =>
      let due := if p.link = 2 then w + 1000 else w
      if d.upNs < due then d
      else
        let d := if p.link = 2 then d.emit (.line k (.train false true)) else d
        match o.life with
        | .draining =>
          let d := if p.link = 2 then d.portWentDown k 4 0 else d.setPort k { p.train d.upNs with link := 0 }
          d.toIdle (portSlot k) d.tick0
        | .enabled => if p.link = 2 then d.portWentDown k 4 1 else d.setPort k (p.train d.upNs)
        | _ => d.setPort k { p.train d.upNs with link := 0 }
  | _, _ => d

/-- When the withdrawal of a port ends. -/
def Port.withdrawDue (p : Port) : Option Nat := p.withdraw.map (fun w => if p.link = 2 then w + 1000 else w)

/-- `PORT_RETRAIN` (R479). -/
def MDie.portRetrain (d : MDie) (k : Nat) : MDie :=
  if d.portUp k then d.portWithdraw k
  else match d.ports[k]? with
    | some p => (d.setPort k { p.train d.upNs with timedOut := p.timedOut }).emit (.line k (.train false false))
    | none => d

/-- `TRAIN` block (R451). -/
def MDie.trainBlock (d : MDie) (k valid : Nat) (eqOk : Bool) (b : List Byte) : MDie :=
  match d.ports[k]? with
  | none => d
  | some p =>
    let flags := rdU b 2 1
    if p.link = 2 then (if bitOf flags 1 then d.portLoss k 5 else d)
    else if p.link ≠ 1 ∨ bitOf flags 1 then d
    else
      let settled : Bool := decide (64 ≤ valid) && eqOk
      let p := { p with ready := if bitOf flags 0 then p.ready + 1 else p.ready, preset := bitsOf flags 5 2
                        credits := (List.range 4).map (fun c => rdU b (3 + c) 1 + 1) }
      let d := (d.setPort k p).emit (.line k (.train settled false))
      if settled ∧ 16 ≤ p.ready ∧ isExtPort k then d.portCameUp k else d

/-- The fixed deskew of an on-package port completes (R451): the peer's buffers are those of R456. -/
def MDie.deskewComplete (d : MDie) (k : Nat) : MDie :=
  match d.ports[k]? with
  | some p => if p.link = 1 ∧ !isExtPort k then (d.setPort k { p with credits := rxUnits, peerSerial := d.serial.toNat }).portCameUp k else d
  | none => d

/-- The training timeout (R452). -/
def MDie.trainTimeout (d : MDie) (k : Nat) : MDie :=
  match d.ports[k]? with
  | some p =>
    if p.link = 1 ∧ isExtPort k ∧ p.timedOut = false ∧ p.since + (d.portPs k).u Par.portTrainTimeout * 1000000 ≤ d.upNs then
      (d.setPort k { p with timedOut := true, since := p.since + (d.portPs k).u Par.portTrainTimeout * 1000000 }).post (portSlot k)
        (report Evt.portDown d.tick0 (d8 1 ++ [0] ++ d16 p.peerNode))
    else d
  | none => d

/-- Training again every 100 ms (R452). -/
def MDie.retrainTimer (d : MDie) (k : Nat) : MDie :=
  match d.ports[k]? with
  | some p =>
    if p.link = 1 ∧ p.timedOut ∧ p.since + 100000000 ≤ d.upNs then
      (d.setPort k { p.train (p.since + 100000000) with timedOut := true }).emit (.line k (.train false false))
    else d
  | none => d

/-- The 1 µs `ACK` (R455). -/
def MDie.ackDue (d : MDie) (k : Nat) : MDie :=
  match d.ports[k]? with
  | some p => let (p, os) := p.ackTimer; d.putPort k p os
  | none => d

/-- `ACK` received; the last one of a port that withdraws begins its third step (R453, R455). -/
def MDie.ackBlock (d : MDie) (k lseq : Nat) : MDie :=
  match d.port? k with
  | none => d
  | some p =>
    if p.link ≠ 2 then d
    else
      let (p, os) := p.ack (lseq % 4096)
      let p := if p.sent = [] then { p with withdraw := p.withdraw.map (fun w => min w d.upNs) } else p
      d.putSent k p os

/-- One frame has been sent 8 times without an `ACK` (R457). -/
def MDie.replayLimit (d : MDie) (k : Nat) : MDie :=
  match d.ports[k]? with
  | some p => if p.replayLimit then d.portLoss k 3 else d
  | none => d

/-- `NAK` received (R455): a replay, counted. -/
def MDie.nakBlock (d : MDie) (k lseq : Nat) : MDie :=
  match d.ports[k]? with
  | none => d
  | some p =>
    if p.link ≠ 2 then d
    else
      let (p, os, n) := p.nak (lseq % 4096)
      let d := d.putPort k p os
      (if n = 0 then d else d.bump (portSlot k) Par.portReplays 0 n)

/-- `CREDIT` received (R454). -/
def MDie.creditBlock (d : MDie) (k c1 n1 c2 n2 : Nat) : MDie :=
  match d.port? k with
  | none => d
  | some p =>
    if p.link ≠ 2 then d
    else
      let (p, o1) := p.credit c1 n1
      let (p, o2) := p.credit c2 n2
      d.putSent k p (o1 ++ o2)

/-- A frame received (R454 … R456): its packet where it is accepted. -/
def MDie.linkFrame (d : MDie) (k lseq cls : Nat) (crcOk : Bool) (b : List Byte) : MDie × Option FabMsg :=
  match d.ports[k]? with
  | none => (d, none)
  | some p =>
    if p.link ≠ 2 then (d, none)
    else
      let units := (b.length + 63) / 64
      let (p, ok, os) := p.receive (lseq % 4096) cls units crcOk
      let d := d.putPort k p os
      let d := if crcOk then d else d.bump (portSlot k) Par.portCrcErrors 0 1
      (d, if ok then parsePacket b else none)

/-! Election (R467, R468). -/

/-- `DISC` received on a port. -/
def MDie.takeDisc (d : MDie) (k : Nat) (b : List Byte) : MDie :=
  match d.ports[k]? with
  | none => d
  | some p =>
    let x := Disc.decode b
    let node := if x.heldBase = 0xFFFF then 0xFFFF else x.heldBase + x.die
    let d := d.setPort k { p with peerNode := node, peerSerial := x.serial }
    let d := if node = 0xFFFF then d else d.modFab (fun f => { f with levels := alSet f.levels node (x.fabLevel, x.cmdLevel) })
    let old := d.fab.cand
    let (f, news) := d.fab.seeCand x.cand x.heartbeat k d.upNs
    let d := { d with fab := if f.cand = old then f else { f with st := 1 } }
    if d.fab.cand ≠ old then d.sendDisc none else if news then d.sendDisc (some k) else d

/-- Every 100 µs (R467). -/
def MDie.discTimer (d : MDie) : MDie :=
  let d := d.modFab (fun f => { f with lastDisc := d.upNs, ownHb := if f.cand = f.own then (f.ownHb + 1) % 2 ^ 32 else f.ownHb
                                       heartbeat := if f.cand = f.own then (f.ownHb + 1) % 2 ^ 32 else f.heartbeat })
  d.sendDisc none

/-- No new heartbeat of the candidate for 1 ms (R467). -/
def MDie.candStale (d : MDie) : MDie :=
  if d.fab.cand ≠ d.fab.own ∧ d.fab.seenAt + 1000000 ≤ d.upNs then
    (d.modFab (fun f => { f.ownCand d.upNs with st := 1 })).sendDisc none
  else d

def MDie.settleDue (d : MDie) : Nat := d.fab.since + d.sysPs.u Par.systemDiscSettle * 1000000

/-- One candidate has been held for `SYSTEM.DISC_SETTLE` (R468). -/
def MDie.settled? (d : MDie) : MDie := if d.fab.reported = false ∧ d.settleDue ≤ d.upNs then d.sendTopo else d

/-- `TOPO` received on a port: taken by the candidate, else passed toward it. -/
def MDie.takeTopoPacket (d : MDie) (k : Nat) (m : FabMsg) : MDie :=
  let x := Topo.decode m.pkt.payload
  let d := if x.disc.heldBase = 0xFFFF then d
    else d.modFab (fun f => { f with levels := alSet f.levels (x.disc.heldBase + x.disc.die) (x.disc.fabLevel, x.disc.cmdLevel) })
  if d.fab.cand = d.fab.own then d.takeTopo x
  else if m.pkt.hops = 0 then d.bump (portSlot k) Par.portDropped 0 1
  else match d.fab.candPort with
    | some j => if d.portUp j then d.sendOn j { m with pkt := { m.pkt with hops := m.pkt.hops - 1 } } else d.bump (portSlot k) Par.portDropped 0 1
    | none => d.bump (portSlot k) Par.portDropped 0 1

/-- A `ROUTE` segment for this die (R468): the table is in force when all sixteen are there. -/
def MDie.takeRoute (d : MDie) (m : FabMsg) : MDie :=
  let v := m.pkt.xaux.toNat
  let seg := m.pkt.xtag % 16
  let f := if d.fab.inVersion = v then d.fab else { d.fab with inVersion := v, inSegs := [], inRoutes := [] }
  let f := { f with inSegs := if f.inSegs.contains seg then f.inSegs else seg :: f.inSegs, inRoutes := decodeSegment m.pkt.payload seg f.inRoutes }
  let d := { d with fab := f }
  if f.inSegs.length = 16 then
    let (d, holder) := d.draw (2 ^ 64)
    let d := d.modFab (fun f => { f with inSegs := [], inRoutes := [] })
    d.applyRoutes m.pkt.dst v m.pkt.src f.cand f.inRoutes holder
  else d

/-- Routes inside a package of its own (R12): the shorter way round, port 1 on a tie. -/
def ringRoutes (base die n : Nat) : List (Nat × Route) :=
  (List.range n).foldl (fun (tb : List (Nat × Route)) j =>
    if j = die then tb
    else
      let fwd := (j + n - die) % n
      let back := n - fwd
      alSet tb (base + j) (if fwd ≤ back then ⟨9, 8, fwd⟩ else ⟨8, 9, back⟩)) []

/-- When R471 applies, in running time, counted from the moment at which boot enables the ports (log 106). -/
def MDie.aloneDue (d : MDie) : Nat :=
  d.fab.begun + ((List.range 2).foldl (fun m k => max m ((d.portPs k).u Par.portTrainTimeout)) 0 + d.sysPs.u Par.systemDiscSettle) * 1000000

/-- No external lane has reached UP in time: a fabric of its own package (R471). -/
def MDie.ownFabric (d : MDie) : MDie :=
  if d.fab.alone ∨ d.portUp 0 ∨ d.portUp 1 ∨ d.upNs < d.aloneDue then d
  else
    let d := d.modFab (fun f => { f with alone := true })
    if d.fab.node ≠ 0xFFFF then d
    else if d.dieIndex ≠ 0 then d
    else
      let base := if d.fab.reqBase = 0xFFFF then 0 else d.fab.reqBase
      d.applyRoutes base ((d.fab.version + 1) % 2 ^ 32) base d.fab.own (ringRoutes base 0 d.nDies) 0

/-! Levels (R475, R476). -/

/-- Lowest level reported by any node, and the lowest node below a value. -/
def MDie.minLevel (d : MDie) : Nat :=
  d.fab.levels.foldl (fun (m : Nat) (x : Nat × Nat × Nat) => min m (min x.2.1 x.2.2)) (min d.ownLevels.1 d.ownLevels.2)

def MDie.firstBelow (d : MDie) (v : Nat) : Option Nat :=
  let all := if d.fab.node = 0xFFFF then d.fab.levels else alSet d.fab.levels d.fab.node d.ownLevels
  (all.filter (fun (x : Nat × Nat × Nat) => decide (min x.2.1 x.2.2 < v))).foldl (fun (m : Option Nat) x => some (min (m.getD x.1) x.1)) none

def MDie.commitBad (d : MDie) (b : List Byte) : Bad :=
  let v := rdU b 0 1
  firstBad [badIf (v == 0) 9 .outOfRange,
    match d.firstBelow v with
    | some n => some (12, .infeasible, ⟨0, BitVec.ofNat 64 n⟩)
    | none => none]

/-- `FABRIC_COMMIT` at the root, at its acceptance: the switch time is set and sent (R475). -/
def MDie.commitDo (d : MDie) (stamp : Option Nat) (b : List Byte) : MDie × Result :=
  let v := rdU b 0 1
  let t := switchTime d.ns stamp
  let d := d.modFab (fun f => { f with switch := some (v, t) })
  let d := d.fab.routes.foldl (fun (d : MDie) (x : Nat × Route) =>
    d.send (d.packetTo 11 x.1 v 0 (d64 (t / 1000000000) ++ d32 (t % 1000000000) ++ List.replicate 4 0))) d
  (d, ⟨BitVec.ofNat 64 (t / 1000000000 % 2 ^ 32 + t % 1000000000 * 2 ^ 32), 0⟩)

/-- `LEVEL` received. -/
def MDie.takeLevel (d : MDie) (m : FabMsg) : MDie :=
  d.modFab (fun f => { f with switch := some (m.pkt.xtag % 256, rdU m.pkt.payload 0 8 * 1000000000 + rdU m.pkt.payload 8 4) })

/-- The switch time has come (R475). -/
def MDie.levelSwitch (d : MDie) : MDie :=
  match d.fab.switch with
  | some (v, t) =>
    if t ≤ d.ns then
      let old := d.fab.commit
      ((d.modFab (fun f => { f with commit := v, switch := none })).setPar 0 Par.systemCommitLevel 0 (BitVec.ofNat 64 v)).post 0
        (report Evt.levelCommitted d.tick0 (d8 v ++ d8 old))
    else d
  | none => d

/-! Command windows and bulk rounds (R460, R461). -/

/-- Is a place free in the window toward a node? -/
def MDie.e2eFree (d : MDie) (node : Nat) : Bool := decide ((alGet d.fab.e2e node).getD 0 < d.sysPs.u Par.systemE2eWindow)

def MDie.e2eTake (d : MDie) (node : Nat) : MDie := d.modFab (fun f => { f with e2e := alSet f.e2e node ((alGet f.e2e node).getD 0 + 1) })

/-- `E2E_CREDIT` received. -/
def MDie.e2eBack (d : MDie) (m : FabMsg) : MDie :=
  d.modFab (fun f => { f with e2e := alSet f.e2e m.pkt.src ((alGet f.e2e m.pkt.src).getD 0 - m.pkt.xtag) })

/-- Return places to a node. -/
def MDie.e2eReturn (d : MDie) (node n : Nat) : MDie := d.send (d.packetTo 7 node n 0 [])

/-- Payload bytes of one external lane in a round of 10 µs (R448, R460). -/
def laneRound : Nat := 12125

/-- Bulk bytes a client may send in a round, by the share that the round began with (R39). -/
def MDie.bulkBudget (d : MDie) (client : Nat) : Nat :=
  laneRound * (d.upPorts.filter (fun k => isExtPort k)).length
    * (match alGet d.fab.bulkOld client with | some q => q | none => d.quota Par.systemQuotaBulk client) / 256

/-- A bulk share has been written: the one that was in force stays so for the round (R39). -/
def MDie.bulkWritten (d : MDie) (client : Nat) (old : Nat) : MDie :=
  d.modFab (fun f => if (alGet f.bulkOld client).isSome then f else { f with bulkOld := alSet f.bulkOld client old })

/-- Send a bulk packet for a client. The budget is of the external lanes, and counts what leaves by one (log 34). -/
def MDie.sendBulk (d : MDie) (client : Nat) (m : FabMsg) : MDie :=
  match d.fab.portFor d.portUp m.pkt.dst with
  | none => d
  | some k =>
    if !isExtPort k then d.sendOn k m
    else
      let size := m.bytes.length
      let used := (alGet d.fab.bulkSent client).getD 0
      if used + size ≤ d.bulkBudget client ∧ d.fab.bulkHeld.all (fun x => x.1 ≠ client) then
        (d.modFab (fun f => { f with bulkSent := alSet f.bulkSent client (used + size) })).sendOn k m
      else d.modFab (fun f => { f with bulkHeld := f.bulkHeld ++ [(client, m)] })

/-- A new round (R460). -/
def MDie.bulkRound (d : MDie) : MDie :=
  let held := d.fab.bulkHeld
  let d := d.modFab (fun f => { f with bulkSent := [], bulkOld := [], bulkHeld := [], bulkRound := d.upNs / 10000 * 10000 })
  held.foldl (fun (d : MDie) (x : Nat × FabMsg) => d.sendBulk x.1 x.2) d

/-! `TARGET_UNREACHABLE` (R473). -/

def MDie.targetUnreachable (d : MDie) (node : Nat) (client : U16) : MDie :=
  if d.dieIndex ≠ 0 then d
  else
    let e := report Evt.targetUnreachable d.tick0 (d16 node ++ d16 client.toNat)
    let src := (alGet d.fab.lastPrim node).getD 6
    match alGet d.fab.tuPost node with
    | some t => if d.upNs < t + 1000000 then d else (d.modFab (fun f => { f with tuPost := alSet f.tuPost node d.upNs })).post src e
    | none => (d.modFab (fun f => { f with tuPost := alSet f.tuPost node d.upNs })).post src e

/-! Values read. -/

def MDie.portRead (d : MDie) (k id ix : Nat) : Option Int :=
  match d.ports[k]? with
  | none => none
  | some p =>
    if id = Par.portKind then some (if isExtPort k then 0 else 1)
    else if id = Par.portLinkState then some p.link
    else if id = Par.portAutoEnable then (if !isExtPort k && d.nDies != 1 then some 1 else none)
    else if id = Par.portPeerNode then some p.peerNode
    else if id = Par.portPeerSerial then some p.peerSerial
    else if id = Par.portDownCount then some p.downCount
    else if id = Par.portUtil then some (Config.free (d.free + 4096 * ix) 1001 % 1001 : Nat)
    else if id = Par.portEyeMargin then some (Config.free d.free 1001 % 1001 : Nat)
    else none

def MDie.sysFabRead (d : MDie) (id ix : Nat) : Option Int :=
  if id = Par.systemNodeId then some d.fab.node
  else if id = Par.systemRootNode then some d.fab.rootNode
  else if id = Par.systemFabricState then some d.fab.st
  else if id = Par.systemFabricNodes then some (d.dies : Nat)
  else if id = Par.systemLevels then some (d.ownLevels.1 + 256 * d.ownLevels.2 : Nat)
  else if id = Par.systemCommitLevel then some d.fab.commit
  else if id = Par.systemFabricMinLevel then some d.minLevel
  else if id = Par.systemPeerLevel then
    some (if d.reachable ix then (d.pairLevels ix).1 + 256 * (d.pairLevels ix).2 else 0 : Nat)
  else if id = Par.systemRouteVersion then some d.fab.version
  else none

/-- `FABRIC_ROUTE_GET` (R479). -/
def MDie.routeGetBad (b : List Byte) : Bad := badIf (decide (4095 < rdU b 0 2)) 9 .outOfRange

def MDie.routeGet (d : MDie) (b : List Byte) : Result :=
  let r := (alGet d.fab.routes (rdU b 0 2)).getD ⟨0xFF, 0xFF, 0⟩
  ⟨BitVec.ofNat 64 (r.prim + 256 * r.alt + 65536 * (r.cost % 65536) + 2 ^ 32 * d.fab.version), 0⟩

/-- `SYSTEM.NODE_BASE_REQ` is the lead die's alone (R478). -/
def MDie.sysFabPar (d : MDie) (id : Nat) : Bad := badIf (id == Par.systemNodeBaseReq && d.dieIndex != 0) 8 .badParam

/-! Timers at a class 0 tick. -/

def MDie.fabTick (d : MDie) : MDie :=
  let d := (List.range 4).foldl (fun (d : MDie) k => ((((d.trainTimeout k).retrainTimer k).ackDue k).replayLimit k).portWithdrawn k) d
  let d := if d.fab.lastDisc + 100000 ≤ d.upNs then d.discTimer else d
  let d := ((d.candStale).settled?).ownFabric
  let d := if d.fab.bulkRound + 10000 ≤ d.upNs then d.bulkRound else d
  d.levelSwitch

end Sys2Proof.Machine
end

