-- ==== Sys2Proof/Machine/TimeDie.lean ====
section
/-! DEFINITION. Meridian on the die (R481 … R500): steps of MTIME with what hangs on them (R57), messages, timers, PPS. -/

namespace Sys2Proof.Machine

open Sys2Proof

/-! Steps of MTIME (R57). Times held for motion, events and outputs move with the tick trains, which restart on their alignment. -/

def shiftN (s : Int) (n : Nat) : Nat := ((n : Int) + s).toNat

/-- How far the train of a period moves when MTIME steps: from the first tick after the class 0 tick that has begun, to the first at or after
the new time. -/
def trainShift (begun new p : Nat) : Int := (((new + p - 1) / p * p : Nat) : Int) - (((begun / p + 1) * p : Nat) : Int)

def Plan.shift (p : Plan) (s : Int) : Plan := { p with t0 := shiftN s p.t0 }

def Axis.shift (a : Axis) (s : Int) : Axis :=
  { a with
    core := { a.core with plan := a.core.plan.shift s }
    ra := { a.ra with hor := a.ra.hor.map (fun h => { h with tick := shiftN s h.tick }), epochTick := a.ra.epochTick.map (shiftN s)
                      corrs := a.ra.corrs.map (fun c => { c with plan := c.plan.shift s, seen := shiftN s c.seen })
                      kept := a.ra.kept.map (fun x => { x with tick := shiftN s x.tick }), srcLast := shiftN s a.ra.srcLast } }

def FbkSpeed.shift (p : FbkSpeed) (s : Int) : FbkSpeed :=
  let move (l : Option (Int × Nat)) : Option (Int × Nat) := l.map (fun x => (x.1, shiftN s x.2))
  { p with
    snapTime := shiftN s p.snapTime, last := move p.last, prev := move p.prev, baseTime := shiftN s p.baseTime
    lastSnap := move p.lastSnap, baseSnap := shiftN s p.baseSnap }

def Fbk.shift (f : Fbk) (s : Int) : Fbk :=
  { f with
    cnt := { f.cnt with
      pend := f.cnt.pend.map (fun e => { e with pin := shiftN s e.pin }), ssiBusy := f.cnt.ssiBusy.map (fun x => (shiftN s x.1, x.2))
      ssiNext := shiftN s f.cnt.ssiNext, reads := f.cnt.reads.map (fun x => (x.1, shiftN s x.2))
      steps := f.cnt.steps.map (fun x => (x.1, shiftN s x.2)) }
    spd := f.spd.shift s
    src := { f.src with spd := f.src.spd.shift s, reads := f.src.reads.map (fun x => (x.1, shiftN s x.2)) }
    mon := { f.mon with
      edgeFastPost := f.mon.edgeFastPost.map (shiftN s), idxDue := f.mon.idxDue.map (fun x => { x with pin := shiftN s x.pin })
      idxNow := f.mon.idxNow.map (fun x => { x with pin := shiftN s x.pin }), ref := f.mon.ref.map (fun x => (x.1, x.2.1, shiftN s x.2.2)) } }

def Cmp.shift (c : Cmp) (s : Int) : Cmp :=
  { c with
    placed := c.placed.map (fun e => { e with cross := shiftN s e.cross, pin := shiftN s e.pin, leave := shiftN s e.leave })
    searched := shiftN s c.searched, lastFire := c.lastFire.map (shiftN s), pulseEnd := c.pulseEnd.map (shiftN s) }

def Lclk.shift (c : Lclk) (s : Int) : Lclk :=
  { c with
    placed := c.placed.map (fun e => { e with cross := shiftN s e.cross, pin := shiftN s e.pin, leave := shiftN s e.leave })
    searched := shiftN s c.searched, lastEdge := c.lastEdge.map (shiftN s), overrunAt := c.overrunAt.map (shiftN s)
    pulseEnd := c.pulseEnd.map (shiftN s) }

def Pwmg.shift (g : Pwmg) (s : Int) : Pwmg :=
  { g with
    start := g.start.map (shiftN (s * 2 / 5)), next := shiftN (s * 2 / 5) g.next, trigSeen := shiftN (s * 2 / 5) g.trigSeen
    highAt := g.highAt.map (shiftN s), stretchPost := g.stretchPost.map (shiftN s), wwpPost := g.wwpPost.map (shiftN s)
    cyclePost := g.cyclePost.map (shiftN s) }

def GatePair.shift (x : GatePair) (s : Int) : GatePair :=
  let k := shiftN (s * 2 / 5)
  { x with since := k x.since, offAt := (x.offAt.1.map k, x.offAt.2.map k), seen := k x.seen }

def Chan.shift (c : Chan) (s : Int) : Chan :=
  { c with
    inp := { c.inp with takes := c.inp.takes.map (fun x => (shiftN s x.1, x.2)), start := c.inp.start.map (shiftN s) }
    out := { c.out with pulseEnd := c.out.pulseEnd.map (shiftN s), blank := shiftN s c.out.blank, test := c.out.test.map (shiftN s)
                        retryAt := c.out.retryAt.map (shiftN s), retryOn := c.out.retryOn.map (shiftN s) } }

/-- The class part of an object, moved with its own train (`s`), or by the step itself (`raw`) where it is a pin time. -/
def ObjData.shift (x : ObjData) (s raw : Int) : ObjData :=
  match x with
  | .axis a => .axis (a.shift s)
  | .fbk f => .fbk (f.shift raw)
  | .path p => .path { p with plan := p.plan.shift s, starveAt := p.starveAt.map (shiftN s) }
  | .evt c => .evt (c.shift s)
  | .capt c => .capt { c with last := c.last.map (shiftN raw) }
  | .lclk c => .lclk (c.shift s)
  | .lgrp g => .lgrp { g with gateTick := g.gateTick.map (shiftN s), satPost := g.satPost.map (shiftN s), dropAt := g.dropAt.map (shiftN s) }
  | .pwmg g => .pwmg (g.shift s)
  | .sdin c => .sdin { c with trigAt := c.trigAt.map (shiftN raw), arrivals := c.arrivals.map (fun x => (shiftN raw x.1, x.2)) }
  | .dlane l => .dlane { l with since := shiftN raw l.since, errPost := l.errPost.map (shiftN raw), ampPost := l.ampPost.map (shiftN raw) }
  | .canc c => .canc { c with lostPost := c.lostPost.map (fun y => y.map (shiftN raw))
                              bufs := c.bufs.map (fun y => y.map (fun (b : TxBuf) => { b with since := shiftN raw b.since })) }
  | .system => .system
  | .time => .time
  | .prof k => .prof k
  | .port k => .port k
  | .probe k => .probe k
  | .fio k => .fio k
  | .safe k => .safe k
  | .gear g => .gear g
  | .cam c => .cam c
  | .trace t => .trace t
  | .dmac c => .dmac c
  | .canmb c => .canmb c
  | .queue k => .queue k

/-- The tick of effect of an accepted command after MTIME stepped from `old` to `new` (R57): a stamped one keeps its stamp, and one whose
tick is skipped takes effect at the first tick of its class after the step; an unstamped one keeps its distance in ticks. -/
def MDie.actionAfter (d : MDie) (old new : Nat) (a : Action) : Action :=
  let p := d.periodOf a.pkt.target
  if !a.stamped then { a with effect := shiftN (trainShift d.tick new p) a.effect }
  else if old < a.effect ∧ a.effect < new then { a with effect := (new + p - 1) / p * p }
  else a

/-- MTIME steps (R57, R491), to a time whose base ticks are those of R41 (log 145). -/
def MDie.stepTime (d : MDie) (step : Int) : MDie :=
  let old := d.ns
  let new := baseFloor (shiftN step old)
  let raw : Int := (new : Int) - old
  let s0 := trainShift d.tick new 16000
  let slots := d.slots.map (fun (x : Nat × Slot) => match x.2.occ with
    | .obj o =>
      let s := trainShift d.tick new (d.period x.1)
      (x.1, { x.2 with occ := .obj { o with drainAt := shiftN raw o.drainAt, data := o.data.shift s raw } })
    | _ => x)
  let acts := d.rm.actions.map (fun (a : Action) => d.actionAfter old new a)
  { d with
    time := ⟨new, d.time.frac⟩
    tick := if new % 16000 = 0 ∧ new ≠ old ∧ 0 < new then new - 16000 else new / 16000 * 16000
    slots := slots
    encTracks := d.encTracks.map (fun x => (x.1, x.2.map (fun k => { k with at_ := shiftN raw k.at_ })))
    gatePairs := d.gatePairs.map (fun x => x.shift s0)
    rm := { d.rm with actions := acts }
    field := { d.field with chans := d.field.chans.map (fun c => c.shift raw) }
    ss1Wire := d.ss1Wire.map (fun x => (x.1, shiftN raw x.2))
    mer := { d.mer with lanes := d.mer.lanes.map (fun l => { l with req := l.req.map (shiftN raw) }) }
    safe := { d.safe with queue := d.safe.queue.map (fun (x : Nat × SafeFrame) => (shiftN raw x.1, x.2)), at_ := shiftN raw d.safe.at_
                          log := d.safe.log.map (fun (x : SafeLog × Nat) => (x.1, shiftN s0 x.2)) } }

/-- Put Meridian's state, post its events, and make the step. -/
def MDie.merDo (d : MDie) (r : Meridian × List Ev × Option Int) : MDie :=
  let d := { d with mer := r.1 }.postAll 1 r.2.1
  match r.2.2 with
  | some s => if s = 0 then d else d.stepTime s
  | none => d

def MDie.merSet (d : MDie) (r : Meridian × List Ev) : MDie := { d with mer := r.1 }.postAll 1 r.2

/-- The own key now. -/
def MDie.gmKey (d : MDie) : Option GmKey := d.mer.ownKey d.timePs d.serial.toNat d.dieIndex

/-- Send a time message to the peer of a port (R485). -/
def MDie.sendTime (d : MDie) (k : Nat) (m : TimeMsg) : MDie :=
  let peer := match d.ports[k]? with | some p => if p.peerNode = 0xFFFF then 0xFFF else p.peerNode | none => 0xFFF
  d.sendOn k (d.packet 1 peer 0 0 m.encode)

/-- Send a message of a type on UP ports. -/
def MDie.timeOnPorts (d : MDie) (ks : List Nat) (mtype : Nat) : MDie :=
  ks.foldl (fun (d : MDie) k =>
    let (m, msg) := d.mer.compose mtype (if mtype = 1 then d.ns else 0) 0
    { d with mer := m }.sendTime k msg) d

/-- The port `SYNC` is accepted on (R486, R488). -/
def MDie.syncPort (d : MDie) : Option Nat :=
  match alGet d.fab.routes d.mer.candNode with
  | none => none
  | some r => ([r.prim, r.alt].filter (fun x => x ≠ 0xFF)).map (fun x => x - 6) |>.find? (fun k => d.portUp k && d.mer.measured k)

/-- `SYNC` arrived at an MTIME (R486, R487, R490 … R492). -/
def MDie.takeSync (d : MDie) (k arr : Nat) (b : List Byte) : MDie :=
  let msg := TimeMsg.decode b
  if d.mer.isGm ∨ d.syncPort ≠ some k ∨ msg.gmNode ≠ d.mer.candNode then d
  else
    let (d, res) := d.draw (2000 * 65536 + 1)
    let out := d.mer.forward d.timePs k msg res
    let d := (d.upPorts.filter (fun j => j ≠ k)).foldl (fun (d : MDie) j => d.sendTime j out) d
    let (d, free) := ({ d with free := d.free + 1 }, d.free)
    d.merDo (d.mer.sync d.timePs k arr msg d.tick0 d.upNs free)

/-- `ANNOUNCE` arrived (R483). -/
def MDie.takeAnnounce (d : MDie) (k : Nat) (b : List Byte) : MDie :=
  let (m, e, news) := d.mer.announce d.timePs d.gmKey d.fab.node k (TimeMsg.decode b) d.tick0 d.upNs
  let d := d.merSet (m, e)
  if news then d.timeOnPorts (d.upPorts.filter (fun j => d.mer.isGm || j ≠ k)) 2 else d

/-- `PDELAY_REQ` arrived (R488): the answer with its turnaround. -/
def MDie.takePdelayReq (d : MDie) (k arr : Nat) : MDie :=
  let (m, msg) := d.mer.compose 4 0 (((max d.ns arr : Nat) - arr : Int) * 65536)
  { d with mer := m }.sendTime k msg

def MDie.takePdelayResp (d : MDie) (k arr : Nat) (b : List Byte) : MDie := { d with mer := d.mer.delaySample k arr (TimeMsg.decode b) }

/-! Timers. -/

/-- Every 1 ms (R483): the own key where it is the candidate, a new heartbeat of a grandmaster, `ANNOUNCE` on every UP port. -/
def MDie.announceTimer (d : MDie) : MDie :=
  let d := { d with mer := { d.mer with annAt := d.upNs } }
  let d := match d.gmKey, d.mer.cand with
    | some k, none => d.merSet (d.mer.becomeGm k d.fab.node d.tick0 d.upNs)
    | some k, some c =>
      if d.mer.isGm then { d with mer := { d.mer with cand := some k, candNode := d.fab.node, heartbeat := (d.mer.heartbeat + 1) % 2 ^ 32, seenAt := d.upNs } }
      else if k.lt c then d.merSet (d.mer.becomeGm k d.fab.node d.tick0 d.upNs)
      else d
    | none, _ => if d.mer.isGm then d.merSet (d.mer.candStale none d.fab.node d.tick0 d.upNs) else d
  if d.mer.cand.isSome then d.timeOnPorts d.upPorts 2 else d

def MDie.syncTimer (d : MDie) : MDie :=
  let d := { d with mer := { d.mer with syncAt := d.upNs } }
  if d.mer.isGm then d.timeOnPorts d.upPorts 1 else d

def MDie.pdelayTimer (d : MDie) : MDie :=
  let d := { d with mer := { d.mer with pdelAt := d.upNs } }
  (d.upPorts.filter isExtPort).foldl (fun (d : MDie) k =>
    let d := { d with mer := { d.mer with lanes := listMod d.mer.lanes k (fun l => { l with req := some d.ns }) } }
    d.timeOnPorts [k] 3) d

def MDie.gmStale (d : MDie) : MDie :=
  if !d.mer.isGm && d.mer.cand.isSome && decide (d.mer.seenAt + 4000000 ≤ d.upNs) then
    let d := d.merSet (d.mer.candStale d.gmKey d.fab.node d.tick0 d.upNs)
    if d.mer.isGm then d.timeOnPorts d.upPorts 2 else d
  else d

def MDie.syncLoss (d : MDie) : MDie := if d.mer.syncLost d.timePs d.upNs then d.merSet (d.mer.enter 3 1 d.tick0 d.upNs) else d

def MDie.ppsSilence (d : MDie) : MDie := if d.mer.ppsSilent d.timePs d.upNs then d.merSet (d.mer.enter 1 0 d.tick0 d.upNs) else d

/-- A rising edge of `PPS_IN` (R495, R496). -/
def MDie.ppsIn (d : MDie) (pin : Nat) : MDie :=
  let free := d.free
  { d with free := d.free + 1 }.merDo (d.mer.ppsEdge d.timePs pin d.tick0 d.upNs free)

/-- The end of a pulse of `PPS_OUT` at or before now, or its being switched off (R494). -/
def MDie.ppsFall (d : MDie) : MDie :=
  match d.mer.ppsUntil with
  | some t =>
    if t ≤ d.upNs then { d with mer := { d.mer with ppsUntil := none } }.emit (.edge .ppsOut (d.ns - (d.upNs - t)) false)
    else if d.timePs.u Par.timePpsOutEn = 0 then { d with mer := { d.mer with ppsUntil := none } }.emit (.edge .ppsOut d.ns false)
    else d
  | none => d

/-- A whole second, before its class 0 tick begins (R494, R499). -/
def MDie.wholeSecond (d : MDie) : MDie :=
  if d.ns % 1000000000 ≠ 0 then d
  else
    let d := match d.mer.setSecs with
      | some s =>
        let step : Int := (s : Int) * 1000000000 - d.ns
        let d := { d with mer := { d.mer with setSecs := none } }
        (d.post 1 (evStepped d.ns step 3)).stepTime step
      | none => d
    let m := d.mer.second d.timePs d.upNs
    let d := { d with mer := m }
    if m.ppsUntil.isSome then d.emit (.edge .ppsOut d.ns true) else d

def MDie.timeTick (d : MDie) : MDie :=
  let d := d.ppsFall
  let d := (d.gmStale).syncLoss.ppsSilence
  let d := if d.mer.annAt + 1000000 ≤ d.upNs then d.announceTimer else d
  let d := if d.mer.syncAt + d.timePs.u Par.timeSyncInterval * 1000 ≤ d.upNs then d.syncTimer else d
  if d.mer.pdelAt + d.timePs.u Par.timePdelayInterval * 1000000 ≤ d.upNs then d.pdelayTimer else d

/-! Opcodes and values. -/

def MDie.timeOpBad (d : MDie) (op : Op) (b : List Byte) : Bad :=
  match op with
  | .timeAcceptStep => badIf (!d.mer.stepOk (rdU b 0 2)) 10 .wrongState
  | .timeSet => badIf (!d.mer.isGm) 7 .denied
  | _ => none

def MDie.timeDo (d : MDie) (op : Op) (b : List Byte) : MDie × Result :=
  match op with
  | .timeAcceptStep =>
    let (m, e, s) := d.mer.acceptStep d.tick0 d.upNs
    (d.merDo (m, e, some s), ⟨image64 s, 0⟩)
  | .timeSet => ({ d with mer := { d.mer with setSecs := some (rdU b 0 8) } }, noResult)
  | .timeGet => (d, ⟨BitVec.ofNat 64 (d.tick / 1000000000), BitVec.ofNat 64 (d.tick % 1000000000 + d.mer.st * 2 ^ 32)⟩)
  | _ => (d, noResult)

def MDie.timeRead (d : MDie) (id ix : Nat) : Option Int :=
  let m := d.mer
  if id = Par.timeState then some m.st
  else if id = Par.timeIsGm then some (if m.isGm then 1 else 0)
  else if id = Par.timeGmNode then some m.candNode
  else if id = Par.timeOffset then some m.offset
  else if id = Par.timeFreqAdj then some m.freqAdj
  else if id = Par.timePeerDelay then some (m.peerDelay ix)
  else if id = Par.timeHops then some m.hops
  else if id = Par.timeStepPending then some m.stepPending
  else if id = Par.timeStepId then some m.stepId
  else if id = Par.timePpsInLast then some m.ppsLast.toNat
  else if id = Par.timeHoldoverMs then some (match m.heldAt with | some t => (d.upNs - t) / 1000000 | none => 0 : Nat)
  else none

end Sys2Proof.Machine
end

