-- ==== Sys2Proof/Machine/CanDie.lean ====
section
/-! DEFINITION. CAN FD controllers and mailboxes on the die (R520 … R542). -/

namespace Sys2Proof.Machine

open Sys2Proof

def cancSlot (k : Nat) : Nat := 10 + k

def MDie.canmb? (d : MDie) (n : Nat) : Option (Obj × Canmb) :=
  match d.obj? n with
  | some o => match o.data with | .canmb a => some (o, a) | _ => none
  | none => none

/-- Put a controller's state. -/
def MDie.setCanc (d : MDie) (n : Nat) (c : Canc) : MDie := d.setData n (.canc c)

/-! Filter lists (R528, R529). -/

/-- A list in SRAM: the entries, or the refusal with the entry's index; an uncorrectable error in it answers `FAULTED` (R545). -/
def MDie.filtRead (d : MDie) (addr count : Nat) : Except (Nat × Status × Result) (List FiltEntry) :=
  if count = 0 then .ok []
  else if !filtPlace addr count then .error (9, .outOfRange, noResult)
  else if (d.mem.badIn 0 addr (16 * count)).isSome then .error (10, .faulted, noResult)
  else match filtList (d.mem.sram.readN addr (16 * count)) count 0 with
    | .ok l => .ok l
    | .error (st, i) => .error (if st = .outOfRange then 9 else 8, st, ⟨0, BitVec.ofNat 64 i⟩)

def MDie.filtBad (d : MDie) (addr count : Nat) : Bad :=
  match d.filtRead addr count with
  | .ok _ => none
  | .error e => some e

/-- Class checks of an entry (R539). -/
def cancPar (id : Nat) (v : U64) : Bad :=
  let n := v.toNat
  if id = Par.cancNbt then firstBad [badIf (bitOf n 23 || bitOf n 31) 8 .badParam, badIf (bitsOf n 15 8 == 0) 9 .outOfRange]
  else if id = Par.cancDbt then
    badIf (bitsOf n 7 5 != 0 || bitsOf n 15 13 != 0 || bitsOf n 23 20 != 0 || bitsOf n 31 28 != 0) 8 .badParam
  else if id = Par.cancTdc then badIf (bitsOf n 7 1 != 0 || bitOf n 15) 8 .badParam
  else if id = Par.cancFiltAddr then badIf (decide (0x800000 ≤ n)) 9 .outOfRange
  else none

def MDie.cancEnableBad (d : MDie) (o : Obj) : Bad :=
  let ps := o.params
  firstBad [match canTimingCheck ps with
      | some .badParam => bad 8 .badParam
      | some s => bad 12 s
      | none => none,
    d.filtBad (ps.u Par.cancFiltAddr) (ps.u Par.cancFiltCount)]

/-- Enable: the list is copied, and integration begins (R524, R529). -/
def MDie.cancEnableDo (d : MDie) (n t : Nat) : MDie :=
  match d.canc? n with
  | none => d
  | some (o, c) =>
    let fl := match d.filtRead (o.params.u Par.cancFiltAddr) (o.params.u Par.cancFiltCount) with | .ok l => l | .error _ => []
    let c' := c.enable fl
    let d := d.setCanc n c'
    if c'.st = c.st then d else d.post n (evErrState c' c.st t false false)

/-- Nothing is pending: a controller that drains is DISABLED, its FIFOs empty (R538). -/
def MDie.cancSettle (d : MDie) (n t : Nat) : MDie :=
  match d.canc? n with
  | none => d
  | some (o, c) =>
    if o.life = .draining ∧ c.bufs.all (fun b => b.isNone) = true then (d.setCanc n c.disabled).toIdle n t else d

/-- Entry to DRAINING (R538). -/
def MDie.cancDrain (d : MDie) (n t : Nat) : MDie :=
  match d.canc? n with
  | none => d
  | some (o, c) =>
    let keep := match c.contender o.params d.ns with
      | some i => if c.begun o.params i d.ns d.free then some i else none
      | none => none
    let (c, e) := { c with onBus := keep }.endAll keep t
    ((d.setCanc n c).postAll n e).cancSettle n t

/-- Values read. -/
def cancRead (c : Canc) (id ix : Nat) : Option Int :=
  if id = Par.cancState then some c.st
  else if id = Par.cancTec then some c.tec
  else if id = Par.cancRec then some c.rxc
  else if id = Par.cancLec then some c.lec
  else if id = Par.cancTdcMeas then some c.tdcMeas
  else if id = Par.cancFifoFill then some (c.fifos.getD ix []).length
  else if id = Par.cancTxFree then some c.txFree
  else if id = Par.cancRxCount then some c.rxCount
  else if id = Par.cancTxCount then some c.txCount
  else none

def canmbRead (m : Canmb) (id : Nat) : Option Int :=
  if id = Par.canmbController then some m.ctrl
  else if id = Par.canmbIndex then some m.index
  else if id = Par.canmbRcnt then some m.rcnt
  else if id = Par.canmbLostCount then some m.lostCount
  else none

/-- `OBJECT_CREATE` of a mailbox (R532). -/
def MDie.canmbCreateBad (d : MDie) (word : U32) : Bad :=
  match Canmb.create word with
  | .error s => bad 8 s
  | .ok m => badIf (d.objects.any (fun (x : Nat × Obj) => match x.2.data with
      | .canmb y => y.ctrl == m.ctrl && y.index == m.index
      | _ => false)) 11 .noResource

/-! Opcodes (R541). -/

def MDie.cancOpBad (d : MDie) (op : Op) (o : Obj) (c : Canc) (b : List Byte) : Bad :=
  match op with
  | .canTx =>
    firstBad [match canTxCheck o.params b with
        | some .badParam => bad 8 .badParam
        | some .outOfRange => bad 9 .outOfRange
        | some s => bad 10 s
        | none => none,
      needEnabled o, badIf (c.txFree == 0) 11 .noResource]
  | .canTxCancel => firstBad [badIf (decide (31 < rdU b 0 1)) 9 .outOfRange, needEnabled o]
  | .canFiltSwitch =>
    let a := rdU b 0 4
    let k := rdU b 4 2
    let range := badIf (!filtPlace a k || decide (256 < k)) 9 .outOfRange
    firstBad [range, needEnabled o, if range.isSome then none else d.filtBad a k]
  | _ => none

/-- `CAN_FILT_SWITCH` fills the standby list at acceptance (R529). -/
def MDie.cancStandby (d : MDie) (n : Nat) (b : List Byte) : MDie :=
  match d.canc? n, d.filtRead (rdU b 0 4) (rdU b 4 2) with
  | some (_, c), .ok l => d.setCanc n { c with standby := l }
  | _, _ => d

/-- `CAN_TX` takes its buffer at acceptance (R535, R541); `cmd` is its place in the order of acceptance. -/
def MDie.canTxTake (d : MDie) (n cmd : Nat) (b : List Byte) : MDie × Option Result :=
  match d.canc? n with
  | some (_, c) =>
    let r := CanRec.decode b
    match c.submit r d.ns (some cmd) with
    | some (c, i) => (d.setCanc n c, some ⟨BitVec.ofNat 64 (i + 65536 * r.tag), 0⟩)
    | none => (d, none)
  | none => (d, none)

/-- Its frame becomes pending at its tick (R535). -/
def MDie.canTxDue (d : MDie) (n cmd t : Nat) : MDie :=
  match d.canc? n with
  | some (o, c) => d.setCanc n (c.due (o.life == .enabled) cmd t)
  | none => d

def MDie.cancDo (d : MDie) (op : Op) (n t : Nat) (b : List Byte) : MDie × Result :=
  match d.canc? n with
  | none => (d, noResult)
  | some (o, c) =>
    if o.life ≠ .enabled then (d, noResult)
    else match op with
      | .canTxCancel =>
        let (c, e, r) := c.cancel o.params (rdU b 0 1) d.ns t d.free
        ((d.setCanc n c).postAll n e, ⟨BitVec.ofNat 64 r, 0⟩)
      | .canFiltSwitch =>
        let d := d.setCanc n { c with filters := c.standby }
        ((d.setPar n Par.cancFiltAddr 0 (BitVec.ofNat 64 (rdU b 0 4))).setPar n Par.cancFiltCount 0 (BitVec.ofNat 64 (rdU b 4 2)), noResult)
      | _ => (d, noResult)

def canmbOpBad (o : Obj) (b : List Byte) : Bad := firstBad [badIf (decide (4 < rdU b 0 1)) 9 .outOfRange, needEnabled o]

def MDie.canmbDo (d : MDie) (n : Nat) (b : List Byte) : MDie × Result :=
  match d.canmb? n with
  | none => (d, noResult)
  | some (o, m) =>
    if o.life ≠ .enabled then (d, noResult)
    else (if bitOf (rdU b 1 1) 0 then d.setData n (.canmb { m with taken := true }) else d, m.read (rdU b 0 1))

/-- Mailboxes take the frames of the tick before (R533). -/
def MDie.canmbTick (d : MDie) : MDie :=
  (d.slotsOf .canmb).foldl (fun (d : MDie) n => match d.canmb? n with
    | some (o, m) =>
      if m.staged = [] then d
      else if o.life = .enabled then
        let (m, ps, e) := m.take o.params
        (d.setObj n { o with params := ps, data := .canmb m }).postAll n e
      else d.setData n (.canmb { m with staged := [] })
    | none => d) d

/-! The bus. Error counters follow the protocol, and come with what the controller saw. -/

/-- Is the controller on the bus? -/
def Obj.canOn (o : Obj) (c : Canc) : Bool := (o.life == .enabled || o.life == .draining) && decide (c.st ≤ 1)

/-- Bus off (R525): a fault with `CANC.BUSOFF_MODE` 0; with 1 only a controller that drains gives up its frame. -/
def MDie.canBusOff (d : MDie) (n lec : Nat) : MDie :=
  match d.canc? n with
  | none => d
  | some (o, c) =>
    if !o.canOn c then d
    else
      let t := d.tick0
      let (c, e) := c.busOff (min lec 6) t
      let d := (d.setCanc n c).post n e
      if o.life = .enabled ∧ o.params.u Par.cancBusoffMode = 1 then d
      else
        let d := if o.params.u Par.cancBusoffMode = 1 then d else (d.faultMark n e.code).1
        match d.canc? n with
        | some (_, c) =>
          let (c, es) := c.endAll none t
          ((d.setCanc n c).postAll n es).cancSettle n t
        | none => d

/-- New counters (R524); a transmit count above 255 is bus off. -/
def MDie.canCounters (d : MDie) (n tec rxc lec t : Nat) : MDie :=
  match d.canc? n with
  | some (o, c) =>
    if 255 < tec ∧ o.canOn c then d.canBusOff n lec
    else
      let (c, e) := c.counters (min tec 255) rxc lec t
      (d.setCanc n c).postAll n e
  | none => d

/-- A frame was accepted (R526, R527, R530, R533). -/
def MDie.canAccept (d : MDie) (n : Nat) (cid dlc : Nat) (data : List Byte) (sof : Nat) : MDie :=
  match d.canc? n with
  | none => d
  | some (o, c) =>
    let r0 : CanRec := { cid := cid % 2 ^ 32, dlc := dlc % 64, rcnt := 0, tag := 0xFFFF, txf := 0, stampNs := sof % 1000000000
                         data := fitBytes (dlcLen dlc) data }
    let (act, mbox, tag) := c.route o.params r0
    let r := { r0 with tag := tag }
    let c := { c with rxCount := (c.rxCount + 1) % 2 ^ 32 }
    let d := d.setCanc n c
    if act = 1 ∨ act = 2 then
      let (c, e, lost) := c.push o.params (act - 1) r d.tick0
      let d := (d.setCanc n c).postAll n e
      if lost then d.orPar n Par.cancFlags 1 else d
    else if act = 3 then
      match d.objects.find? (fun (x : Nat × Obj) => match x.2.data with
        | .canmb m => x.2.life == .enabled && m.ctrl + 10 == n && m.index == mbox
        | _ => false) with
      | some (k, x) => match x.data with
        | .canmb m => d.setData k (.canmb { m with staged := m.staged ++ [(r, sof)] })
        | _ => d
      | none => d.bump n Par.cancMbMiss 0 1
    else d

/-- A frame received from the bus: an FD frame with `CANC.FD_EN` = 0 is none (R521). -/
def MDie.canFrame (d : MDie) (n cid dlc : Nat) (data : List Byte) (sof tec rxc : Nat) : MDie :=
  match d.canc? n with
  | none => d
  | some (o, c) =>
    if !o.canOn c || (bitOf dlc 4 && o.params.u Par.cancFdEn == 0) then d
    else (d.canAccept n cid dlc data sof).canCounters n tec rxc c.lec d.tick0

/-- The buffer whose frame the bus saw from a start of frame on. -/
def Canc.seen (o : Obj) (c : Canc) (sof : Nat) : Option Nat := if o.canOn c && o.params.u Par.cancMode != 1 then c.contender o.params sof else none

/-- An attempt failed: arbitration lost (`lec` 0) or an error (R536, R537). -/
def MDie.canFailed (d : MDie) (n sof lec tec rxc : Nat) : MDie :=
  match d.canc? n with
  | none => d
  | some (o, c) => match c.seen o sof with
    | none => d
    | some i =>
      let (c', e) := c.failed o.params i d.tick0 (o.life == .draining)
      let d := (d.setCanc n c').postAll n e
      (d.canCounters n tec rxc (if lec = 0 then c.lec else lec) d.tick0).cancSettle n d.tick0

/-- A pending frame was sent (R523, R536); in the loopback modes it is received back (R527). A measured delay above 127 clocks ends the
attempt with a bit error instead, of a recessive or a dominant bit. -/
def MDie.canSent (d : MDie) (n sof : Nat) (tdc : Option Nat) (tec rxc : Nat) : MDie :=
  match d.canc? n with
  | none => d
  | some (o, c) => match c.seen o sof with
    | none => d
    | some i => match (c.bufs[i]?).getD none with
      | none => d
      | some b =>
        let tdc := if bitOf (o.params.u Par.cancTdc) 0 && b.fr.fdf && bitOf b.fr.dlc 5 then tdc else none
        if tdc.any (fun x => decide (127 < x)) then
          let (d, k) := d.draw 2
          d.canFailed n sof (4 + k) tec rxc
        else
        let (c', e) := c.sent i sof tdc
        let d := (d.setCanc n c').postAll n e
        let d := if 2 ≤ o.params.u Par.cancMode then d.canAccept n b.fr.cid b.fr.dlc b.fr.data sof else d
        (d.canCounters n tec rxc c.lec d.tick0).cancSettle n d.tick0

/-- An error outside an own attempt. -/
def MDie.canError (d : MDie) (n lec tec rxc : Nat) : MDie :=
  match d.canc? n with
  | some (o, c) => if o.canOn c || (o.life == .enabled && c.st == 3) then d.canCounters n tec rxc lec d.tick0 else d
  | none => d

/-- 128 occurrences of 11 recessive bits (R525). -/
def MDie.canRecovered (d : MDie) (n : Nat) : MDie :=
  match d.canc? n with
  | some (o, c) =>
    if o.life = .enabled ∧ c.st = 2 then
      let (c, e) := c.recovered d.tick0
      (d.setCanc n c).post n e
    else d
  | none => d

/-- 11 recessive bits after enable (R524). -/
def MDie.canIntegrated (d : MDie) (n : Nat) : MDie :=
  match d.canc? n with
  | some (o, c) =>
    if o.life = .enabled ∨ o.life = .draining then
      let (c, e) := c.integrated d.tick0
      (d.setCanc n c).postAll n e
    else d
  | none => d

/-! The frame windows (R531). -/

def MDie.canReadBeat (d : MDie) (k : Nat) : MDie × List Byte :=
  match d.canc? (cancSlot k) with
  | some (_, c) =>
    let (c, b, empty) := c.readBeat
    let d := d.setCanc (cancSlot k) c
    (if empty then d.orPar (cancSlot k) Par.cancFlags 2 else d, b)
  | none => (d, List.replicate 8 0xFF)

/-- One beat written; the tenth submits the record as `CAN_TX` would. -/
def MDie.canWriteBeat (d : MDie) (k : Nat) (b : List Byte) : MDie :=
  let n := cancSlot k
  match d.canc? n with
  | none => d
  | some (o, c) => match c.writeBeat (fitBytes 8 b) with
    | (c, none) => d.setCanc n c
    | (c, some r) =>
      let ok := o.life = .enabled ∧ canTxCheck o.params r = none
      match (if ok then c.submit (CanRec.decode r) d.ns none else none) with
      | some (c, _) => d.setCanc n c
      | none => (d.setCanc n c).orPar n Par.cancFlags 4

end Sys2Proof.Machine
end

