-- ==== Sys2Proof/Machine/DmaDie.lean ====
section
/-! DEFINITION. The DMA engine on the die (R501 … R519), and the bulk packets that reach it (R504). -/

namespace Sys2Proof.Machine

open Sys2Proof

def MDie.setDmac (d : MDie) (n : Nat) (c : Dmac) : MDie := d.setData n (.dmac c)

/-- The lead die's node. -/
def MDie.leadNode (d : MDie) : Nat := d.heldBase % 4096

def MDie.dmaEnv (d : MDie) : DmaEnv :=
  { lead := d.dieIndex = 0, linkUp := d.dieIndex ≠ 0 || d.rm.dlUp, reach := fun n => d.reachable n }

/-- May bytes be reached? Region 0x2 from another die goes through the lead die (R503). -/
def MDie.dmaBad (d : MDie) (a n : Nat) : Option Nat :=
  match dmaAccess d.dmaEnv a n with
  | some c => some c
  | none => if dmaRegion a = 2 ∧ d.dieIndex ≠ 0 ∧ !d.reachable d.leadNode then some 4 else none

/-- Tables of ENABLED cams: address and length (R242). -/
def MDie.camLocked (d : MDie) : List (Nat × Nat) :=
  d.objects.filterMap (fun (x : Nat × Obj) => match x.2.data with
    | .cam c => if x.2.life = .enabled then some (c.addr, c.bytes) else none
    | _ => none)

/-- Count a write that met the table of an ENABLED cam (R242): one per access. -/
def MDie.camRejects (d : MDie) (a n : Nat) : MDie :=
  d.objects.foldl (fun (d : MDie) (x : Nat × Obj) => match x.2.data with
    | .cam c => if x.2.life = .enabled ∧ a < c.addr + c.bytes ∧ c.addr < a + n then d.bump x.1 Par.camWriteRejects 0 1 else d
    | _ => d) d

/-- Store into SRAM, except into the table of an ENABLED cam (R242, R504). -/
def MDie.sramStore (d : MDie) (a : Nat) (b : List Byte) : MDie :=
  let locked := d.camLocked
  if locked.all (fun x => decide (a + b.length ≤ x.1 ∨ x.1 + x.2 ≤ a)) = true then { d with mem := d.mem.write a b }
  else
    (b.zipIdx).foldl (fun (d : MDie) (x : Byte × Nat) =>
      if locked.any (fun y => decide (y.1 ≤ a + x.2 ∧ a + x.2 < y.1 + y.2)) then d
      else { d with mem := d.mem.write (a + x.2) [x.1] }) (d.camRejects a b.length)

/-- The die and node-side address behind an address of region 0x2 or 0x3 from this die. -/
def MDie.bulkTarget (d : MDie) (a : Nat) : Option (Nat × Nat) :=
  if dmaRegion a = 3 then some (bitsOf a 59 48, bitsOf a 22 0)
  else if dmaRegion a = 2 ∧ d.dieIndex ≠ 0 then some (d.leadNode, a)
  else none

def MDie.ownerOf (d : MDie) (n : Nat) : Nat := match d.obj? n with | some o => o.owner.toNat | none => 0xFFFF

/-- Pieces of at most 512 bytes: offset and length. -/
def pieces (n : Nat) : List (Nat × Nat) := (List.range ((n + 511) / 512)).map (fun i => (512 * i, min 512 (n - 512 * i)))

/-- Ask for bytes that lie elsewhere: a read of host memory, or `BULK_READ` packets. -/
def MDie.dmaAsk (d : MDie) (n chan a len : Nat) : MDie :=
  match d.bulkTarget a with
  | some (node, addr) => (pieces len).foldl (fun (d : MDie) (p : Nat × Nat) =>
      d.sendBulk (d.ownerOf n) (d.packetTo 14 node p.2 (BitVec.ofNat 32 chan) (d64 (addr + p.1)))) d
  | none => if dmaRegion a = 2 then d.emit (.hostRead .pcie (bitsOf a 59 0) len) else d

/-- Write bytes at an address, with transmit timestamps where they are requested (R454): answers the acknowledgements owed when they are
asked for. -/
def MDie.dmaPut (d : MDie) (n chan a : Nat) (b : List Byte) (ack ts : Bool) : MDie × Nat :=
  match d.bulkTarget a with
  | some (node, addr) =>
    -- region 0x2 is fenced by a read (R510)
    let ack := ack && dmaRegion a == 3
    ((pieces b.length).foldl (fun (d : MDie) (p : Nat × Nat) =>
      let m := d.packetTo 12 node (if ack then 1 else 0) (BitVec.ofNat 32 chan)
        (d64 (addr + p.1) ++ fitBytes ((p.2 + 7) / 8 * 8) ((b.drop p.1).take p.2))
      d.sendBulk (d.ownerOf n) { m with pkt := { m.pkt with flags := if ts then 1 else 0 } }) d,
     if ack then (pieces b.length).length else 0)
  | none =>
    if dmaRegion a = 2 then (d.hostWrite .pcie (bitsOf a 59 0) b, 0)
    else if dmaRegion a = 4 then
      ((List.range (b.length / 8)).foldl (fun (d : MDie) i => d.canWriteBeat (bitsOf a 12 12) ((b.drop (8 * i)).take 8)) d, 0)
    else (d.sramStore (bitsOf a 22 0) b, 0)

/-! Faults and completion. -/

/-- Write back into a descriptor (R507): bytes 32 … 47, then `CTRL` without `VALID`. -/
def MDie.dmaWriteBack (d : MDie) (n : Nat) (c : Dmac) (status : Nat) : MDie :=
  match c.desc with
  | none => d
  | some x =>
    if !x.wb then d
    else
      let (d, _) := d.dmaPut n c.chan (x.addr + 32) (writeBack status c.moved (c.stamp x d.ns)) false false
      let ctrl := d16 (x.ctrl - x.ctrl % 2)
      -- a bulk packet carries whole groups of 8 bytes
      if (d.bulkTarget x.addr).isSome then (d.dmaPut n c.chan (x.addr + 16) (d32 x.len ++ ctrl ++ d8 (x.blen - 1) ++ [0]) false false).1
      else (d.dmaPut n c.chan (x.addr + 20) ctrl false false).1

/-- A write-back that cannot be made is a bus error of its own (R513). -/
def MDie.dmaWbBad (d : MDie) (c : Dmac) : Option (Nat × Nat) :=
  match c.desc with
  | some x => if x.wb then (d.dmaBad (x.addr + 32) 16).map (fun e => (x.addr + 32, e)) else none
  | none => none

def MDie.dmaFree (d : MDie) (n : Nat) : MDie := if d.dma.busy = some n then { d with dma := { d.dma with busy := none } } else d

/-- A fault of a channel: its flag, its event, and its drain, whose boundary is immediate. -/
def MDie.dmaFault (d : MDie) (n bit : Nat) (c : Dmac) (e : Ev) : MDie :=
  let d := (((d.setDmac n c).dmaFree n).orPar n Par.dmacFlags (2 ^ bit)).faultNow n e d.tick0
  match d.obj? n with
  | some o => if o.life = .draining then d.toIdle n d.tick0 else d
  | none => d

/-- A bus error (R513). -/
def MDie.dmaBusErr (d : MDie) (n addr : Nat) (write : Bool) (kind cause : Nat) : MDie :=
  match d.dmac? n with
  | none => d
  | some (_, c) =>
    let d := if (kind = 1 ∨ kind = 3) ∧ d.dmaWbBad c = none then d.dmaWriteBack n c 2 else d
    let (c, e) := c.busError addr write kind cause d.tick0
    d.dmaFault n 2 c e

/-- Issue the fetch of the descriptor at `cur` (R508). -/
def MDie.dmaIssue (d : MDie) (n : Nat) : MDie :=
  match d.dmac? n with
  | none => d
  | some (_, c) =>
    let c := { c with phase := .fetch c.cur, since := d.upNs, inData := [] }
    if !descPlaceOk c.cur then
      let (c, e) := c.descError d.tick0
      d.dmaFault n 3 c e
    else
      let d := d.setDmac n c
      match d.dmaBad c.cur 48 with
      | some cause => d.dmaBusErr n c.cur false 0 cause
      | none => d.dmaAsk n c.chan c.cur 48

/-- The chain ends (R515): write-back, `CHAIN_ABORTED`, and the boundary of a drain. A write-back that cannot be made is the bus error
that governs. -/
def MDie.dmaEndChain (d : MDie) (n cause : Nat) : MDie :=
  match d.dmac? n with
  | none => d
  | some (_, c) =>
    let running : Bool := match c.phase with | .ready => true | .burst _ => true | .finish => true | _ => false
    match (if running then d.dmaWbBad c else none) with
    | some (a, e) => d.dmaBusErr n a true 2 e
    | none =>
      let d := if running then d.dmaWriteBack n c 1 else d
      let (c, e) := c.aborted cause d.tick0
      let d := ((d.setDmac n c).dmaFree n).postAll n e
      if cause = 2 then d.toIdle n d.tick0 else d

/-- The descriptor running completes (R510). -/
def MDie.dmaComplete (d : MDie) (n : Nat) : MDie :=
  match d.dmac? n with
  | none => d
  | some (_, c) => match c.abort, c.desc with
    | some cause, _ => d.dmaEndChain n cause
    | none, some x => match d.dmaWbBad c with
      | some (a, e) => d.dmaBusErr n a true 2 e
      | none =>
        let d := d.dmaWriteBack n c 0
        let (c, e) := c.complete x d.tick0
        let d := (d.setDmac n c).postAll n e
        match c.phase with
        | .fetch _ => d.dmaIssue n
        | _ => d
    | none, none => d

/-- The level a channel's request has (R511, R512). -/
def MDie.dmaLevel (d : MDie) (ps : Params) : Bool :=
  match d.find (ps.h Par.dmacReqObj) with
  | some (_, o) => match o.data with
    | .canc c => if ps.u Par.dmacReqSrc = 3 then c.rxWaiting else decide (0 < c.txFree)
    | _ => false
  | none => false

/-- Longest part of a burst of `n` bytes whose accesses can be made, with the failing address and cause. -/
def MDie.dmaGood (d : MDie) (c : Dmac) (x : Desc) (n : Nat) : Nat × Option (Nat × Bool × Nat) :=
  let w := max x.srcW x.dstW
  let k (i : Nat) : Nat := c.moved + w * i
  let bad (i : Nat) : Option (Nat × Bool × Nat) :=
    let s := dmaAddr x.src x.srcInc x.srcW (k i)
    let t := dmaAddr x.dst x.dstInc x.dstW (k i)
    match (if windowOk x.src false x.srcInc x.srcW x.blen then d.dmaBad s w else some 2) with
    | some e => some (s, false, e)
    | none => match (if dmaRegion s = 0 then d.mem.badIn 0 (bitsOf s 22 0) w else none) with
      | some _ => some (s, false, 2)
      | none => match (if windowOk x.dst true x.dstInc x.dstW x.blen then d.dmaBad t w else some 2) with
        | some e => some (t, true, e)
        | none => none
  match (List.range ((n + w - 1) / w)).findSome? (fun i => (bad i).map (fun e => (i, e))) with
  | some (i, e) => (w * i, some e)
  | none => (n, none)

/-- A burst starts (R502, R512). -/
def MDie.dmaBegin (d : MDie) (n : Nat) : MDie :=
  match d.dmac? n with
  | none => d
  | some (o, c) => match c.desc with
    | none => d
    | some x =>
      let c := { c.begin o.params with since := d.upNs }
      let len := c.burstLen x
      let d := { d.setDmac n c with dma := ⟨some n, d.dma.last.set (o.params.u Par.dmacPrio) c.chan⟩ }
      match d.dmaGood c x len with
      | (0, some (a, w, e)) => d.dmaBusErr n a w 1 e
      | (m, _) => d.dmaAsk n c.chan (dmaAddr x.src x.srcInc x.srcW c.moved) m

/-- The engine, when it is free, starts the burst that wins (R502). -/
def MDie.dmaKick (d : MDie) : MDie :=
  if d.dma.busy.isSome then d
  else
    let cs := d.objects.filterMap (fun (x : Nat × Obj) => match x.2.data with
      | .dmac c => if x.2.life = .enabled && c.wants x.2.params (d.dmaLevel x.2.params) then some (x.1, c.chan, x.2.params.u Par.dmacPrio) else none
      | _ => none)
    match dmaWinner cs d.dma.last with
    | some (n, _, _) => d.dmaBegin n
    | none => d

/-- Bytes of the burst in progress from its source (R503, R506, R531). -/
def MDie.dmaData (d : MDie) (c : Dmac) (x : Desc) (n : Nat) (host : List Byte) : MDie × List Byte :=
  let s := dmaAddr x.src x.srcInc x.srcW c.moved
  if dmaRegion x.src = 4 then
    (List.range (n / 8)).foldl (fun (r : MDie × List Byte) _ =>
      let (d, b) := r.1.canReadBeat (bitsOf x.src 12 12)
      (d, r.2 ++ b)) (d, [])
  else if dmaRegion x.src = 0 then
    if x.srcInc then (d, d.mem.sram.readN (bitsOf s 22 0) n)
    else (d, (List.range n).map (fun i => d.mem.sram.read (bitsOf (dmaAddr x.src false x.srcW (c.moved + i)) 22 0)))
  else if (d.bulkTarget x.src).isSome then (d, fitBytes n c.inData)
  else (d, fitBytes n host)

/-- When the descriptor's first timestamped frame left its port (R454, R507). -/
def MDie.dmaSent (d : MDie) (n : Nat) : Option Nat := match d.dmac? n with | some (_, c) => c.sentAt | none => none

/-- Does the burst or fetch in progress wait for `BULK_DATA` that is not there? -/
def MDie.dmaAwaits (d : MDie) (c : Dmac) (a n : Nat) : Bool := (d.bulkTarget a).isSome && decide (c.inData.length < n)

/-- The acknowledgement that a fence in region 0x2 waits for is asked for: a read of the last address written (R510). Another die than the
lead die reads by `BULK_READ`, whose answer it counts. -/
def MDie.dmaFenceRead (d : MDie) (n : Nat) (c : Dmac) (x : Desc) : MDie :=
  if x.fence && dmaRegion x.dst == 2 && c.moved != 0 then
    let d := d.setDmac n { c with phase := .finish, inData := [], acks := if d.dieIndex = 0 then c.acks else c.acks + 1, since := d.upNs }
    d.dmaAsk n c.chan (dmaAddr x.dst x.dstInc x.dstW (c.moved - x.dstW)) x.dstW
  else d

/-- The burst in progress ends (R506, R510, R515). `host` are bytes that host memory answered. -/
def MDie.dmaBurstEnd (d : MDie) (n : Nat) (host : List Byte) : MDie :=
  match d.dmac? n with
  | none => d
  | some (_, c) => match c.phase, c.desc with
    | .burst len, some x =>
      let (m, err) := d.dmaGood c x len
      if d.dmaAwaits c x.src m then d
      else
        let (d, b) := d.dmaData c x m host
        let t := dmaAddr x.dst x.dstInc x.dstW c.moved
        let (d, acks) :=
          if x.dstInc ∨ dmaRegion x.dst = 4 then d.dmaPut n c.chan t b x.fence x.tsReq
          else ((List.range (m / x.dstW)).foldl (fun (r : MDie × Nat) i =>
            let (d, a) := r.1.dmaPut n c.chan x.dst ((b.drop (x.dstW * i)).take x.dstW) x.fence x.tsReq
            (d, r.2 + a)) (d, 0))
        let c := { c.burstDone m with acks := c.acks + acks, sentAt := d.dmaSent n, since := d.upNs }
        let d := (d.setDmac n c).dmaFree n
        match err with
        | some (a, w, e) => d.dmaBusErr n a w 1 e
        | none =>
          match c.abort with
          | some cause =>
            if x.fence && (c.acks != 0 || dmaRegion x.dst == 2) then (d.setDmac n { c with phase := .finish }).dmaFenceRead n c x
            else d.dmaEndChain n cause
          | none => if c.phase = .finish then d.dmaFenceRead n c x else d
    | _, _ => d

/-- A descriptor fetch completes (R508, R509, R514). -/
def MDie.dmaFetchEnd (d : MDie) (n : Nat) (host : List Byte) : MDie :=
  match d.dmac? n with
  | none => d
  | some (o, c) => match c.phase with
    | .fetch a =>
      if d.dmaAwaits c a 48 then d
      else if dmaRegion a = 0 ∧ (d.mem.badIn 0 (bitsOf a 22 0) 48).isSome then d.dmaBusErr n a false 0 2
      else
        let b := if dmaRegion a = 0 then d.mem.sram.readN (bitsOf a 22 0) 48 else if (d.bulkTarget a).isSome then c.inData else fitBytes 48 host
        let (c, r) := c.fetched o.params b d.tick0
        match r with
        | .waiting => (d.setDmac n c).post n (report Evt.chainWait d.tick0 (d64 c.cur))
        | .fault e bit wb =>
          let d := if wb then d.dmaWriteBack n c 3 else d
          d.dmaFault n bit c e
        | .run =>
          let d := d.setDmac n c
          match c.phase with
          | .finish => d.dmaComplete n
          | _ => d
    | _ => d

/-- The last write of a descriptor has left the engine, or what it waited for has come (R510). -/
def MDie.dmaDescEnd (d : MDie) (n : Nat) : MDie :=
  match d.dmac? n with
  | some (_, c) => if c.phase = .finish ∧ c.acks = 0 then d.dmaComplete n else d
  | none => d

/-- An error answer to the access in progress (R513). -/
def MDie.dmaErrorAnswer (d : MDie) (n cause : Nat) : MDie :=
  match d.dmac? n with
  | none => d
  | some (_, c) => match c.phase, c.desc with
    | .fetch a, _ => d.dmaBusErr n a false 0 cause
    | .burst _, some x =>
      let ask : Bool := (d.bulkTarget x.src).isSome || dmaRegion x.src == 2
      if ask then d.dmaBusErr n (dmaAddr x.src x.srcInc x.srcW c.moved) false 1 cause
      else d.dmaBusErr n (dmaAddr x.dst x.dstInc x.dstW c.moved) true 1 cause
    | .finish, some x =>
      if x.fence then d.dmaBusErr n (dmaAddr x.dst x.dstInc x.dstW (c.moved - x.dstW)) true 3 cause else d
    | .ready, some x =>
      if 0 < c.acks then d.dmaBusErr n (dmaAddr x.dst x.dstInc x.dstW (c.moved - x.dstW)) true 1 cause else d
    | _, _ => d

/-- Does the channel wait for an answer from outside the die? -/
def MDie.dmaOutside (d : MDie) (c : Dmac) : Bool :=
  match c.phase, c.desc with
  | .fetch a, _ => dmaRegion a != 0
  | .burst _, some x => (d.bulkTarget x.src).isSome || dmaRegion x.src == 2
  | .finish, some x => x.fence && (decide (0 < c.acks) || dmaRegion x.dst == 2)
  | _, _ => false

/-- No answer within `DMAC.BUS_TIMEOUT` (R513). -/
def MDie.dmaTimeout (d : MDie) (n : Nat) : MDie :=
  match d.dmac? n with
  | none => d
  | some (o, c) =>
    if d.dmaOutside c ∧ c.since + o.params.u Par.dmacBusTimeout * 1000 ≤ d.upNs then d.dmaErrorAnswer n 1 else d

/-- A request pulse (R512). -/
def MDie.dmaPulse (d : MDie) (n : Nat) : MDie :=
  match d.dmac? n with
  | none => d
  | some (o, c) =>
    let s := o.params.u Par.dmacReqSrc
    if o.life = .enabled ∧ (s = 1 ∨ s = 2 ∨ s = 5) then
      let (c, e, lost) := c.pulse d.tick0
      let d := (d.setDmac n c).postAll n e
      if lost then d.orPar n Par.dmacFlags 1 else d
    else d

/-- Pulses of a PWM group's trigger outputs (R348, R511). -/
def MDie.dmaTrigger (d : MDie) (grp trig : Nat) : MDie :=
  (d.slotsOf .dmac).foldl (fun (d : MDie) n => match d.dmac? n with
    | some (o, _) => if o.params.u Par.dmacReqSrc = trig + 1 ∧ o.params.h Par.dmacReqObj = d.handle grp then d.dmaPulse n else d
    | none => d) d

/-- Pulses at the start of a sample tick (R511), timeouts, and the engine. -/
def MDie.dmaTick (d : MDie) (t : Nat) : MDie :=
  let d := (d.slotsOf .dmac).foldl (fun (d : MDie) n => match d.dmac? n with
    | some (o, _) =>
      let d := d.dmaTimeout n
      if o.params.u Par.dmacReqSrc = 5 ∧ t % classPeriod (o.params.u Par.dmacReqObj) = 0 then d.dmaPulse n else d
    | none => d) d
  d.dmaKick

/-! The object (R501, R511, R515, R517, R518). -/

def MDie.dmacTaken (d : MDie) : List Nat :=
  d.objects.filterMap (fun (x : Nat × Obj) => match x.2.data with | .dmac c => some c.chan | _ => none)

/-- Channel of a create word. -/
def MDie.dmacChan (d : MDie) (word : Nat) : Option Nat :=
  let t := d.dmacTaken
  if word < 16 then (if t.contains word then none else some word) else (List.range 16).find? (fun k => !t.contains k)

def MDie.dmacCreateBad (d : MDie) (word : Nat) : Bad :=
  firstBad [badIf (decide (32 ≤ word)) 8 .badParam, badIf (decide (17 ≤ word)) 9 .outOfRange, badIf (d.dmacChan word).isNone 11 .noResource]

def dmacPar (id : Nat) (v : U64) : Bad :=
  if id = Par.dmacReqObj then badIf (decide (4 < v.toNat) && (classOfCode (hClass (v.setWidth 32))).isNone) 9 .outOfRange else none

def MDie.dmacEnableBad (d : MDie) (o : Obj) : Bad :=
  let s := o.params.u Par.dmacReqSrc
  let h := o.params.h Par.dmacReqObj
  let is (k : Class) : Bool := match d.find h with | some (_, x) => x.cls == k | none => false
  badIf (if s = 1 ∨ s = 2 then !is .pwmg else if s = 3 ∨ s = 4 then !is .canc else if s = 5 then decide (4 < h.toNat) else false) 10 .wrongState

def MDie.dmacEnableDo (d : MDie) (n : Nat) : MDie :=
  match d.dmac? n with
  | some (_, c) => d.setDmac n c.enable
  | none => d

/-- Entry to DRAINING and `DMA_ABORT` (R515). -/
def MDie.dmaStop (d : MDie) (n cause : Nat) : MDie :=
  match d.dmac? n with
  | none => d
  | some (_, c) =>
    let fenced : Bool := match c.desc with
      | some x => x.fence && (decide (0 < c.acks) || (c.phase == .finish && dmaRegion x.dst == 2))
      | none => false
    match c.phase with
    | .idle => if cause = 2 then d.toIdle n d.tick0 else d
    | .burst _ => d.setDmac n { c with abort := some cause, pending := 0 }
    | .ready => if fenced then d.setDmac n { c with abort := some cause, pending := 0, phase := .finish } else d.dmaEndChain n cause
    | .finish => if fenced then d.setDmac n { c with abort := some cause, pending := 0 } else d.dmaEndChain n cause
    | _ => d.dmaEndChain n cause

def MDie.dmaOpBad (op : Op) (o : Obj) (c : Dmac) (b : List Byte) : Bad :=
  match op with
  | .dmaStart => firstBad [badIf (!descPlaceOk (rdU b 0 8)) 8 .badParam, needEnabled o, badIf (c.phase != .idle) 10 .busy]
  | .dmaResume => firstBad [needEnabled o, badIf (c.phase != .wait) 10 .wrongState]
  | .dmaAbort => needEnabled o
  | _ => none

def MDie.dmaDo (d : MDie) (op : Op) (n : Nat) (b : List Byte) : MDie × Result :=
  match d.dmac? n with
  | none => (d, noResult)
  | some (o, c) =>
    if o.life ≠ .enabled then (d, noResult)
    else match op with
      | .dmaStart => if c.phase = .idle then ((d.setDmac n (c.start (rdU b 0 8))).dmaIssue n, noResult) else (d, noResult)
      | .dmaResume => if c.phase = .wait then (d.dmaIssue n, noResult) else (d, noResult)
      | .dmaAbort => (d.dmaStop n 1, ⟨BitVec.ofNat 64 c.moved, 0⟩)
      | _ => (d, noResult)

def dmacRead (c : Dmac) (id : Nat) : Option Int :=
  if id = Par.dmacChannel then some c.chan
  else if id = Par.dmacState then some c.state
  else if id = Par.dmacCurDesc then some c.cur
  else if id = Par.dmacRemain then some c.remain
  else if id = Par.dmacDescCount then some c.descCount
  else if id = Par.dmacBytes then some c.bytes
  else if id = Par.dmacPending then some c.pending
  else if id = Par.dmacErrAddr then some c.errAddr
  else if id = Par.dmacErrInfo then some c.errInfo
  else none

/-! Bulk packets for this die (R463, R504). -/

/-- May a bulk packet from a node reach the address? -/
def MDie.bulkOk (d : MDie) (src a n : Nat) : Bool :=
  if dmaRegion a = 0 then bitsOf a 59 23 == 0 && dmaSramOk (d.dieIndex == 0) (bitsOf a 22 0) n
  else dmaRegion a == 2 && d.dieIndex == 0 && d.rm.dlUp && decide (d.fab.node ≠ 0xFFFF ∧ d.fab.node ≤ src ∧ src < d.fab.node + d.nDies)

def MDie.takeBulkWrite (d : MDie) (m : FabMsg) : MDie :=
  let a := rdU m.pkt.payload 0 8
  let b := m.pkt.payload.drop 8
  if !d.bulkOk m.pkt.src a b.length then d.emit (.bulkError m.pkt.src m.pkt.xaux.toNat)
  else
    let d := if dmaRegion a = 2 then d.hostWrite .pcie (bitsOf a 59 0) b else d.sramStore (bitsOf a 22 0) b
    if bitOf m.pkt.xtag 0 then d.send (d.packetTo 13 m.pkt.src 0 m.pkt.xaux []) else d

/-- `BULK_READ`: `host` are bytes that host memory answered. -/
def MDie.takeBulkRead (d : MDie) (m : FabMsg) (host : List Byte) : MDie :=
  let a := rdU m.pkt.payload 0 8
  let n := m.pkt.xtag
  if 512 < n ∨ !d.bulkOk m.pkt.src a n ∨ (dmaRegion a = 0 ∧ (d.mem.badIn 0 (bitsOf a 22 0) n).isSome) then
    d.emit (.bulkError m.pkt.src m.pkt.xaux.toNat)
  else
    let b := if dmaRegion a = 2 then fitBytes n host else d.mem.sram.readN (bitsOf a 22 0) n
    d.send (d.packetTo 15 m.pkt.src 0 m.pkt.xaux (fitBytes ((n + 7) / 8 * 8) b))

/-- The channel a transfer tag names. -/
def MDie.dmaOfTag (d : MDie) (tag : U32) : Option (Nat × Dmac) :=
  (d.slotsOf .dmac).findSome? (fun n => match d.dmac? n with
    | some (_, c) => if c.chan = tag.toNat then some (n, c) else none
    | none => none)

/-- `BULK_ACK`: with the last one owed the descriptor completes (R510), or the chain ends (R515). -/
def MDie.takeBulkAck (d : MDie) (m : FabMsg) : MDie :=
  match d.dmaOfTag m.pkt.xaux with
  | some (n, c) =>
    if c.acks = 0 then d
    else
      let c := { c with acks := c.acks - 1 }
      let d := d.setDmac n c
      if c.acks = 0 ∧ c.phase = .finish then d.dmaComplete n else d
  | none => d

def MDie.takeBulkData (d : MDie) (m : FabMsg) : MDie :=
  match d.dmaOfTag m.pkt.xaux with
  | some (n, c) => match c.phase with
    | .fetch _ => d.setDmac n { c with inData := c.inData ++ m.pkt.payload }
    | .burst _ => d.setDmac n { c with inData := c.inData ++ m.pkt.payload }
    | .finish =>
      if c.acks = 0 then d
      else
        let d := d.setDmac n { c with acks := c.acks - 1 }
        if c.acks = 1 then d.dmaComplete n else d
    | _ => d
  | none => d

end Sys2Proof.Machine
end

