-- ==== Sys2Proof/Machine/OpTable.lean ====
section
/-! DEFINITION. The opcode tables of the manual: code, target classes, body length (R68), reserved body fields, which replies
are written when the tick has begun (R74), which opcodes take no `TASK` flag. -/

namespace Sys2Proof.Machine

open Sys2Proof

/-- How the length of a body follows (R68): fixed; a count N at an offset, base and entry size; a byte count k at an offset after
8 bytes; a pair mask (R361); a data length code (R535). -/
inductive BodyLen where
  | fixed (n : Nat)
  | count (off size base each : Nat)
  | bytes (off : Nat)
  | pairs
  | can
  deriving DecidableEq, Repr

/-- A row: opcode, classes of target (empty: any), body. -/
structure OpRow where
  code : Nat
  classes : List Class
  body : BodyLen

/-- The opcode tables. -/
def opRow : Op → OpRow
  | .nop => ⟨0x0000, [.system], .fixed 0⟩
  | .objectCreate => ⟨0x1001, [.system], .count 2 2 8 16⟩
  | .objectDestroy => ⟨0x1002, [], .fixed 0⟩
  | .objectEnable => ⟨0x1003, [], .fixed 0⟩
  | .objectDisable => ⟨0x1004, [], .fixed 0⟩
  | .paramGet => ⟨0x1005, [], .fixed 8⟩
  | .paramSet => ⟨0x1006, [], .fixed 16⟩
  | .paramSetMulti => ⟨0x1007, [], .count 0 2 8 16⟩
  | .taskCancel => ⟨0x2001, [.task], .fixed 8⟩
  | .taskSignal => ⟨0x2002, [.task], .fixed 8⟩
  | .taskWait => ⟨0x2003, [], .fixed 0⟩
  | .taskCancelAll => ⟨0x2004, [.system], .fixed 8⟩
  | .fbkSetState => ⟨0x3001, [.fbk], .fixed 8⟩
  | .fbkSetPos => ⟨0x3002, [.fbk], .fixed 16⟩
  | .fbkRefIndex => ⟨0x3003, [.fbk], .fixed 16⟩
  | .fbkRefCancel => ⟨0x3004, [.fbk], .fixed 0⟩
  | .fbkGetSample => ⟨0x3005, [.fbk], .fixed 0⟩
  | .moveAbs => ⟨0x4010, [.axis], .fixed 16⟩
  | .moveRel => ⟨0x4011, [.axis], .fixed 16⟩
  | .moveVel => ⟨0x4012, [.axis], .fixed 8⟩
  | .moveHold => ⟨0x4013, [.axis], .fixed 0⟩
  | .stop => ⟨0x4014, [.axis, .path], .fixed 0⟩
  | .stopQuick => ⟨0x4015, [.axis, .path], .fixed 0⟩
  | .axisGetSample => ⟨0x4016, [.axis], .fixed 0⟩
  | .pathLine => ⟨0x4030, [.path], .fixed 80⟩
  | .pathArc => ⟨0x4031, [.path], .fixed 96⟩
  | .pathFlush => ⟨0x4032, [.path], .fixed 0⟩
  | .gearRatio => ⟨0x5001, [.gear], .fixed 32⟩
  | .gearCamSwitch => ⟨0x5002, [.gear], .fixed 8⟩
  | .gearShift => ⟨0x5003, [.gear], .fixed 24⟩
  | .evtArm => ⟨0x5020, [.evt], .fixed 24⟩
  | .evtDisarm => ⟨0x5021, [.evt], .fixed 0⟩
  | .captArm => ⟨0x5030, [.capt], .fixed 0⟩
  | .lclkArm => ⟨0x5040, [.lclk], .fixed 16⟩
  | .lclkReg => ⟨0x5041, [.lclk], .fixed 16⟩
  | .lgrpCoefWrite => ⟨0x6001, [.lgrp], .bytes 2⟩
  | .lgrpBankSwap => ⟨0x6002, [.lgrp], .fixed 0⟩
  | .lgrpResetState => ⟨0x6003, [.lgrp], .fixed 8⟩
  | .lgrpTakeFlags => ⟨0x6004, [.lgrp], .fixed 0⟩
  | .lgrpStepWrite => ⟨0x6010, [.lgrp], .bytes 2⟩
  | .lgrpStepRead => ⟨0x6011, [.lgrp], .fixed 8⟩
  | .traceArm => ⟨0x6020, [.trace], .fixed 0⟩
  | .traceStop => ⟨0x6021, [.trace], .fixed 0⟩
  | .traceRead => ⟨0x6022, [.trace], .fixed 8⟩
  | .pwmWrite => ⟨0x7001, [.pwmg], .pairs⟩
  | .pwmLoadAll => ⟨0x7002, [.pwmg], .fixed 0⟩
  | .pwmForce => ⟨0x7003, [.pwmg], .fixed 8⟩
  | .dlaneStageReset => ⟨0x7040, [.dlane], .fixed 8⟩
  | .dlaneGetUplink => ⟨0x7041, [.dlane], .fixed 8⟩
  | .fioWriteMask => ⟨0x8001, [.system], .fixed 8⟩
  | .fioReset => ⟨0x8002, [.fio], .fixed 0⟩
  | .fioReadAll => ⟨0x8003, [.system], .fixed 0⟩
  | .safeReadLog => ⟨0x9001, [.safe], .fixed 8⟩
  | .fabricCommit => ⟨0xA001, [.system], .fixed 8⟩
  | .portRetrain => ⟨0xA002, [.port], .fixed 0⟩
  | .fabricRouteGet => ⟨0xA003, [.system], .fixed 8⟩
  | .timeAcceptStep => ⟨0xB001, [.time], .fixed 8⟩
  | .timeSet => ⟨0xB002, [.time], .fixed 8⟩
  | .timeGet => ⟨0xB003, [.time], .fixed 0⟩
  | .dmaStart => ⟨0xC001, [.dmac], .fixed 8⟩
  | .dmaResume => ⟨0xC002, [.dmac], .fixed 0⟩
  | .dmaAbort => ⟨0xC003, [.dmac], .fixed 0⟩
  | .canTx => ⟨0xD001, [.canc], .can⟩
  | .canTxCancel => ⟨0xD002, [.canc], .fixed 8⟩
  | .canFiltSwitch => ⟨0xD003, [.canc], .fixed 8⟩
  | .canmbRead => ⟨0xD010, [.canmb], .fixed 8⟩
  | .profWrite => ⟨0xE001, [.prof], .bytes 4⟩
  | .profCommit => ⟨0xE002, [.prof], .fixed 0⟩
  | .profErase => ⟨0xE003, [.prof], .fixed 0⟩
  | .profSelectNext => ⟨0xE004, [.prof], .fixed 0⟩
  | .journalSync => ⟨0xE010, [.system], .fixed 0⟩
  | .journalClear => ⟨0xE011, [.system], .fixed 8⟩
  | .memClaim => ⟨0xE020, [.system], .fixed 8⟩
  | .memRelease => ⟨0xE021, [.system], .fixed 8⟩
  | .memWrite => ⟨0xE022, [.system], .bytes 4⟩
  | .memRead => ⟨0xE023, [.system], .fixed 8⟩
  | .fwWrite => ⟨0xE030, [.system], .bytes 4⟩
  | .fwVerify => ⟨0xE031, [.system], .fixed 0⟩
  | .fwActivate => ⟨0xE032, [.system], .fixed 8⟩
  | .lcChallenge => ⟨0xE040, [.system], .fixed 0⟩
  | .lcAdvance => ⟨0xE041, [.system], .fixed 72⟩
  | .sysReset => ⟨0x0001, [.system], .fixed 8⟩
  | .sysIdentify => ⟨0x0002, [.system], .fixed 0⟩
  | .dbgHalt => ⟨0xF001, [.system], .fixed 8⟩
  | .dbgResume => ⟨0xF002, [.system], .fixed 8⟩
  | .dbgStep => ⟨0xF003, [.system], .fixed 8⟩
  | .dbgCtxRead => ⟨0xF004, [.system], .fixed 8⟩

/-- The opcode of a packet. -/
def Op.code (o : Op) : Nat := (opRow o).code

/-- Every opcode. -/
def allOps : List Op := [
  .nop, .objectCreate, .objectDestroy, .objectEnable, .objectDisable, .paramGet, .paramSet, .paramSetMulti,
  .taskCancel, .taskSignal, .taskWait, .taskCancelAll, .fbkSetState, .fbkSetPos, .fbkRefIndex, .fbkRefCancel,
  .fbkGetSample, .moveAbs, .moveRel, .moveVel, .moveHold, .stop, .stopQuick, .axisGetSample,
  .pathLine, .pathArc, .pathFlush, .gearRatio, .gearCamSwitch, .gearShift, .evtArm, .evtDisarm,
  .captArm, .lclkArm, .lclkReg, .lgrpCoefWrite, .lgrpBankSwap, .lgrpResetState, .lgrpTakeFlags, .lgrpStepWrite,
  .lgrpStepRead, .traceArm, .traceStop, .traceRead, .pwmWrite, .pwmLoadAll, .pwmForce, .dlaneStageReset,
  .dlaneGetUplink, .fioWriteMask, .fioReset, .fioReadAll, .safeReadLog, .fabricCommit, .portRetrain, .fabricRouteGet,
  .timeAcceptStep, .timeSet, .timeGet, .dmaStart, .dmaResume, .dmaAbort, .canTx, .canTxCancel,
  .canFiltSwitch, .canmbRead, .profWrite, .profCommit, .profErase, .profSelectNext, .journalSync, .journalClear,
  .memClaim, .memRelease, .memWrite, .memRead, .fwWrite, .fwVerify, .fwActivate, .lcChallenge,
  .lcAdvance, .sysReset, .sysIdentify, .dbgHalt, .dbgResume, .dbgStep, .dbgCtxRead]

/-- The opcode a code names. -/
def opOfCode (c : Nat) : Option Op := allOps.find? (fun o => o.code == c)

/-- Set bits of a 16-bit mask. -/
def popcount16 (m : Nat) : Nat := ((List.range 16).filter (fun i => m.testBit i)).length

/-- Does the body have the length its opcode gives it (R68)? -/
def bodyLenOk (l : BodyLen) (b : List Byte) : Bool :=
  match l with
  | .fixed n => b.length = n
  | .count off size base each => decide (off + size ≤ b.length) && b.length = base + each * rdU b off size
  | .bytes off => decide (off + 2 ≤ b.length) && rdU b off 2 % 8 = 0 && b.length = 8 + rdU b off 2
  | .pairs => decide (2 ≤ b.length) && b.length = 8 + 8 * popcount16 (rdU b 0 2)
  | .can =>
    let dlc := rdU b 4 1
    let d := dlc % 16
    let n := if d ≤ 8 then d else if bitOf dlc 4 then [12, 16, 20, 24, 32, 48, 64].getD (d - 9) 8 else 8
    decide (5 ≤ b.length) && b.length = 16 + (n + 7) / 8 * 8

/-- Reserved bits of a body, by byte. Bytes 1 … 7 of `TASK_SIGNAL`, which R120 gives no meaning, count as reserved (DESIGN CHOICE, log 142). -/
def reservedBits : Op → List (Nat × Nat)
  | .objectCreate => [(1, 255)]
  | .paramGet => [(4, 255), (5, 255), (6, 255), (7, 255)]
  | .paramSet => [(4, 255), (5, 255), (6, 255), (7, 255)]
  | .paramSetMulti => [(2, 255), (3, 255), (4, 255), (5, 255), (6, 255), (7, 255)]
  | .taskCancel => [(0, 254), (1, 255), (2, 255), (3, 255), (4, 255), (5, 255), (6, 255), (7, 255)]
  | .taskSignal => [(1, 255), (2, 255), (3, 255), (4, 255), (5, 255), (6, 255), (7, 255)]
  | .taskCancelAll => [(2, 255), (3, 255), (4, 255), (5, 255), (6, 255), (7, 255)]
  | .fbkSetState => [(1, 255), (2, 255), (3, 255), (4, 255), (5, 255), (6, 255), (7, 255)]
  | .fbkSetPos => [(12, 255), (13, 255), (14, 255), (15, 255)]
  | .fbkRefIndex => [(9, 255), (10, 255), (11, 255), (12, 255), (13, 255), (14, 255), (15, 255)]
  | .moveAbs => [(12, 255), (13, 255), (14, 255), (15, 255)]
  | .moveRel => [(12, 255), (13, 255), (14, 255), (15, 255)]
  | .pathLine => [(2, 254), (3, 255), (4, 255), (5, 255), (6, 255), (7, 255)]
  | .pathArc => [(2, 252), (3, 136), (5, 255), (6, 255), (7, 255)]
  | .gearRatio => [(24, 248), (25, 255), (26, 255), (27, 255), (28, 255), (29, 255), (30, 255), (31, 255)]
  | .gearCamSwitch => [(4, 255), (5, 255), (6, 255), (7, 255)]
  | .gearShift => [(12, 255), (13, 255), (14, 255), (15, 255)]
  | .lgrpCoefWrite => [(1, 255)]
  | .lgrpResetState => [(0, 248), (1, 255), (2, 255), (3, 255), (4, 255), (5, 255), (6, 255), (7, 255)]
  | .lgrpStepWrite => [(1, 255)]
  | .lgrpStepRead => [(1, 255), (4, 255), (5, 255), (6, 255), (7, 255)]
  | .traceRead => [(6, 255), (7, 255)]
  | .pwmWrite => [(2, 252), (3, 255), (6, 255), (7, 255)]
  | .pwmForce => [(3, 254), (4, 255), (5, 255), (6, 255), (7, 255)]
  | .dlaneStageReset => [(1, 255), (2, 255), (3, 255), (4, 255), (5, 255), (6, 255), (7, 255)]
  | .dlaneGetUplink => [(1, 255), (2, 255), (3, 255), (4, 255), (5, 255), (6, 255), (7, 255)]
  | .safeReadLog => [(4, 255), (5, 255), (6, 255), (7, 255)]
  | .fabricCommit => [(1, 255), (2, 255), (3, 255), (4, 255), (5, 255), (6, 255), (7, 255)]
  | .fabricRouteGet => [(2, 255), (3, 255), (4, 255), (5, 255), (6, 255), (7, 255)]
  | .timeAcceptStep => [(2, 255), (3, 255), (4, 255), (5, 255), (6, 255), (7, 255)]
  | .canTxCancel => [(1, 255), (2, 255), (3, 255), (4, 255), (5, 255), (6, 255), (7, 255)]
  | .canFiltSwitch => [(6, 255), (7, 255)]
  | .canmbRead => [(1, 254), (2, 255), (3, 255), (4, 255), (5, 255), (6, 255), (7, 255)]
  | .profWrite => [(6, 255), (7, 255)]
  | .journalClear => [(1, 255), (2, 255), (3, 255), (4, 255), (5, 255), (6, 255), (7, 255)]
  | .memClaim => [(1, 255), (2, 255), (3, 255), (4, 255), (5, 255), (6, 255), (7, 255)]
  | .memRelease => [(1, 255), (2, 255), (3, 255), (4, 255), (5, 255), (6, 255), (7, 255)]
  | .memWrite => [(6, 255), (7, 255)]
  | .memRead => [(4, 255), (5, 255), (6, 255), (7, 255)]
  | .fwWrite => [(6, 255), (7, 255)]
  | .fwActivate => [(1, 255), (2, 255), (3, 255), (4, 255), (5, 255), (6, 255), (7, 255)]
  | .lcAdvance => [(1, 255), (2, 255), (3, 255), (4, 255), (5, 255), (6, 255), (7, 255)]
  | .sysReset => [(1, 255), (2, 255), (3, 255), (4, 255), (5, 255), (6, 255), (7, 255)]
  | .dbgHalt => [(1, 255), (2, 255), (3, 255), (4, 255), (5, 255), (6, 255), (7, 255)]
  | .dbgResume => [(1, 255), (2, 255), (3, 255), (4, 255), (5, 255), (6, 255), (7, 255)]
  | .dbgStep => [(3, 255)]
  | .dbgCtxRead => [(4, 255), (5, 255), (6, 255), (7, 255)]
  | _ => []

/-- Are the reserved fields of a body zero (check 8 of R70)? -/
def reservedOk (o : Op) (b : List Byte) : Bool := (reservedBits o).all (fun r => rdU b r.1 1 &&& r.2 = 0)

/-- Opcodes whose reply is written when the tick has begun (R74). -/
def lateReply : Op → Bool
  | .paramGet | .fbkGetSample | .axisGetSample | .lgrpTakeFlags | .dlaneGetUplink | .fioReadAll | .safeReadLog | .fabricRouteGet | .timeGet | .canmbRead | .memRead | .sysIdentify | .dbgCtxRead => true
  | _ => false

/-- Does the opcode accept the `TASK` flag (R572, R598)? -/
def takesTask : Op → Bool
  | .lcChallenge | .lcAdvance | .dbgHalt | .dbgResume | .dbgStep | .dbgCtxRead => false
  | _ => true

end Sys2Proof.Machine
end

