-- ==== Sys2Proof/Machine/RetainDie.lean ====
section
/-! DEFINITION. Memories, Almanac, journal, firmware banks and life cycle on the die (R543 … R573). -/

namespace Sys2Proof.Machine

open Sys2Proof

def MDie.setJournal (d : MDie) (j : Journal) : MDie := { d with mram := { d.mram with journal := j } }

/-! Records (R555, R556). -/

/-- A record about the object in a slot. -/
def MDie.jObj (d : MDie) (rtype n : Nat) (o : Obj) : JRec :=
  let g := match d.slot? n with | some s => s.gen | none => 0
  { jrec rtype with cls := o.cls.code, slot := n, gen := g }

/-- Is the class recorded? -/
def journalled (c : Class) : Bool := c != .queue && c != .task

def MDie.jCreate (d : MDie) (n : Nat) (o : Obj) : JRec :=
  { d.jObj 1 n o with client := o.owner.toNat, cword := o.word.toNat, tsCharge := o.charged == clientTurnstile }

def MDie.jParam (d : MDie) (n : Nat) (o : Obj) (id ix : Nat) (v : U64) : JRec := { d.jObj 2 n o with pid := id, pidx := ix, value := v }

/-- Is the parameter K-coded? -/
def isKept (id : Nat) : Bool := match paramRow? id with | some r => r.init == .kept | none => false

/-- The records of a command that took effect. -/
def MDie.jnote (d : MDie) (rs : List JRec) : MDie := d.setJournal (d.mram.journal.note d.upNs rs)

/-- Entries written by a parameter command (R555). -/
def MDie.jEntries (d : MDie) (n : Nat) (es : List (Nat × Nat × U64)) : List JRec :=
  match d.obj? n with
  | some o => if journalled o.cls then (es.filter (fun e => isKept e.1)).map (fun e => d.jParam n o e.1 e.2.1 e.2.2) else []
  | none => []

/-- A destroyed object: the generation of its slot afterwards. -/
def MDie.jDestroy (d : MDie) (n : Nat) (o : Obj) : List JRec :=
  if journalled o.cls then [{ d.jObj 3 n o with gen := ((d.jObj 3 n o).gen + 1) % 8 }] else []

/-! Retained state (R558, R561): what a replay of records leaves. -/

structure Retained where
  /-- CREATE records by slot, and PARAM records by slot and key. -/
  objs : List (Nat × JRec)
  pars : List (Nat × List (Nat × JRec))
  gens : List (Nat × Nat)
  claims : List Nat
  level : Option JRec
  deriving DecidableEq, Repr

def Retained.empty : Retained := ⟨[], [], [], [], none⟩

/-- One record. -/
def Retained.take (r : Retained) (x : JRec) : Retained :=
  let gone : Retained := { r with objs := alDel r.objs x.slot, pars := if x.slot < 256 then r.pars else alDel r.pars x.slot, gens := alSet r.gens x.slot x.gen }
  if x.rtype = 1 then { gone with objs := alSet gone.objs x.slot x, gens := alDel gone.gens x.slot }
  else if x.rtype = 2 then { r with pars := alSet r.pars x.slot (alSet ((alGet r.pars x.slot).getD []) (paramKey x.pid x.pidx) x) }
  else if x.rtype = 3 ∨ x.rtype = 4 then gone
  else if x.rtype = 5 then { r with claims := if r.claims.contains x.cword then r.claims else r.claims ++ [x.cword] }
  else if x.rtype = 6 then { r with claims := r.claims.filter (fun g => g ≠ x.cword) }
  else { r with level := some x }

/-- The default event route of a created object (R97): its owner, ring 0, the origin of the creating command for a remote owner. -/
def evtRouteOf (client : U16) (origin : Nat) : U64 :=
  BitVec.ofNat 64 (client.toNat + (if isRemoteClient client then origin % 4 * 2 ^ 19 else 0))

/-- Boot value of a parameter element of an object (R6, R97, R551). A CREATE record does not carry the origin of its command:
of the route of a remote owner's object the origin is not known after a replay (log 39). -/
def bootValue (base : List (Nat × Params)) (owner : U16) (slot id ix : Nat) : U64 :=
  match alGet ((alGet base slot).getD []) (paramKey id ix) with
  | some v => v
  | none =>
    if id = Par.objectEvtRoute then (if slot < 256 then 0x1000 else evtRouteOf owner 0)
    else match paramRow? id with
      | some r => if id = Par.portCost ∧ 8 ≤ slot then 1 else image64 r.dflt
      | none => 0

/-- The last record of a group. -/
def markLast (rs : List JRec) : List JRec := (rs.zipIdx).map (fun (x : JRec × Nat) => { x.1 with last := x.2 + 1 = rs.length })

/-- The records of a snapshot (R558), grouped by object; the claims first, so that no replayed allocation takes a claimed granule (log 42). -/
def Retained.snapshot (base : List (Nat × Params)) (r : Retained) : List JRec :=
  let owner (slot : Nat) : U16 := match alGet r.objs slot with | some c => BitVec.ofNat 16 c.client | none => noClient
  let ps (slot : Nat) : List JRec :=
    (((alGet r.pars slot).getD []).map (fun x => x.2)).filter (fun x =>
      x.value ≠ bootValue base (owner slot) slot x.pid x.pidx ∨ (x.pid = Par.objectEvtRoute ∧ isRemoteClient (owner slot)))
  let fixed := (r.pars.filter (fun x => decide (x.1 < 256))).flatMap (fun x => markLast (ps x.1))
  let created := r.objs.flatMap (fun x => markLast ({ x.2 with tsCharge := x.2.tsCharge } :: ps x.1))
  let gens := (r.gens.filter (fun x => x.2 ≠ 0)).flatMap (fun x => markLast [{ jrec 4 with slot := x.1, gen := x.2 }])
  let claims := r.claims.flatMap (fun g => markLast [{ jrec 5 with cword := g }])
  claims ++ fixed ++ created ++ gens ++ (match r.level with | some l => markLast [l] | none => [])

/-- Generations of the free slots, those that held only tasks and queues among them (R558). -/
def MDie.freeGens (d : MDie) : List (Nat × Nat) :=
  d.slots.filterMap (fun (x : Nat × Slot) => if x.2.occ = .free ∧ 256 ≤ x.1 then some (x.1, x.2.gen) else none)

/-- Retained state of the present objects (`JOURNAL_CLEAR`). -/
def MDie.retainedNow (d : MDie) : Retained :=
  let objs := d.objects.filter (fun (x : Nat × Obj) => journalled x.2.cls)
  { objs := (objs.filter (fun (x : Nat × Obj) => decide (256 ≤ x.1))).map (fun (x : Nat × Obj) => (x.1, d.jCreate x.1 x.2))
    pars := objs.map (fun (x : Nat × Obj) => (x.1, (x.2.params.filter (fun p => isKept (p.1 / 65536))).map (fun p =>
      (p.1, d.jParam x.1 x.2 (p.1 / 65536) (p.1 % 65536) p.2))))
    gens := d.freeGens
    claims := d.mem.claimed
    level := some { jrec 7 with value := BitVec.ofNat 64 d.fab.commit } }

/-- The snapshot of a compaction: the retained state as records (R558). -/
def MDie.jSnapshot (d : MDie) : List JRec :=
  let r := d.mram.journal.recs.foldl (fun (r : Retained) x => r.take x) Retained.empty
  let free := d.freeGens.filter (fun x => (alGet r.objs x.1).isNone)
  ({ r with gens := free.foldl (fun gs (x : Nat × Nat) => alSet gs x.1 x.2) r.gens }).snapshot d.boot.base

/-! Commit, sync, compaction (R557, R558). -/

/-- `JOURNAL_SYNC` commands whose records are all committed are answered. -/
def MDie.jSyncs (d : MDie) : MDie :=
  let j := d.mram.journal
  let done (x : ReplyTo × Nat × Nat) : Bool := j.pend.all (fun p => p.2.all (fun (r : JRec) => decide (2 ^ 31 ≤ (x.2.1 + 2 ^ 32 - r.seq) % 2 ^ 32)))
  let ready := d.rm.syncs.filter done
  let d := { d with rm := { d.rm with syncs := d.rm.syncs.filter (fun x => !done x) } }
  ready.foldl (fun (d : MDie) (x : ReplyTo × Nat × Nat) =>
    ((d.reply x.1 .ok ⟨BitVec.ofNat 64 j.committed, 0⟩ x.2.2).release1 x.1).release2 x.1) d

def MDie.jCommit (d : MDie) : MDie := (d.setJournal d.mram.journal.commit).jSyncs

def MDie.jCompact (d : MDie) : MDie :=
  let j := d.mram.journal
  if j.full && j.st == 0 && j.snap.isNone then
    let (j, e) := j.compact d.jSnapshot d.tick0 (d.upNs + 20000000)
    ((d.setJournal j).postAll 0 e).jSyncs
  else d

def MDie.jCompacted (d : MDie) : MDie := (d.setJournal d.mram.journal.compacted).jSyncs

/-- At a class 0 tick: what could not wait for the next one is done, a compaction after 20 ms (R558) and the commit of records after
100 µs (R557). -/
def MDie.jTick (d : MDie) : MDie :=
  let d := match d.mram.journal.snap with
    | some (t, _) => if t < d.upNs + 16000 then d.jCompacted else d
    | none => d
  (List.range d.mram.journal.pend.length).foldl (fun (d : MDie) _ => match d.mram.journal.pend with
    | p :: _ => if p.1 + 100000 < d.upNs + 16000 ∧ !d.mram.journal.full then d.jCommit else d
    | [] => d) d

/-- `JOURNAL_SYNC` at its tick: answered now, or when the records of the commands that took effect before the tick are committed. -/
def MDie.journalSync (d : MDie) (rt : ReplyTo) (t : Nat) : MDie :=
  let j := d.mram.journal
  let later := j.pend.find? (fun p => decide (d.upNs ≤ p.1 + (d.ns - t)))
  let next := (later.bind (fun p => p.2.head?.map (fun (r : JRec) => r.seq))).getD j.next
  { d with rm := { d.rm with syncs := d.rm.syncs ++ [(rt, (next + 2 ^ 32 - 1) % 2 ^ 32, t)] } }.jSyncs

/-! Permission (R569, R587). -/

/-- The PCI Express host, or the QSPI host while the PCI Express link is not up (R37, R624). -/
def MDie.mayConfigure (d : MDie) (client : U16) : Bool := client == clientPcie || (client == clientQspi && !d.rm.dlUp)

/-- Opcodes that BLANK and END lock (R569). -/
def lockedOps : List Op := [.profWrite, .profCommit, .profErase, .profSelectNext, .journalClear, .fwWrite, .fwVerify, .fwActivate]

/-- Is the opcode of group 0xE? -/
def Op.groupE (op : Op) : Bool := op.code / 4096 == 14

/-! Opcodes (R572). -/

/-- Slot of a `PROF` object. -/
def profIx (n : Nat) : Nat := n - 2

/-- `PROF.STATE` (R545, R554). -/
def ProfSlot.state (s : ProfSlot) : Nat := if s.bad = [] then s.st else 3

/-- The bank that is not running. -/
def MDie.otherBank (d : MDie) : Nat := 1 - d.boot.bank % 2

/-- May `MEM_WRITE` reach the run? -/
def MDie.memWriteOk (d : MDie) (a n : Nat) : Bool :=
  d.mem.inClaimed a n || (d.dieIndex == 0 && decide (0x3F0000 ≤ a ∧ a + n ≤ 0x400000))
    || d.objects.any (fun (x : Nat × Obj) => match x.2.data with
        | .cam c => x.2.life != .enabled && decide (c.addr ≤ a ∧ a + n ≤ c.addr + c.bytes)
        | _ => false)

/-- May `MEM_READ` reach the address? -/
def MDie.memReadOk (d : MDie) (a : Nat) : Bool :=
  decide (0x400000 ≤ a ∧ a + 16 ≤ 0x800000) || (d.dieIndex == 0 && decide (0x3F0000 ≤ a ∧ a + 16 ≤ 0x400000))

/-- The message an owner signs to reach RETURN (R567). -/
def MDie.lcMessage (d : MDie) (target : Nat) : List Byte :=
  d64 d.serial.toNat ++ (match d.mem.challenge with | some c => c.1 | none => []) ++ d8 target

/-- The refusals of R567 and R568. -/
def MDie.lcAdvanceBad (d : MDie) (b : List Byte) : Bad :=
  let t := rdU b 0 1
  let rest := b.drop 8
  let plain : Bool := t == 1 || t == 3
  if 4 < t ∨ !lcStepOk d.mram.lc t ∨ (!plain && rest.any (fun x => x != 0)) then bad 8 .badParam
  else if t = 3 then
    badIf (!(match d.mem.challenge with
      | some c => decide (d.upNs < c.2) && Config.ecdsaOk d.mram.ownerKey (Config.sha256 (d.lcMessage t)) (rest.take 64)
      | none => false)) 7 .denied
  else none

def MDie.retainOpBad (d : MDie) (op : Op) (client : U16) (n : Nat) (b : List Byte) : Bad :=
  let perm : Bad := badIf (!d.mayConfigure client) 7 .denied
  let lock : Bad := badIf (lockedOps.contains op && (d.mram.lc == 0 || d.mram.lc == 4)) 7 .locked
  let lead : Bad := badIf (d.dieIndex != 0) 7 .denied
  let s := (d.mram.slots[profIx n]?).getD ⟨0, [], []⟩
  match op with
  | .profWrite => firstBad [perm, lock, badIf (rdU b 0 4 % 8 != 0 || decide (262144 < rdU b 0 4 + rdU b 4 2)) 9 .outOfRange]
  | .profCommit => firstBad [perm, lock, match s.check with
      | some (i, c) => some (8, .badParam, ⟨0, BitVec.ofNat 64 (i + 65536 * c)⟩)
      | none => none]
  | .profErase => firstBad [perm, lock]
  | .profSelectNext => firstBad [perm, lock, badIf (s.state != 2) 10 .wrongState]
  | .journalSync => perm
  | .journalClear => firstBad [perm, lock, badIf (decide (1 < rdU b 0 1)) 9 .outOfRange]
  | .memClaim => firstBad [perm, badIf (decide (63 < rdU b 0 1)) 9 .outOfRange,
      badIf (!d.mem.claimed.contains (rdU b 0 1) && granuleUsed d.mem.allocs (rdU b 0 1)) 10 .busy]
  | .memRelease => firstBad [perm, badIf (decide (63 < rdU b 0 1)) 9 .outOfRange]
  | .memWrite => firstBad [perm, badIf (rdU b 0 4 % 8 != 0) 9 .outOfRange, badIf (!d.memWriteOk (rdU b 0 4) (rdU b 4 2)) 7 .denied]
  | .memRead => firstBad [perm, badIf (rdU b 0 4 % 16 != 0 || !d.memReadOk (rdU b 0 4)) 9 .outOfRange,
      badIf (d.mem.badIn 0 (rdU b 0 4) 16).isSome 10 .faulted]
  | .fwWrite => firstBad [perm, lock, badIf (rdU b 0 4 % 8 != 0 || decide (1048576 < rdU b 0 4 + rdU b 4 2)) 9 .outOfRange]
  | .fwVerify => firstBad [perm, lock, match d.mram.banks[d.otherBank]? with
      | some k => match fwCheck k d.mram.lc d.mram.fwMinSvn d.mram.ownerKey with
        | some c => some (8, .badParam, ⟨0, BitVec.ofNat 64 c⟩)
        | none => none
      | none => none]
  | .fwActivate => firstBad [perm, lock, badIf (decide (1 < rdU b 0 1)) 9 .outOfRange,
      badIf (((d.mram.banks[rdU b 0 1]?).map (fun k => k.st)).getD 0 != 2) 10 .wrongState]
  | .lcChallenge => firstBad [perm, lead]
  | .lcAdvance => firstBad [perm, lead, d.lcAdvanceBad b]
  | _ => none

/-- What a refusal or an acceptance leaves at once: a failed `PROF_COMMIT` marks its slot (R554); an `LC_ADVANCE` to RETURN uses up the
challenge (R568). -/
def MDie.retainNote (d : MDie) (op : Op) (n : Nat) (b : List Byte) : MDie :=
  match op with
  | .profCommit =>
    if ((d.mram.slots[profIx n]?).getD ⟨0, [], []⟩).check.isSome then
      { d with mram := { d.mram with slots := listMod d.mram.slots (profIx n) (fun s => { s with st := 3 }) } }
    else d
  | .lcAdvance => if rdU b 0 1 = 3 then { d with mem := { d.mem with challenge := none } } else d
  | _ => d

/-- `LC_CHALLENGE`: 16 random bytes, valid for 60 s (R568). -/
def MDie.lcChallenge (d : MDie) : MDie × Result :=
  let (d, v) := d.draw (2 ^ 128)
  ({ d with mem := { d.mem with challenge := some (leBytes 16 v, d.upNs + 60000000000) } },
   ⟨BitVec.ofNat 64 (v % 2 ^ 64), BitVec.ofNat 64 (v / 2 ^ 64)⟩)

/-- A firmware bank after a write: a delivered image's contents are not the host's, so they count as zeros (log 35). -/
def FwBank.write (k : FwBank) (a : Nat) (b : List Byte) : FwBank :=
  let m := match k.image with | .host m => m | _ => []
  { st := 1, image := .host (m.writeN a b), bad := stillBad k.bad a b.length }

def MDie.retainDo (d : MDie) (op : Op) (n : Nat) (b : List Byte) : MDie × Result :=
  let setSlot (f : ProfSlot → ProfSlot) : MDie := { d with mram := { d.mram with slots := listMod d.mram.slots (profIx n) f } }
  match op with
  | .profWrite =>
    (setSlot (fun s => { st := 1, data := s.data.writeN (rdU b 0 4) ((b.drop 8).take (rdU b 4 2)), bad := stillBad s.bad (rdU b 0 4) (rdU b 4 2) }), noResult)
  | .profCommit => (setSlot (fun s => { s with st := if s.check.isNone then 2 else 3 }), noResult)
  | .profErase => (setSlot (fun _ => ⟨0, [], []⟩), noResult)
  | .profSelectNext => ({ d with mram := { d.mram with nextSlot := some (profIx n) } }, noResult)
  | .journalClear =>
    let snap := if rdU b 0 1 = 0 then d.retainedNow.snapshot d.boot.base else []
    if halfCapacity < snap.length then
      let (j, e) := d.mram.journal.fill snap d.tick0
      (((d.setJournal j).postAll 0 e).jSyncs, noResult)
    else ((d.setJournal (d.mram.journal.clear snap d.boot.bootSlot d.heldBase)).jSyncs, noResult)
  | .memClaim => match d.mem.claim (rdU b 0 1) with
    | .ok m =>
      let held := d.mem.claimed.contains (rdU b 0 1)
      let d := { d with mem := m }
      (if held then d else d.jnote [{ jrec 5 with cword := rdU b 0 1 }], noResult)
    | .error _ => (d, noResult)
  | .memRelease =>
    let held := d.mem.claimed.contains (rdU b 0 1)
    let d := { d with mem := d.mem.unclaim (rdU b 0 1) }
    (if held then d.jnote [{ jrec 6 with cword := rdU b 0 1 }] else d, noResult)
  | .memWrite => (d.sramStore (rdU b 0 4) ((b.drop 8).take (rdU b 4 2)), noResult)
  | .memRead =>
    let x := d.mem.sram.readN (rdU b 0 4) 16
    (d, ⟨BitVec.ofNat 64 (rdU x 0 8), BitVec.ofNat 64 (rdU x 8 8)⟩)
  | .fwWrite =>
    ({ d with mram := { d.mram with banks := listMod d.mram.banks d.otherBank (fun k => k.write (rdU b 0 4) ((b.drop 8).take (rdU b 4 2))) } }, noResult)
  | .fwVerify =>
    ({ d with mram := { d.mram with banks := listMod d.mram.banks d.otherBank (fun k => { k with st := 2 }) } },
     ⟨BitVec.ofNat 64 (((d.mram.banks[d.otherBank]?).map FwBank.svn).getD 0), 0⟩)
  | .fwActivate =>
    let k := rdU b 0 1
    ({ d with mram := { d.mram with fwNext := k, fwFails := if k = d.mram.fwNext then d.mram.fwFails else 0 } }, noResult)
  | .lcChallenge => d.lcChallenge
  | .lcAdvance =>
    let t := rdU b 0 1
    ({ d with mram := { d.mram with lcIntent := some t, ownerKey := (if t = 1 then (b.drop 8).take 64 else d.mram.ownerKey), lcBad := [false, false] }
              mem := { d.mem with wiping := some (d.upNs + 2000000000) } }, noResult)
  | _ => (d, noResult)

/-- The commit level a switch set is recorded (R475, R555). -/
def MDie.levelTick (d : MDie) : MDie :=
  let old := d.fab.commit
  let d := d.levelSwitch
  if d.fab.commit = old then d else d.jnote [{ jrec 7 with value := BitVec.ofNat 64 d.fab.commit }]

/-! Memory errors (R545). -/

/-- The group whose coefficient RAM the error lies in faults (R330); `area` 0 bank, 1 list, 2 data. -/
def MDie.cramError (d : MDie) (slot area addr : Nat) : MDie :=
  d.lgrpFault slot (faultEv Evt.cramError d.tick0 (d8 area ++ [0, 0, 0] ++ d32 addr)) d.tick0 true

/-- An uncorrectable error in MRAM. Of the area of the life-cycle record the spec does not say where its two copies lie: `copy` is which
of them the word belongs to, none from 2 on. -/
def Mram.error (m : Mram) (a copy : Nat) : Mram :=
  let w := a / 8 * 8
  if a < 0x200000 then { m with banks := listMod m.banks (a / 0x100000) (fun k => { k with bad := k.bad ++ [w % 0x100000] }) }
  else if a < 0x300000 then { m with slots := listMod m.slots ((a - 0x200000) / 0x40000) (fun s => { s with bad := s.bad ++ [w % 0x40000] }) }
  else if a < 0x380000 then
    let off := (a - 0x300000) % 0x40000
    let half := (a - 0x300000) / 0x40000
    if half = m.journal.half % 2 ∧ 64 ≤ off ∧ (off - 64) / 32 < m.journal.recs.length then
      { m with journal := m.journal.tear ((off - 64) / 32) }
    else m
  else if a < 0x390000 then { m with lcBad := m.lcBad.set copy true }
  else m

/-- An error found by a reader or by the scrubber. Answers whether the die is reset for it. -/
def MDie.memError (d : MDie) (mem addr : Nat) (uncorrectable reader : Bool) (slot area : Nat) : MDie × Bool :=
  if 3 < mem then (d, false)
  else if !uncorrectable then
    let d := d.bump 0 Par.systemMemCe mem 1
    let n := d.mem.ceSince.getD mem 0 + 1
    match d.mem.cePost.getD mem none with
    | some t =>
      if d.upNs < t + 1000000000 then ({ d with mem := { d.mem with ceSince := d.mem.ceSince.set mem n } }, false)
      else ({ d with mem := { d.mem with ceSince := d.mem.ceSince.set mem 0, cePost := d.mem.cePost.set mem (some d.upNs) } }.post 0
              (report Evt.memCorrected d.tick0 (d8 mem ++ [0, 0, 0] ++ d32 n)), false)
    | none => ({ d with mem := { d.mem with ceSince := d.mem.ceSince.set mem 0, cePost := d.mem.cePost.set mem (some d.upNs) } }.post 0
              (report Evt.memCorrected d.tick0 (d8 mem ++ [0, 0, 0] ++ d32 n)), false)
  else
    let d := d.bump 0 Par.systemMemUe mem 1
    let d := { d with mem := { d.mem with lastAddr := mem * 2 ^ 28 + addr % 2 ^ 28 } }
    let d := d.post 0 (faultEv Evt.memUncorrectable d.tick0 (d8 mem ++ [0, 0, 0] ++ d32 addr))
    if mem = 3 then
      let (d, copy) := if 0x380000 ≤ addr ∧ addr < 0x390000 then d.draw 3 else (d, 2)
      ({ d with mram := d.mram.error addr copy }, false)
    else if mem = 0 then
      let d := { d with mem := { d.mem with badWords := (0, addr / 8 * 8) :: d.mem.badWords } }
      (d, reader && decide (addr < 0x400000))
    else (if reader then d.cramError slot area addr else d, false)

/-- Links whose cam table holds a bad word at the points that their last master position reads (R545). -/
def MDie.camErrors (d : MDie) (t : Nat) : MDie :=
  if d.mem.badWords = [] then d
  else (d.slotsOf .gear).foldl (fun (d : MDie) l => match d.gear? l with
    | some (o, g) =>
      if o.life ≠ .enabled ∨ !g.engaged ∨ g.camNow = 0 then d
      else match d.camTabOf g.camNow, d.find g.camNow with
        | some tab, some (_, co) => match co.data with
          | .cam c =>
            let (x, _, _) := g.law.x g.prevM
            let i := ((x - (tab.cycle x : Rat) * tab.len) * (tab.n : Rat) / tab.len).floor
            let reads : List Int := if tab.cubic then [i - 1, i, i + 1, i + 2] else [i, i + 1]
            let addr (k : Int) : Nat := c.addr + 64 + 8 * (k % tab.n).toNat
            match reads.find? (fun k => (d.mem.badIn 0 (addr k) 8).isSome) with
            | some k => d.gearFault l (faultEv Evt.memUncorrectable t (d8 0 ++ [0, 0, 0] ++ d32 (addr k))) t
            | none => d
          | _ => d
        | _, _ => d
    | none => d) d

/-! Values read (R570, R571). -/

def MDie.profRead (d : MDie) (n id : Nat) : Option Int :=
  let s := (d.mram.slots[profIx n]?).getD ⟨0, [], []⟩
  if id = Par.profState then some s.state
  else if id = Par.profRecords then some (if s.state = 2 then almCount s.data else 0)
  else if id = Par.profTag then some (if s.state = 2 then almTag s.data else 0)
  else if id = Par.profInUse then some (if profIx n = d.boot.bootSlot then 1 else 0)
  else none

def MDie.sysRetainRead (d : MDie) (id ix : Nat) : Option Int :=
  let j := d.mram.journal
  if id = Par.systemBootSlot then some d.boot.bootSlot
  else if id = Par.systemProfPins then some d.boot.profPins
  else if id = Par.systemNextSlot then some (match d.mram.nextSlot with | some s => s | none => 0xFF)
  else if id = Par.systemJournalState then some j.st
  else if id = Par.systemJournalCause then some j.cause
  else if id = Par.systemJournalSeq then some j.committed
  else if id = Par.systemJournalUsed then some j.used
  else if id = Par.systemMemLastAddr then some d.mem.lastAddr
  else if id = Par.systemMemClaimed then some d.mem.claimMask
  else if id = Par.systemFwBank then some d.boot.bank
  else if id = Par.systemFwState then some (((d.mram.banks[ix]?).map (fun k => k.st)).getD 0)
  else if id = Par.systemFwSvn then some (((d.mram.banks[ix]?).map FwBank.svn).getD 0)
  else if id = Par.systemFwNext then some d.mram.fwNext
  else if id = Par.systemFwFails then some d.mram.fwFails
  else if id = Par.systemFwMinSvn then some d.mram.fwMinSvn
  else if id = Par.systemLifecycle then some d.mram.lc
  else none

end Sys2Proof.Machine
end

