-- ==== Sys2Proof/Machine/Turnstile.lean ====
section
/-! DEFINITION. The Turnstile (R101 … R121): counts, completions, failures and cancellations of tasks. Intake and dispatch are acceptances. -/

namespace Sys2Proof.Machine

open Sys2Proof

/-- Every task with its slot. -/
def MDie.tasks (d : MDie) : List (Nat × TaskRec) :=
  d.slots.filterMap (fun (x : Nat × Slot) => match x.2.occ with
    | .task t => some (x.1, t)
    | _ => none)

/-- The task in a slot. -/
def MDie.task? (d : MDie) (n : Nat) : Option TaskRec :=
  match d.slot? n with
  | some ⟨_, .task t⟩ => some t
  | _ => none

def MDie.setTask (d : MDie) (n : Nat) (t : TaskRec) : MDie :=
  match d.slot? n with
  | some s => { d with slots := alSet d.slots n { s with occ := .task t } }
  | none => d

/-- The slot of the task a handle of this die names. -/
def MDie.findTask (d : MDie) (h : U32) : Option (Nat × TaskRec) :=
  if !d.isOwn h then none
  else match d.slot? (hSlot h) with
    | some ⟨g, .task t⟩ => if g = hGen h ∧ hClass h = Class.task.code then some (hSlot h, t) else none
    | _ => none

/-- Task slots a task with `k` successors takes (R104). -/
def unitsFor (k : Nat) : Nat := 1 + (k - 4 + 3) / 4

def TaskRec.units (t : TaskRec) : Nat := unitsFor t.succs.length

/-- Task slots in use on the die, and by a client. -/
def MDie.taskUse (d : MDie) : Nat := d.tasks.foldl (fun (s : Nat) (x : Nat × TaskRec) => s + x.2.units) 0
def MDie.taskUseOf (d : MDie) (c : U16) : Nat :=
  d.tasks.foldl (fun (s : Nat) (x : Nat × TaskRec) => if x.2.rt.client = c then s + x.2.units else s) 0

/-- Has the task been dispatched? -/
def TaskRec.gone (t : TaskRec) : Bool := match t.st with | .dispatched _ _ => true | _ => false

/-- Ring 0 of the submitting client, with its origin at a remote node (R121). -/
def TaskRec.ring (t : TaskRec) : Nat := if isRemoteClient t.rt.client then 8 * t.rt.origin else 0

def TaskRec.tag (t : TaskRec) : Nat := match t.pkt.task with | some b => b.tag.toNat | none => 0
def TaskRec.notify (t : TaskRec) : Bool := match t.pkt.task with | some b => b.ctrl.getLsbD 6 | none => false
def TaskRec.onFail (t : TaskRec) : Bool := match t.pkt.task with | some b => b.ctrl.getLsbD 7 | none => false
def TaskRec.prio (t : TaskRec) : Nat := match t.pkt.task with | some b => b.ctrl.toNat % 8 | none => 0
/-- `COMPLETE`, and the awaited code. -/
def TaskRec.mode (t : TaskRec) : Nat := match t.pkt.task with | some b => b.shape.toNat / 16 % 4 | none => 0
def TaskRec.evtCode (t : TaskRec) : Nat := match t.pkt.task with | some b => b.evtCode.toNat | none => 0

/-! Counts (R110). -/

/-- Lower a count. Tasks that become ready before the next `readyRound` share a place and go by intake (R111). Answers whether it was applied. -/
def MDie.lower (d : MDie) (n k : Nat) : MDie × Bool :=
  match d.task? n with
  | some t => match t.st with
    | .waiting =>
      if k < t.deps then (d.setTask n { t with deps := t.deps - k }, true)
      else (d.setTask n { t with deps := 0, st := .ready d.rm.nextReady }, true)
    | _ => (d, false)
  | none => (d, false)

def MDie.readyRound (d : MDie) : MDie := { d with rm := { d.rm with nextReady := d.rm.nextReady + 1 } }

/-! Successors on other nodes (R116). -/

def MDie.cmdTimeoutNs (d : MDie) : Nat := d.sysPs.u Par.systemCmdTimeout * 1000

/-- Hold a completion or cancellation until it is acknowledged, and send it if a route exists. -/
def MDie.holdRemote (d : MDie) (pred : U32) (t : TaskRec) (succ : U32) (cancel : Bool) : MDie :=
  let up := d.reachable (hNode succ)
  let r : RemoteDone := { token := d.rm.nextToken, pred := pred, tag := BitVec.ofNat 16 t.tag, client := t.rt.client, ring := t.ring, succ := succ
                          cancel := cancel, deadline := d.upNs + d.cmdTimeoutNs, sent := up }
  let d := { d with rm := { d.rm with remote := d.rm.remote ++ [r], nextToken := d.rm.nextToken + 1 } }
  if up then d.emit (.taskDone (hNode succ) succ r.token cancel) else d

/-- Held completions whose node is reachable again are sent, one that was sent before its route was lost among them. -/
def MDie.sendHeld (d : MDie) : MDie :=
  let lost (r : RemoteDone) : RemoteDone := if d.reachable (hNode r.succ) then r else { r with sent := false }
  let d := { d with rm := { d.rm with remote := d.rm.remote.map lost } }
  let ready (r : RemoteDone) : Bool := !r.sent && d.reachable (hNode r.succ)
  let go := d.rm.remote.filter ready
  let d := { d with rm := { d.rm with remote := d.rm.remote.map (fun r => if ready r then { r with sent := true } else r) } }
  go.foldl (fun (d : MDie) (r : RemoteDone) => d.emit (.taskDone (hNode r.succ) r.succ r.token r.cancel)) d

/-- No acknowledgement in time: given up, and a completion lost is reported; of a cancellation given up R114 and R116 name no report
(DESIGN CHOICE, log 140: none). -/
def MDie.succTimeout (d : MDie) (token : Nat) : MDie :=
  match d.rm.remote.find? (fun r => r.token = token) with
  | none => d
  | some r =>
    let due (d : MDie) : MDie :=
      let d := { d with rm := { d.rm with remote := d.rm.remote.filter (fun x => x.token ≠ token) } }
      if r.cancel then d
      else d.postTo r.pred (faultEv Evt.taskSuccLost d.tick0 (d16 r.tag.toNat ++ d16 r.client.toNat ++ d32 r.succ.toNat)) r.client r.ring
    match d.passUp r.deadline with
    | some d => due d
    | none => d

/-- The acknowledgement of a successor's die. -/
def MDie.succAck (d : MDie) (token : Nat) : MDie :=
  { d with rm := { d.rm with remote := d.rm.remote.filter (fun r => r.token ≠ token) } }

/-! Cancelling (R117, R119). -/

/-- End an undispatched task: its second reply, its slots. -/
def MDie.dropTask (d : MDie) (n : Nat) (t : TaskRec) : MDie :=
  (((d.reply t.rt .cancelled noResult d.ns).release1 t.rt).release2 t.rt).vacate n

/-- Cancel the tasks named, each with its successors in turn. -/
def MDie.cascade : Nat → MDie → List (U32 × TaskRec × U32) → MDie
  | 0, d, _ => d
  | _ + 1, d, [] => d
  | k + 1, d, (pred, t, h) :: r =>
    if !d.isOwn h then (d.holdRemote pred t h true).cascade k r
    else match d.findTask h with
      | some (n, x) =>
        if x.gone then d.cascade k r else (d.dropTask n x).cascade k (r ++ x.succs.map (fun s => (h, x, s)))
      | none => d.cascade k r

/-- Steps enough for every cascade. -/
def MDie.cascadeFuel (d : MDie) : Nat := 34 * (d.tasks.length + 2)

/-- Cancel a task, with cascade where asked. -/
def MDie.cancelTask (d : MDie) (n : Nat) (casc : Bool) : MDie :=
  match d.task? n with
  | some t =>
    if t.gone then d
    else
      let h := d.handle n
      let d' := d.dropTask n t
      if casc then d'.cascade d.cascadeFuel (t.succs.map (fun s => (h, t, s))) else d'
  | none => d

/-- Cancel the undispatched tasks a test picks, without cascade; how many. -/
def MDie.cancelTasks (d : MDie) (p : TaskRec → Bool) : MDie × Nat :=
  let go := d.tasks.filter (fun (x : Nat × TaskRec) => !x.2.gone && p x.2)
  (go.foldl (fun (d : MDie) (x : Nat × TaskRec) => d.cancelTask x.1 false) d, go.length)

/-- A `QUEUE` that drains: the tasks it submitted that wait here are cancelled, those on other dies are called off (R119). -/
def MDie.cancelQueueTasks (d : MDie) (port : HostPort) (queue : Nat) : MDie :=
  let d := (d.cancelTasks (fun t => t.rt.client == clientOf port && t.rt.queue == queue)).1
  match d.queue? (queueKey port queue) with
  | some q => (q.flights.filter (fun f => f.task != 0)).foldl (fun (d : MDie) f => d.emit (.taskDrop (hNode f.task) f.task)) d
  | none => d

/-- A command that cancels tasks has been accepted: they are not dispatched any more (R117, R118). Answers how many it took. -/
def MDie.doom (d : MDie) (p : Nat → TaskRec → Bool) : MDie × Nat :=
  let go := d.tasks.filter (fun (x : Nat × TaskRec) => !x.2.gone && !x.2.doomed && p x.1 x.2)
  (go.foldl (fun (d : MDie) (x : Nat × TaskRec) => d.setTask x.1 { x.2 with doomed := true }) d, go.length)

/-! Completion and failure (R113 … R115). -/

/-- Each successor receives one completion. -/
def MDie.releaseSuccs (d : MDie) (pred : U32) (t : TaskRec) : MDie :=
  t.succs.foldl (fun (d : MDie) (h : U32) =>
    if d.isOwn h then
      match d.findTask h with
      | some (n, _) => (d.lower n 1).1
      | none => d
    else d.holdRemote pred t h false) d

/-- A task completes; `code` is the event seen. -/
def MDie.taskDone (d : MDie) (n code : Nat) : MDie :=
  match d.task? n with
  | none => d
  | some t =>
    let h := d.handle n
    let d := if t.notify then
        d.postTo h (report Evt.taskDone d.tick0 (d16 t.tag ++ d16 t.rt.client.toNat ++ d16 code)) t.rt.client t.ring
      else d
    (d.releaseSuccs h t).vacate n

/-- A task fails (R114). -/
def MDie.taskFail (d : MDie) (n status cause : Nat) : MDie :=
  match d.task? n with
  | none => d
  | some t =>
    let h := d.handle n
    let d := d.postTo h (faultEv Evt.taskFailed d.tick0 (d16 t.tag ++ d16 t.rt.client.toNat ++ d16 status ++ d8 cause)) t.rt.client t.ring
    let fuel := d.cascadeFuel
    if t.onFail then (d.releaseSuccs h t).vacate n
    else (d.vacate n).cascade fuel (t.succs.map (fun s => (h, t, s)))

/-- The end of a dispatched task's command: its effect, a refusal (cause 1) or a cancellation (cause 3). -/
def MDie.taskEnd (d : MDie) (n cause status : Nat) : MDie :=
  match d.task? n with
  | none => d
  | some t =>
    if cause = 1 then d.taskFail n status 1
    else if cause ≠ 0 then
      (((d.release1 t.rt).release2 t.rt).taskFail n status cause)
    else
      let d := d.release1 t.rt
      if t.mode = 0 then d.taskDone n 0 else d

/-- An event of a task's target (R113, R114). -/
def MDie.taskSees (d : MDie) (e : EvRec) : MDie :=
  let hit := d.tasks.filter (fun (x : Nat × TaskRec) => x.2.pkt.target == e.src && x.2.mode != 0 && (match x.2.st with
    | .dispatched t _ => decide (t ≤ e.ns)
    | _ => false))
  hit.foldl (fun (d : MDie) (x : Nat × TaskRec) =>
    let st := match x.2.st with | .dispatched _ s => s | _ => 0
    if x.2.mode = 1 ∧ e.code = x.2.evtCode then d.taskDone x.1 e.code
    else if e.code = Evt.objectIdle then (if x.2.mode = 2 then d.taskDone x.1 e.code else d.taskFail x.1 st 2)
    else d) d

/-- The ends of commands of a step, in order. -/
def MDie.turnEnds (d : MDie) : MDie :=
  let ends := d.rm.ended
  (ends.foldl (fun (d : MDie) (x : Nat × Nat × Nat) => d.taskEnd x.1 x.2.1 x.2.2) { d with rm := { d.rm with ended := [] } }).readyRound

/-- The events of a step, in order; those of one time make tasks ready together (R111, log 141). -/
def MDie.turnEvents (d : MDie) (es : List EvRec) : MDie :=
  (es.foldl (fun (x : MDie × Nat) (e : EvRec) =>
    (((if e.ns = x.2 then x.1 else x.1.readyRound).taskSees e), e.ns)) (d, 0)).1.readyRound

/-! Packets of other Turnstiles (R114, R116). -/

/-- A completion taken once, however often it is sent; each is acknowledged. -/
def MDie.succReceived (d : MDie) (succ : U32) (node token : Nat) (cancel : Bool) : MDie :=
  let d := d.emit (.taskAck node token)
  if d.rm.taken.contains (node, token) then d
  else
    let d := { d with rm := { d.rm with taken := d.rm.taken ++ [(node, token)] } }
    match d.findTask succ with
    | none => d
    | some (n, _) => if cancel then d.cancelTask n true else (d.lower n 1).1

/-! Dispatch order (R111). -/

/-- Does the first task go before the second? -/
def taskBefore (a b : TaskRec) : Bool :=
  match a.st, b.st with
  | .ready x, .ready y =>
    if a.prio ≠ b.prio then decide (b.prio < a.prio)
    else if x ≠ y then decide (x < y)
    else decide (a.intake < b.intake)
  | .ready _, _ => true
  | _, _ => false

/-- Is the task ready, and no cancel of it accepted? -/
def TaskRec.canGo (t : TaskRec) : Bool := !t.doomed && (match t.st with | .ready _ => true | _ => false)

/-- The task dispatched next: the one that stands first for want of an action slot (R112), else by priority and order (R111). -/
def MDie.nextTask (d : MDie) : Option (Nat × TaskRec) :=
  let ready := d.tasks.filter (fun x => x.2.canGo)
  match ready.find? (fun x => d.rm.stalled == some x.2.intake) with
  | some x => some x
  | none => ready.foldl (fun (b : Option (Nat × TaskRec)) (x : Nat × TaskRec) => match b with
    | some y => if taskBefore x.2 y.2 then some x else some y
    | none => some x) none

/-! Opcodes (R117, R120). -/

/-- Refusals of the Turnstile's commands. A `TASK_CANCEL_ALL` for a client index that R96 gives to nobody is accepted and cancels nothing
(R120 does not say; DESIGN CHOICE, log 142). -/
def MDie.taskOpBad (d : MDie) (op : Op) (client : U16) (h : U32) (b : List Byte) : Bad :=
  let own (t : TaskRec) : Bad := badIf (t.rt.client != client) 7 .denied
  match op with
  | .taskCancel => match d.findTask h with
    | some (_, t) => firstBad [own t, badIf t.gone 10 .wrongState]
    | none => none
  | .taskSignal => match d.findTask h with
    | some (_, t) => firstBad [own t, badIf (rdU b 0 1 == 0) 9 .outOfRange]
    | none => none
  | .taskCancelAll => badIf (rdU b 0 2 != client.toNat && client != clientPcie) 7 .denied
  | _ => none

/-- The effect of the Turnstile's commands. Which tasks a `TASK_CANCEL_ALL` cancels is settled at its acceptance (log 59). -/
def MDie.taskDo (d : MDie) (op : Op) (h : U32) (b : List Byte) : MDie × Result :=
  match op with
  | .taskCancel => match d.findTask h with
    | some (n, _) => (d.cancelTask n (bitOf (rdU b 0 1) 0), noResult)
    | none => (d, noResult)
  | .taskSignal => match d.findTask h with
    | some (n, _) =>
      let (d, ok) := d.lower n (rdU b 0 1)
      (d, ⟨if ok then 1 else 0, 0⟩)
    | none => (d, noResult)
  | .taskCancelAll =>
    let (d, k) := d.cancelTasks (fun t => t.doomed && t.rt.client.toNat == rdU b 0 2)
    (d, ⟨BitVec.ofNat 64 k, 0⟩)
  | _ => (d, noResult)

end Sys2Proof.Machine
end

