-- ==== Sys2Proof/Machine/HostDie.lean ====
section
/-! DEFINITION. Host ports of the lead die (R590 … R595, R624), the host window, queue halts (R87, R98), the TAP (R596, R597) and the
debug halt (R598 … R600). -/

namespace Sys2Proof.Machine

open Sys2Proof

/-! Queues (R58 … R64, R87, R98). -/

def QueueCfg.units (c : QueueCfg) : Nat := c.cmdSize / 8

/-- Reply records reserved and not yet written (`QUEUE.OWED`). -/
def QueueRt.owed (q : QueueRt) : Nat := q.flights.foldl (fun (s : Nat) (f : Flight) => s + (if f.res1 then 1 else 0) + (if f.res2 then 1 else 0)) 0

/-- Reply records free and unreserved (R64). One record stays unused, so that a full ring is no empty one, as R61 has it for command
rings (DESIGN CHOICE, log 142). -/
def QueueRt.freeRecords (q : QueueRt) (size : Nat) : Nat := size - 1 - (q.rplTail + size - q.rplHead) % size - q.owed

def portOfKey (key : Nat) : HostPort := if key < 8 then .pcie else .qspi

/-- Packets that wait in the ring of a queue are left there. -/
def MDie.dropHeld (d : MDie) (key : Nat) : MDie :=
  { d with rm := { d.rm with held := d.rm.held.filter (fun h => h.ring == 0 || h.rt.client != clientOf (portOfKey key) || h.rt.queue != key % 8) } }

/-- A queue enters DRAINING: fetching stops, its undispatched tasks are cancelled (R98, R119). -/
def MDie.queueDrain (d : MDie) (key : Nat) : MDie := (d.dropHeld key).cancelQueueTasks (portOfKey key) (key % 8)

/-- A queue halts (R87, R100): cause 1 `LEN`, 2 ring read, 3 write-back. -/
def MDie.queueHalt (d : MDie) (key cause seq : Nat) : MDie :=
  match d.queue? key with
  | none => d
  | some q =>
    let c := clientOf (portOfKey key)
    let e := faultEv Evt.queueFault d.tick0 (d16 c.toNat ++ d8 (key % 8) ++ d8 cause ++ d32 q.head ++ d32 seq)
    let d := d.setQueue key { q with halted := true }
    match d.queueObj key with
    | some (n, _) =>
      let (d, go) := (d.postTo (d.handle n) e c 0).faultMark n Evt.queueFault
      if go then d.queueDrain key else d
    | none => if key % 8 = 0 then d.postTo (d.handle 0) e c 0 else d

/-- Queues that drain and owe nothing reach their boundary (R98). -/
def MDie.queuesSettle (d : MDie) : MDie :=
  (d.slotsOf .queue).foldl (fun (d : MDie) n => match d.obj? n with
    | some o => match o.data with
      | .queue key => match d.queue? key with
        | some q => if o.life = .draining ∧ q.flights.any (fun f => f.holds) = false then d.toIdle n d.tick0 else d
        | none => d
      | _ => d
    | none => d) d

/-- `OBJECT_ENABLE` of a `QUEUE` (R87, R98): both rings start empty. -/
def MDie.queueEnableDo (d : MDie) (key : Nat) : MDie := (d.dropHeld key).setQueue key QueueRt.create

def queueEnableBad (o : Obj) : Bad :=
  badIf (o.params.u Par.queueCmdBase == 0 || o.params.u Par.queueRplBase == 0 || o.params.u Par.queueIdxAddr == 0) 10 .wrongState

/-- The create word of a `QUEUE` (R59). R59 names the hosts alone: a client that is none is refused with `DENIED` (DESIGN CHOICE, log 142). -/
def MDie.queueCreateBad (d : MDie) (client : U16) (w : Nat) : Bad :=
  firstBad [badIf (d.dieIndex != 0 || (hostOf client).isNone) 7 .denied, badIf (decide (7 < w)) 8 .badParam, badIf (w == 0) 9 .outOfRange,
    match hostOf client with
    | some p => badIf (d.queueObj (queueKey p (w % 8))).isSome 11 .noResource
    | none => none]

/-- A queue that exists no more. -/
def MDie.queueGone (d : MDie) (key : Nat) : MDie := { d with rm := { d.rm with queues := alDel d.rm.queues key } }

/-! The host window (R592, R593, R595). -/

/-- Bits of `INT_OUTSTANDING`. -/
def MDie.outstanding (d : MDie) (p : HostPort) : Nat :=
  let q := (List.range 8).foldl (fun (s : Nat) k => match d.queue? (queueKey p k) with
    | some q => if q.msgOut then s + 2 ^ k else s
    | none => s) 0
  ((d.rm.regs p).evr.zipIdx).foldl (fun (s : Nat) (x : EvRing × Nat) => if x.1.msgOut then s + 2 ^ (8 + x.2) else s) q

/-- `QSPI_IRQ_N` is asserted (R595). -/
def MDie.qspiIrq (d : MDie) : Bool :=
  let r := d.rm.qspi
  let o := d.outstanding .qspi
  (List.range 8).any (fun k => bitOf o k && !(r.vecRpl.getD k 0).getLsbD 31) ||
    (List.range 8).any (fun k => bitOf o (8 + k) && !((r.evr[k]?).map (fun e => e.vec.getLsbD 31)).getD true)

/-- ASCII name of the package. -/
def partName (dies : Nat) : List Byte := fitBytes 8 (if dies = 4 then [0x43, 0x48, 0x2D, 0x38] else if dies = 2 then [0x43, 0x48, 0x2D, 0x34] else [0x43, 0x48, 0x2D, 0x32])

/-- Half `i` of a 64-bit value. -/
def half (v i : Nat) : Nat := v / 2 ^ (32 * i) % 2 ^ 32

/-- An identity register (offsets 0x0000 … 0x003F). -/
def MDie.idWord (d : MDie) (off : Nat) : Nat :=
  match off / 4 with
  | 0 => 0x444D4843
  | 1 => d.nDies + 0xA1 * 256 + d.ownLevels.2 * 65536 + d.ownLevels.1 * 16777216
  | 2 => half d.serial.toNat 0
  | 3 => half d.serial.toNat 1
  | 4 => rdU (partName d.nDies) 0 4
  | 5 => rdU (partName d.nDies) 4 4
  | 6 => d.mram.lc + d.boot.stage * 256 + (if d.boot.ready then 65536 else 0) + (if d.rm.dlUp then 131072 else 0)
  | 8 => d.fab.node
  | 9 | 10 | 11 =>
    let k := off / 4 - 8
    if k < d.nDies ∧ d.heldBase ≠ 0xFFFF then d.heldBase + k else 0xFFFF
  | _ => 0

/-- The 32-bit word at an offset, a multiple of 4. -/
def MDie.windowRead (d : MDie) (p : HostPort) (off : Nat) : Nat :=
  let r := d.rm.regs p
  let q0 := d.queue? (queueKey p 0)
  if off < 0x40 then d.idWord off
  else if off = 0x40 then (if r.q0En then 1 else 0) + (if (q0.map (fun q => q.halted)).getD false then 256 else 0)
  else if off = 0x1000 ∨ off = 0x1004 then half r.cmdBase.toNat ((off - 0x1000) / 4)
  else if off = 0x1008 then r.cmdSize
  else if off = 0x1010 ∨ off = 0x1014 then half r.rplBase.toNat ((off - 0x1010) / 4)
  else if off = 0x1018 then r.rplSize
  else if off = 0x1020 ∨ off = 0x1024 then half r.idxAddr.toNat ((off - 0x1020) / 4)
  else if 0x3000 ≤ off ∧ off < 0x3100 then
    match r.evr[(off - 0x3000) / 32]? with
    | none => 0
    | some e => match off % 32 / 4 with
      | 0 | 1 => half e.base.toNat (off % 32 / 4)
      | 2 => e.size
      | 4 | 5 => half e.idxAddr.toNat (off % 32 / 4 - 4)
      | 6 => e.lost.toNat
      | _ => 0
  else if 0x4000 ≤ off ∧ off < 0x4020 then (r.vecRpl.getD ((off - 0x4000) / 4) 0).toNat
  else if 0x4020 ≤ off ∧ off < 0x4040 then ((r.evr[(off - 0x4020) / 4]?).map (fun e => e.vec.toNat)).getD 0
  else if off = 0x4040 then d.outstanding p
  else if p = .pcie ∧ 0x8000 ≤ off ∧ off < 0x8200 then rdU r.msixTable (off - 0x8000) 4
  else if p = .pcie ∧ off = 0x9000 then r.pba.toNat
  else 0

def MDie.setRegs (d : MDie) (p : HostPort) (f : HostRegs → HostRegs) : MDie := { d with rm := d.rm.setRegs p (f (d.rm.regs p)) }

/-- An address register takes half of its value: aligned, and inside the ring window for the QSPI host (log 38). -/
def putHalf (p : HostPort) (align : Nat) (old : U64) (i v : Nat) : U64 :=
  let n := if i = 0 then half old.toNat 1 * 2 ^ 32 + v else half old.toNat 0 + v * 2 ^ 32
  if n % align ≠ 0 ∨ (p = .qspi ∧ 0x10000 ≤ n) then old else BitVec.ofNat 64 n

/-- Ring registers of queue 0 (R593). A new size starts its ring empty (log 38). -/
def MDie.q0Write (d : MDie) (p : HostPort) (off v : Nat) : MDie :=
  if (d.rm.regs p).q0En then d
  else if off = 0x1000 ∨ off = 0x1004 then d.setRegs p (fun r => { r with cmdBase := putHalf p 4096 r.cmdBase ((off - 0x1000) / 4) v })
  else if off = 0x1008 then
    if 4096 ≤ v ∧ v ≤ 1048576 ∧ isPow2 v then
      let d := d.setRegs p (fun r => { r with cmdSize := v })
      match d.queue? (queueKey p 0) with
      | some q => d.setQueue (queueKey p 0) { q with head := 0, tail := 0 }
      | none => d
    else d
  else if off = 0x1010 ∨ off = 0x1014 then d.setRegs p (fun r => { r with rplBase := putHalf p 4096 r.rplBase ((off - 0x1010) / 4) v })
  else if off = 0x1018 then
    if 32 ≤ v ∧ v ≤ 32768 ∧ isPow2 v then
      let d := d.setRegs p (fun r => { r with rplSize := v })
      match d.queue? (queueKey p 0) with
      | some q => d.setQueue (queueKey p 0) { q with rplHead := 0, rplTail := 0 }
      | none => d
    else d
  else d.setRegs p (fun r => { r with idxAddr := putHalf p 8 r.idxAddr ((off - 0x1020) / 4) v })

/-- `HOST_CTRL.Q0_EN`. -/
def MDie.q0Enable (d : MDie) (p : HostPort) (on : Bool) : MDie := d.setRegs p (fun r => { r with q0En := on })

/-- `HOST_CTRL.Q0_RESTART` (R87). -/
def MDie.q0Restart (d : MDie) (p : HostPort) : MDie :=
  match d.queue? (queueKey p 0) with
  | some q => (d.dropHeld (queueKey p 0)).setQueue (queueKey p 0) { q with head := 0, tail := 0, halted := false, partly := false, behind := false }
  | none => d

/-- Is the queue's object past CREATED, or the queue 0? -/
def MDie.queueBegun (d : MDie) (key : Nat) : Bool := key % 8 == 0 || (match d.queueObj key with | some (_, o) => o.life != .created | none => false)

/-- May replies of the queue still be written: queue 0, or a `QUEUE` object ENABLED or DRAINING? -/
def MDie.writesReplies (d : MDie) (key : Nat) : Bool :=
  key % 8 == 0 || (match d.queueObj key with | some (_, o) => o.life == .enabled || o.life == .draining | none => false)

/-- Queues take doorbells once `READY` is high; queue 0 also in boot-ROM stage 0xF (R585). -/
def MDie.doorsOpen (d : MDie) (key : Nat) : Bool := !d.boot.inReset && (d.boot.ready || (d.boot.stage == 0xF && key % 8 == 0))

/-- A command-tail doorbell (R62, R593). -/
def MDie.cmdTail (d : MDie) (p : HostPort) (q v : Nat) : MDie :=
  let key := queueKey p q
  match d.queueCfg key, d.queue? key with
  | some c, some rt =>
    if !d.doorsOpen key ∨ !c.on then d
    else if c.units ≤ v then d.queueHalt key 2 0
    else d.setQueue key { rt with tail := v, partly := false }
  | _, _ => d

/-- A reply-head doorbell (R63, R80, R593). -/
def MDie.rplHead (d : MDie) (p : HostPort) (q v : Nat) : MDie :=
  let key := queueKey p q
  match d.queueCfg key, d.queue? key with
  | some c, some rt =>
    if !d.doorsOpen key ∨ !d.queueBegun key then d
    else if c.rplSize ≤ v then d.queueHalt key 2 0
    else d.setQueue key { rt with rplHead := v, msgOut := false }
  | _, _ => d

def MDie.modRing (d : MDie) (p : HostPort) (r : Nat) (f : EvRing → EvRing) : MDie := d.setRegs p (fun h => { h with evr := listMod h.evr r f })

/-- `EVR_HEADr` (R80). A head beyond the ring is discarded (log 38). -/
def MDie.evrHead (d : MDie) (p : HostPort) (r v : Nat) : MDie :=
  d.modRing p r (fun e => if e.size ≤ v then e else { e with head := v, msgOut := false })

/-- `EVR_SIZEr` (R593). -/
def MDie.evrSize (d : MDie) (p : HostPort) (r v : Nat) : MDie :=
  if v = 0 ∨ (32 ≤ v ∧ v ≤ 32768 ∧ isPow2 v) then d.modRing p r (fun e => { e with size := v, head := 0, tail := 0 }) else d

/-- Vectors that are pending and unmasked send their message. -/
def MDie.msixFire (d : MDie) : MDie :=
  (List.range 32).foldl (fun (d : MDie) v =>
    if d.rm.pcie.pba.getLsbD v ∧ !bitOf (rdU d.rm.pcie.msixTable (16 * v + 12) 4) 0 then
      (d.setRegs .pcie (fun r => { r with pba := r.pba &&& ~~~(BitVec.ofNat 32 (2 ^ v)) })).emit (.msix v)
    else d) d

/-- Write a 32-bit word at an offset, a multiple of 4. -/
def MDie.windowWrite (d : MDie) (p : HostPort) (off v : Nat) : MDie :=
  if off = 0x40 then
    let d := d.q0Enable p (bitOf v 0)
    if bitOf v 1 then d.q0Restart p else d
  else if (0x1000 ≤ off ∧ off < 0x100C) ∨ (0x1010 ≤ off ∧ off < 0x101C) ∨ off = 0x1020 ∨ off = 0x1024 then d.q0Write p off v
  else if 0x2000 ≤ off ∧ off < 0x2080 then
    (if off % 16 = 0 then d.cmdTail p ((off - 0x2000) / 16) v
     else if off % 16 = 4 then d.rplHead p ((off - 0x2000) / 16) v
     else d)
  else if 0x3000 ≤ off ∧ off < 0x3100 then
    let r := (off - 0x3000) / 32
    match off % 32 / 4 with
    | 0 | 1 => d.modRing p r (fun e => if e.size = 0 then { e with base := putHalf p 4096 e.base (off % 32 / 4) v } else e)
    | 2 => d.evrSize p r v
    | 3 => d.evrHead p r v
    | 4 | 5 => d.modRing p r (fun e => if e.size = 0 then { e with idxAddr := putHalf p 8 e.idxAddr (off % 32 / 4 - 4) v } else e)
    | 6 => d.modRing p r (fun e => { e with lost := e.lost &&& ~~~(BitVec.ofNat 32 v) })
    | _ => d
  else if 0x4000 ≤ off ∧ off < 0x4020 then
    d.setRegs p (fun r => { r with vecRpl := r.vecRpl.set ((off - 0x4000) / 4) (BitVec.ofNat 32 v &&& 0x8000001F) })
  else if 0x4020 ≤ off ∧ off < 0x4040 then d.modRing p ((off - 0x4020) / 4) (fun e => { e with vec := BitVec.ofNat 32 v &&& 0x8000001F })
  else if p = .pcie ∧ 0x8000 ≤ off ∧ off < 0x8200 then
    (d.setRegs p (fun r => { r with msixTable := r.msixTable.take (off - 0x8000) ++ d32 v ++ r.msixTable.drop (off - 0x8000 + 4) })).msixFire
  else d

/-- Does the lead die answer at all: not in reset, 1 ms after its release (R585)? In stage 0xE only the identity registers do. -/
def MDie.windowOpen (d : MDie) (off : Nat) : Bool :=
  d.dieIndex == 0 && !d.boot.inReset && (d.boot.stage != 0xE || decide (off < 0x40))

/-- A write access of a host (R592): a 32-bit word, or an aligned 64-bit one; another is discarded. -/
def MDie.hostAccess (d : MDie) (p : HostPort) (off : Nat) (b : List Byte) : MDie :=
  if !d.windowOpen off then d
  else if b.length = 4 ∧ off % 4 = 0 then d.windowWrite p off (rdU b 0 4)
  else if b.length = 8 ∧ off % 8 = 0 then (d.windowWrite p off (rdU b 0 4)).windowWrite p (off + 4) (rdU b 4 4)
  else d

/-! QSPI (R594, R595). -/

/-- Space of an address: 0 the window, 1 the ring window. -/
def qspiSpace (a : Nat) : Nat := a / 65536

/-- Is a transaction of `n` bytes well formed? -/
def qspiOk (a n : Nat) : Bool := a % 4 == 0 && n % 4 == 0 && (List.range (n / 4)).all (fun i => decide (qspiSpace (a + 4 * i) ≤ 1))
  && decide (qspiSpace a ≤ 1)

def MDie.qspiErr (d : MDie) : MDie := d.setRegs .qspi (fun r => { r with err := true })

/-- Write transaction. -/
def MDie.qspiWrite (d : MDie) (a : Nat) (b : List Byte) : MDie :=
  if d.dieIndex ≠ 0 ∨ d.boot.inReset then d
  else if !qspiOk a b.length then d.qspiErr
  else (List.range (b.length / 4)).foldl (fun (d : MDie) i =>
    let x := a + 4 * i
    let w := (b.drop (4 * i)).take 4
    if x < 0x8000 then (if d.windowOpen x then d.windowWrite .qspi x (rdU w 0 4) else d)
    else if x < 0x10000 then d
    else { d with mem := d.mem.write (0x3F0000 + x % 0x10000) w }) d

/-- Read transaction. Identity registers read before 1 ms after reset release are not defined (R585): free. -/
def MDie.qspiRead (d : MDie) (a n : Nat) : MDie :=
  if d.dieIndex ≠ 0 ∨ d.boot.inReset then d
  else if !qspiOk a n then d.qspiErr.emit (.qspi (List.replicate n 0))
  else
    let r := (List.range (n / 4)).foldl (fun (r : MDie × List Byte) i =>
      let x := a + 4 * i
      if x < 0x40 ∧ r.1.upNs < r.1.boot.released + 1000000 then (let y := r.1.draw (2 ^ 32); (y.1, r.2 ++ d32 y.2))
      else if x < 0x8000 then (r.1, r.2 ++ d32 (if r.1.windowOpen x then r.1.windowRead .qspi x else 0))
      else if x < 0x10000 then (r.1, r.2 ++ d32 0)
      else (r.1, r.2 ++ r.1.mem.sram.readN (0x3F0000 + x % 0x10000) 4)) (d, [])
    r.1.emit (.qspi r.2)

/-- Status instruction. -/
def MDie.qspiStatus (d : MDie) : MDie :=
  if d.dieIndex ≠ 0 ∨ d.boot.inReset then d
  else
    let v := (if d.boot.ready then 1 else 0) + (if d.qspiIrq then 2 else 0) + (if d.rm.qspi.err then 4 else 0)
    (d.setRegs .qspi (fun r => { r with err := false })).emit (.qspi [BitVec.ofNat 8 v])

/-! PCI Express (R591, R624). -/

/-- Reset of the PCI Express client: registers, queues, transfers. The cause that each halt reports is not given, and no ring can take it. -/
def MDie.pcieReset (d : MDie) : MDie :=
  let d := d.setRegs .pcie (fun _ => HostRegs.create)
  let d := (List.range 8).foldl (fun (d : MDie) q => match d.queue? (queueKey .pcie q) with
    | some rt => if rt.halted then d else d.queueHalt (queueKey .pcie q) 2 0
    | none => d) d
  (d.slotsOf .dmac).foldl (fun (d : MDie) n => match d.dmac? n with
    | some (_, c) =>
      let host : Bool := match c.phase, c.desc with
        | .fetch a, _ => dmaRegion a == 2
        | .burst _, some x => dmaRegion x.src == 2 || dmaRegion x.dst == 2
        | .finish, some x => dmaRegion x.dst == 2
        | _, _ => false
      if host then d.dmaErrorAnswer n 2 else d
    | none => d) d

def MDie.perstLow (d : MDie) : MDie := { d with rm := { d.rm with perstN := false, dlUp := false } }.pcieReset
def MDie.linkDown (d : MDie) : MDie := { d with rm := { d.rm with dlUp := false } }.pcieReset
def MDie.linkUp (d : MDie) : MDie := { d with rm := { d.rm with dlUp := true, perstN := true } }

/-! TAP (R596, R597). -/

/-- The instruction a code selects; unknown and locked ones act as `BYPASS`. -/
def tapInstr (lc code : Nat) : Nat :=
  if code = 1 ∨ code = 2 then code
  else if (code = 0 ∨ code = 4 ∨ code = 5) ∧ (lc = 0 ∨ lc = 1 ∨ lc = 3) then code
  else 0xFF

/-- Does the instruction hold the dies in reset? -/
def tapHolds (ir : Nat) : Bool := ir == 0 || ir == 4 || ir == 5

def idcodeOf (dies : Nat) : Nat := if dies = 4 then 0xA0C08A73 else if dies = 2 then 0xA0C04A73 else 0xA0C02A73

/-! Debug (R598 … R600). -/

def debugBad (d : MDie) (op : Op) (b : List Byte) : Bad :=
  let e := rdU b 0 1
  let lock : Bad := badIf (!(d.mram.lc == 1 || d.mram.lc == 3)) 7 .locked
  let eng : Bad := badIf (decide (1 < e)) 8 .badParam
  match op with
  | .dbgHalt => firstBad [lock, eng]
  | .dbgResume => firstBad [lock, eng]
  | .dbgStep =>
    let grp : Bad := match d.find (BitVec.ofNat 32 (rdU b 4 4)) with
      | some (_, o) => match o.data with
        | .lgrp g => if g.engine ≠ e then bad 8 .badParam else badIf (rdU b 2 1 == 1 && g.outer.isNone) 9 .outOfRange
        | _ => bad 8 .badParam
      | none => bad 8 .badParam
    firstBad [lock, eng, grp, badIf (decide (1 < rdU b 2 1)) 8 .badParam, badIf (rdU b 1 1 == 0) 9 .outOfRange,
      badIf (((d.engines[e]?).map (fun x => !x.halted)).getD true) 10 .wrongState]
  | .dbgCtxRead => firstBad [lock, eng, badIf (decide (1 < rdU b 1 1) || decide (4 < rdU b 2 1)) 8 .badParam, badIf (decide (7 < rdU b 3 1)) 9 .outOfRange]
  | _ => none

def MDie.modEngine (d : MDie) (e : Nat) (f : Engine → Engine) : MDie := { d with engines := listMod d.engines e f }

/-- `DBG_CTX_READ`. What the park bank holds is not given: free (log 36). -/
def MDie.ctxRead (d : MDie) (b : List Byte) : MDie × Result :=
  match d.engines[rdU b 0 1]? with
  | none => (d, noResult)
  | some e =>
    let k := rdU b 3 1
    let f := rdU b 2 1
    if rdU b 1 1 = 1 then
      let (d, v) := d.draw (if f = 4 then 2 ^ 56 else 2 ^ 18)
      (d, ⟨BitVec.ofNat 64 (if f = 4 then v % 2 ^ 24 + v / 2 ^ 24 * 2 ^ 32 else v), 0⟩)
    else
      let v : Int := match f with
        | 0 => (e.run.a.getD k 0 : Nat)
        | 1 => e.run.m.getD k 0
        | 2 => (e.run.b.getD k 0 : Nat)
        | 3 => (e.run.l.getD k 0 : Nat)
        | _ => (e.step + e.run.eflags % 256 * 65536 + e.group.toNat * 2 ^ 32 : Nat)
      (d, ⟨image64 v, 0⟩)

def MDie.debugDo (d : MDie) (op : Op) (b : List Byte) : MDie × Result :=
  let e := rdU b 0 1
  match op with
  | .dbgHalt => (d.modEngine e (fun x => if x.halted then x else { x with haltReq := true }), noResult)
  | .dbgResume => (d.modEngine e (fun x => if x.halted then { x with resumeReq := true } else { x with haltReq := false }), noResult)
  | .dbgStep => (d.modEngine e (fun x => { x with stepping := some (rdU b 1 1, rdU b 2 1, hSlot (BitVec.ofNat 32 (rdU b 4 4))) }), noResult)
  | .dbgCtxRead => d.ctxRead b
  | _ => (d, noResult)

/-- A requested halt takes effect at a step boundary (R330). A run is one step of this model, so it lies between runs (log 36): group 0. -/
def MDie.engineHalt (d : MDie) (e : Nat) : MDie :=
  match d.engines[e]? with
  | none => d
  | some x =>
    if !x.haltReq then d
    else (d.modEngine e (fun x => { x with haltReq := false, halted := true, resumeReq := false, since := d.upNs, stepping := none })).post 0
      (report Evt.engineHalted d.tick0 (d8 e ++ d8 1 ++ d16 0 ++ d32 0))

/-- The first gate after a resume tick (R599, R600): the engine runs again, and the generator once none is halted (R353). -/
def MDie.engineResume (d : MDie) (e : Nat) : MDie :=
  match d.engines[e]? with
  | none => d
  | some x =>
    if !x.halted ∨ !x.resumeReq then d
    else
      let d := (d.modEngine e (fun x => { x with halted := false, resumeReq := false, stepping := none })).post 0
        (report Evt.engineResumed d.tick0 (d8 e ++ [0, 0, 0] ++ d32 ((d.upNs - x.since) / 1000)))
      if d.frozen then d else d.pwmThaw

/-- States a list that was cut short has written: the words of a generated list are not given, so each is the old or the new (log 36). -/
def MDie.eitherOf (d : MDie) (old new : List Int) : MDie × List Int :=
  (old.zip new).foldl (fun (y : MDie × List Int) (x : Int × Int) =>
    let (d, v) := y.1.draw 2
    (d, y.2 ++ [if v = 0 then x.1 else x.2])) (d, [])

/-- `DBG_STEP` at the gate of the tick that started at `t` (R599): the section's steps run, no word is sent. -/
def MDie.debugStep (d : MDie) (e t : Nat) : MDie :=
  match d.engines[e]? with
  | none => d
  | some x => match x.stepping with
    | none => d
    | some (k, sec, n) => match d.lgrp? n with
      | none => d
      | some (o, g) =>
        let ps := o.params
        let p := classPeriod (ps.u Par.lgrpRateClass) * (if sec = 1 then ps.u Par.lgrpOuterDiv else 1)
        if (o.life ≠ .enabled ∧ o.life ≠ .draining) ∨ !isTick p t then d
        else match (if sec = 1 then g.outer else some g.inner) with
          | none => d
          | some s =>
            let (ds, zv, _) := d.latch n t (16 * sec) g.gateTick ps g s.dims
            let host : Bool := ps.u Par.lgrpListMode == 1
            let r := g.runSec ps (sec = 1) (if host then { s with steps := s.steps.take k } else s) ds zv (d.gateBytes n t g.gateTick ps g g.feNow)
            let whole : Bool := host || decide (lgrpSteps ps g (sec == 1) ≤ k)
            let (d, xs) := if whole then (d, r.sec.xs) else d.eitherOf s.xs r.sec.xs
            let (d, qs) := if whole then (d, r.sec.qs) else d.eitherOf s.qs r.sec.qs
            let s' := { r.sec with steps := s.steps, xs := xs, qs := qs }
            let ran := if host then min k (listInForce s.steps).length else min k (lgrpSteps ps g (sec == 1))
            let g := if sec = 1 then { g with outer := some s', data := r.data } else { g with inner := s', data := r.data }
            let d := d.setData n (.lgrp g)
            (d.modEngine e (fun x => { x with stepping := none, run := s'.ctx, step := ran, group := d.handle n })).post 0
              (report Evt.engineHalted d.tick0 (d8 e ++ d8 2 ++ d16 ran ++ d32 (d.handle n).toNat))

/-! Probes (R601, R602). -/

def probeEnableBad (d : MDie) : Bad := badIf (!(d.mram.lc == 1 || d.mram.lc == 3)) 7 .locked

end Sys2Proof.Machine
end

