-- ==== Sys2Proof/Machine/ResetDie.lean ====
section
/-! DEFINITION. Entering and leaving reset (R576 … R582, R586, R587). -/

namespace Sys2Proof.Machine

open Sys2Proof

/-- Nothing holds the die in reset: `RESET_N` is high, the supplies are good, no test instruction holds it (R576, R577, R597). -/
def MDie.mayRelease (d : MDie) : Bool := d.boot.resetN && d.boot.supplyOk.all id && !tapHolds d.tap.ir

/-- Balls that fall to their level in reset (R580). -/
def MDie.ballsLow (d : MDie) : MDie :=
  let d := if d.boot.ready && d.dieIndex == 0 then d.emit (.edge .ready d.ns false) else d
  let d := (d.gatePairs.zipIdx).foldl (fun (d : MDie) (x : GatePair × Nat) =>
    if x.1.ball.isSome then d.emit (.gate x.2 (max x.1.seen (ccOf d.ns)) none) else d) d
  let d := (d.probes.zipIdx).foldl (fun (d : MDie) (x : ProbeBall × Nat) => if x.1.level then d.emit (.edge (.probe x.2) d.ns false) else d) d
  (d.cmpOut.zipIdx).foldl (fun (d : MDie) (x : CmpBall × Nat) => if x.1.level then d.emit (.edge (.cmpOut x.2) d.ns false) else d) d

/-- The die in reset: the state of R562 that does not come back is gone, what survives stays, the field I/O holds its outputs (R410). -/
def MDie.wiped (d : MDie) (m : Mram) (causes : List Nat) : MDie :=
  let d := d.logicSilent.ballsLow
  let z := MDie.reset
  { z with time := d.time, upNs := d.upNs, dieIndex := d.dieIndex, nDies := d.nDies, serial := d.serial, mram := m
           rm := { z.rm with perstN := d.rm.perstN }
           boot := { z.boot with inReset := true, causes := causes, resetN := d.boot.resetN, supplyOk := d.boot.supplyOk }
           tap := d.tap, capIn := d.capIn, capSeen := d.capSeen, pwmFault := d.pwmFault, ss1Wire := d.ss1Wire, field := d.field, free := d.free, out := d.out }

/-- A cause of reset arises (R578, R579). Of a command whose journal records were being written, some may have reached the journal (R557). -/
def MDie.enterReset (d : MDie) (cause : Nat) : MDie :=
  let causes := cause :: d.boot.causes
  let lowest := causes.foldl min cause
  if d.boot.inReset then
    { d with boot := { d.boot with causes := causes }
             mram := { d.mram with resetCause := lowest, resetCount := if lowest = 1 then 0 else d.mram.resetCount } }
  else
    let (d, k) := d.draw (match d.mram.journal.pend with | p :: _ => p.2.length | [] => 1)
    d.wiped { d.mram with journal := d.mram.journal.cut k, resetCause := cause
                          resetCount := if cause = 1 then 0 else (d.mram.resetCount + 1) % 2 ^ 32 } [cause]

/-- The die leaves reset once nothing holds it: MTIME counts from zero (log 20), boot starts at stage 0 (R577, R583). -/
def MDie.releaseReset (d : MDie) : MDie :=
  if !d.boot.inReset || !d.mayRelease then d
  else
    { d with time := ⟨0, 0⟩, tick := 0, ss1Wire := [(d.wires, 0)]
             field := { d.field with chans := d.field.chans.map (fun c => c.shift (-(d.ns : Int))) }
             boot := { d.boot with inReset := false, causes := [], released := d.upNs, stage := 0 }
             mer := { d.mer with annAt := d.upNs, syncAt := d.upNs, pdelAt := d.upNs, lastSync := d.upNs } }

/-- Every record that waits is committed (R587). -/
def MDie.jFlush : Nat → MDie → MDie
  | 0, d => d
  | k + 1, d =>
    if d.mram.journal.snap.isSome then d.jCompacted.jFlush k
    else if d.mram.journal.pend = [] then d
    else if d.mram.journal.full then (let d := d.jCompact; d.jFlush k)
    else d.jCommit.jFlush k

/-- `SYS_RESET` at its tick (R587): the journal is committed, then the die resets. -/
def MDie.sysReset (d : MDie) : MDie := (d.jFlush (3 * d.mram.journal.pend.length + 4)).enterReset 6

/-- Checks of `SYS_RESET`. -/
def sysResetBad (d : MDie) (client : U16) (b : List Byte) : Bad :=
  firstBad [badIf (!d.mayConfigure client) 7 .denied, badIf (decide (1 < rdU b 0 1) || (rdU b 0 1 == 1 && d.dieIndex != 0)) 8 .badParam]

/-- A reset of one die by a cause of its own (R578): of this die, of the lead die, which takes every die with it, or of another, which
the lead die then treats as unreachable (R581). -/
def MDie.dieReset (d : MDie) (die cause : Nat) : MDie :=
  if die = d.dieIndex then d.enterReset cause
  else if die = 0 then (if d.boot.inReset then d else d.enterReset 9)
  else { d with diesUp := d.diesUp.filter (fun x => x ≠ die) }

end Sys2Proof.Machine
end

