-- ==== Sys2Proof/Machine/Objects.lean ====
section
/-! DEFINITION. The generic commands (R88 … R95) over every class: what a class refuses, how an object of it is created, enabled,
drained, read and written; and the checks and the effect of every opcode, handed to the chapter that owns it. -/

namespace Sys2Proof.Machine

open Sys2Proof

/-! Parameter entries (R89). -/

structure Entry where
  id : Nat
  ix : Nat
  /-- Bytes 4 … 7, reserved. -/
  res : Nat
  v : U64

def parEntry (b : List Byte) (off : Nat) : Entry := ⟨rdU b off 2, rdU b (off + 2) 2, rdU b (off + 4) 4, BitVec.ofNat 64 (rdU b (off + 8) 8)⟩

/-- The entries of a body. -/
def entriesOf (op : Op) (b : List Byte) : List Entry :=
  match op with
  | .objectCreate => (List.range (rdU b 2 2)).map (fun i => parEntry b (8 + 16 * i))
  | .paramSet => [parEntry b 0]
  | .paramSetMulti => (List.range (rdU b 0 2)).map (fun i => parEntry b (8 + 16 * i))
  | _ => []

/-- The row of a parameter that objects of a class have. -/
def rowOf (c : Class) (id : Nat) : Option ParamRow := (paramRow? id).filter (fun r => r.ofClass c)

/-- A route of R97: a client of R96 or none, no reserved origin, no reserved bit. R97 names no status for a route with origin 3 or one of
the bits [30:21] set: they answer `OUT_OF_RANGE`, as outside the Range column (DESIGN CHOICE, log 142). -/
def evtRouteOk (v : U64) : Bool :=
  let n := v.toNat
  let c := n % 65536
  decide (c ≤ 0x1002 ∨ c = 0xFFFF) && decide (bitsOf n 20 19 ≠ 3) && decide (bitsOf n 30 21 = 0)

def isQuota (id : Nat) : Bool := id == Par.systemQuotaHandles || id == Par.systemQuotaTasks || id == Par.systemQuotaBulk

/-- The checks a class adds to an entry; `ps` are the parameters with the entry written. -/
def MDie.parHook (d : MDie) (n : Nat) (o : Obj) (ps : Params) (id ix : Nat) (v : U64) : Bad :=
  match o.data with
  | .axis _ => firstBad [axisPar d id v, d.axisJoinBad n id ps]
  | .fbk f => fbkPar f id v
  | .path _ => d.pathPar n id v
  | .gear _ => gearPar d id v
  | .evt _ => evtPar d id v
  | .capt _ => captPar d id v
  | .lclk _ => lclkPar d id v
  | .lgrp g => d.lgrpPar n g ps id ix v
  | .trace _ => tracePar d ps id v
  | .pwmg g => pwmgPar o g ps id ix v
  | .dlane _ => firstBad [laneIndexBad o.params id ix, if id = Par.dlaneSlotAxis then bindBad d v [.axis] [] else none]
  | .sdin _ => sdinPar d id v
  | .fio _ => fioPar ps id v
  | .canc _ => cancPar id v
  | .dmac _ => dmacPar id v
  | .system => d.sysFabPar id
  | _ => none

/-- Handle parameters of which a rule names the status for a handle of another class: that is no matter of their Range column. -/
def ownClassStatus (id : Nat) : Bool :=
  [Par.axisFbk, Par.axisLgrp, Par.pathMember, Par.gearMaster, Par.gearSlave, Par.evtSource, Par.lclkSource].contains id

/-- Check 9 of a value by its row (R70, R89). -/
def ParamRow.plainRange (r : ParamRow) (v : U64) : Bool :=
  match r.rng with
  | .handle _ zero => if ownClassStatus r.id then r.fits v && (v != 0 || zero) else r.inRange v
  -- the value 3 has a status of its own (R359)
  | _ => r.inRange v || (r.id == Par.pwmgSafe && v == 3)

/-- Checks of one entry for an object (R6, R37, R89, R97). -/
def MDie.entryBad (d : MDie) (client : U16) (n : Nat) (o : Obj) (ps : Params) (e : Entry) : Bad :=
  match rowOf o.cls e.id with
  | none => bad 8 .badParam
  | some r =>
    let plain := firstBad [badIf (r.access == .ro) 7 .denied, badIf (isQuota e.id && !d.mayConfigure client) 7 .denied,
      badIf (e.res != 0 || (r.idx == 0 && e.ix != 0)) 8 .badParam, badIf (!r.indexOk e.ix || !r.plainRange e.v) 9 .outOfRange,
      badIf (e.id == Par.objectEvtRoute && !evtRouteOk e.v) 9 .outOfRange]
    let state := badIf (r.access == .rwl && (o.life == .enabled || o.life == .draining)) 10 .wrongState
    let own := match plain with
      | some _ => none
      | none => if r.cls.isSome then d.parHook n o ps e.id e.ix e.v else none
    firstBad [plain, own, state]

/-- What each of several entries fails by. -/
def MDie.entryBads (d : MDie) (client : U16) (n : Nat) (o : Obj) (es : List Entry) : List Bad :=
  (es.foldl (fun (acc : Params × List Bad) e =>
    let ps := acc.1.set e.id e.ix e.v
    (ps, acc.2 ++ [d.entryBad client n o ps e])) (o.params, [])).2

/-- Checks of several entries: the lowest check that one of them fails gives the status (R70), with the index of that entry (R90). -/
def MDie.entriesBad (d : MDie) (client : U16) (n : Nat) (o : Obj) (es : List Entry) : Bad :=
  firstBad (((d.entryBads client n o es).zipIdx).map (fun (x : Bad × Nat) => x.1.map (fun y => (y.1, y.2.1, ⟨y.2.2.r0, BitVec.ofNat 64 x.2⟩))))

/-- The same of `PARAM_SET_MULTI`, with the index of the first entry that fails any check (R94, log 62). -/
def MDie.multiBad (d : MDie) (client : U16) (n : Nat) (o : Obj) (es : List Entry) : Bad :=
  (d.entriesBad client n o es).map (fun y =>
    (y.1, y.2.1, ⟨y.2.2.r0, BitVec.ofNat 64 ((d.entryBads client n o es).findIdx (fun b => b.isSome))⟩))

/-! Creation (R59, R90). -/

/-- Does the class exist only in fixed slots? -/
def fixedOnly (c : Class) : Bool := [Class.system, .time, .prof, .port, .canc, .probe, .fio, .sdin, .dlane, .safe].contains c

/-- What a class refuses of a create word. -/
def MDie.classCreateBad (d : MDie) (client : U16) (c : Class) (w : Nat) : Bad :=
  match c with
  | .axis => axisCreateBad d w
  | .fbk => d.fbkCreateBad w
  | .path => pathCreateBad d w
  | .gear => gearCreateBad d w
  | .cam => camCreateBad d w
  | .evt => evtCreateBad d w
  | .capt => evtCreateBad d w
  | .lclk => lclkCreateBad d w
  | .lgrp => d.lgrpCreateBad w
  | .trace => traceCreateBad d w
  | .pwmg => d.pwmgCreateBad w
  | .dmac => d.dmacCreateBad w
  | .canmb => d.canmbCreateBad (BitVec.ofNat 32 w)
  | .queue => d.queueCreateBad client w
  | _ => none

/-- Parameters and class part of a new object, before its entries and without the memory it takes. -/
def MDie.template (d : MDie) (client : U16) (c : Class) (w : Nat) : Option (Params × ObjData) :=
  match c with
  | .axis => some ([], .axis Axis.create)
  | .fbk => some (fbkInitial w, .fbk (Fbk.create w))
  | .path => some ([], .path Path.create)
  | .gear => some ([], .gear Gear.create)
  | .cam => some ([], .cam ⟨w % 32768, 0, camBytes (w % 32768)⟩)
  | .evt => some ([], .evt Cmp.create)
  | .capt => some ([], .capt Capt.create)
  | .lclk => some ([], .lclk (Lclk.create w))
  | .lgrp => some (lgrpInitial w, .lgrp (Lgrp.create w ((d.chooseEngine w).getD 0)))
  | .trace => some ([], .trace Trace.create)
  | .pwmg => some ([], .pwmg (Pwmg.create (bitsOf w 11 0)))
  | .dmac => some ([], .dmac (Dmac.create ((d.dmacChan w).getD 0)))
  | .canmb => match Canmb.create (BitVec.ofNat 32 w) with
    | .ok m => some ([], .canmb m)
    | .error _ => none
  | .queue => (hostOf client).map (fun p => ([], .queue (queueKey p (w % 8))))
  | _ => none

/-- The object in CREATED, before its entries. -/
def newObj (w : Nat) (client charge : U16) (origin : Nat) (ps : Params) (x : ObjData) : Obj :=
  { word := BitVec.ofNat 32 w, life := .created, owner := client, charged := charge, faultCause := 0, drainClient := noClient, drainAt := 0
    params := Params.set ps Par.objectEvtRoute 0 (evtRouteOf client origin), data := x }

def MDie.createBad (d : MDie) (client charge : U16) (b : List Byte) : Bad :=
  match classOfCode (rdU b 0 1) with
  | none => bad 8 .badParam
  | some .task => bad 8 .badParam
  | some c =>
    if fixedOnly c then bad 7 .denied
    else
      let w := rdU b 4 4
      firstBad [badIf (decide (d.quota Par.systemQuotaHandles charge.toNat ≤ d.useHandles charge)) 11 .overQuota,
        badIf d.nextSlot.isNone 11 .noResource, d.classCreateBad client c w,
        match d.template client c w with
        | some (ps, x) => d.entriesBad client 4096 (newObj w client charge 0 ps x) (entriesOf .objectCreate b)
        | none => none]

/-! Writing (R89, R93, R94). -/

/-- Store one entry as its access says; a write-only parameter stores nothing. -/
def MDie.storeEntry (d : MDie) (n : Nat) (e : Entry) : MDie :=
  d.modObj n (fun o => match (paramRow? e.id).map (fun r => r.access) with
    | some Access.w1c => { o with params := o.params.set e.id e.ix (o.params.get e.id e.ix &&& ~~~e.v) }
    | some Access.wo => o
    | _ => { o with params := o.params.set e.id e.ix e.v })

/-- A handle quota written below the present use is reported once (R39). -/
def MDie.quotaNote (d : MDie) (e : Entry) : MDie :=
  let use := d.useHandles (BitVec.ofNat 16 e.ix)
  if e.id = Par.systemQuotaHandles ∧ e.v.toNat < use then
    d.post 0 (report Evt.quotaExceeded d.tick0 (d16 e.ix ++ [0, 0] ++ d16 e.v.toNat ++ d16 use))
  else d

/-- What the entries written do beyond their storing, by class. -/
def MDie.writtenHook (d : MDie) (n t : Nat) (o : Obj) (es : List Entry) : MDie :=
  let one (p : Nat → Bool) (f : MDie → Nat → MDie) : MDie := match es.find? (fun e => p e.id) with
    | some e => f d e.id
    | none => d
  match o.data with
  | .axis _ =>
    -- one replanning for the write, with the cause of R181 that one of its entries gives
    match (es.find? (fun e => e.id == Par.axisDecel || e.id == Par.axisJerk)) <|> (es.find? (fun e => e.id == Par.axisVelLimit || e.id == Par.axisAccel)) with
    | some e => d.axisWritten n t e.id
    | none => one isLimit (fun d id => d.axisWritten n t id)
  | .path _ => one isPathLimit (fun d id => d.pathWritten n t id)
  | .lclk _ => one (fun id => id == Par.lclkPosDelay || id == Par.lclkPosDelayFrac || id == Par.lclkTimeDelay) (fun d id => d.lclkWritten n t id)
  | .fbk _ => es.foldl (fun (d : MDie) e => d.fbkWritten n e.id e.v) d
  | .lgrp _ => es.foldl (fun (d : MDie) e => d.lgrpWritten n e.id e.v) d
  | .fio k => es.foldl (fun (d : MDie) e => d.fioWritten k t e.id e.v) d
  | .system => es.foldl (fun (d : MDie) e =>
      let d := d.quotaNote e
      if e.id = Par.systemQuotaBulk then
        d.bulkWritten e.ix (match alGet o.params (paramKey e.id e.ix) with | some v => v.toNat | none => quotaDefault e.id e.ix)
      else d) d
  | _ => d

/-- Write entries at a tick. The shadow parameters of a running PWM group go as one write to its shadow set (R343, R345). -/
def MDie.applyEntries (d : MDie) (n t : Nat) (es : List Entry) : MDie :=
  match d.obj? n with
  | none => d
  | some o =>
    let shadow (e : Entry) : Bool := o.cls == .pwmg && (o.life == .enabled || o.life == .draining) && isShadow e.id
    let d := d.pwmShadow n t ((es.filter shadow).map (fun e => (e.id, e.ix, e.v)))
    let plain := es.filter (fun e => !shadow e)
    let d := plain.foldl (fun (d : MDie) e => d.storeEntry n e) d
    d.writtenHook n t o plain

/-- The records of entries written (R555). -/
def MDie.noteEntries (d : MDie) (n : Nat) (es : List Entry) : List JRec := d.jEntries n (es.map (fun e => (e.id, e.ix, e.v)))

def MDie.paramSet (d : MDie) (n t : Nat) (es : List Entry) : MDie :=
  let d := d.applyEntries n t es
  d.jnote (d.noteEntries n es)

/-- The value as stored (R93). -/
def storedValue (e : Entry) : U64 := if e.id = Par.fbkSsiClock then BitVec.ofNat 64 (ssiClockStored e.v.toNat) else e.v

/-- `OBJECT_CREATE` takes effect. -/
def MDie.createDo (d : MDie) (client charge : U16) (origin : Nat) (newSlot : Option Nat) (t : Nat) (b : List Byte) : MDie × Result :=
  let slot := match newSlot with | some n => some n | none => d.nextSlot
  match slot, classOfCode (rdU b 0 1) with
  | some n, some c =>
    let w := rdU b 4 4
    match d.template client c w with
    | none => (d, noResult)
    | some (ps, x) =>
      let (d, x) := if c = .cam then d.camCreate n w else (d, x)
      let es := entriesOf .objectCreate b
      let d := d.occupy n (.obj (newObj w client charge origin ps x))
      let d := match x with | .queue key => d.setQueue key QueueRt.create | _ => d
      let d := d.applyEntries n t es
      let d := match d.obj? n with
        | some o => if journalled c then d.jnote (d.jCreate n o :: d.noteEntries n es) else d
        | none => d
      (d, ⟨(d.handle n).setWidth 64, 0⟩)
  | _, _ => (d, noResult)

/-! Life (R26, R30, R35). -/

/-- Objects whose life no command changes (R26). -/
def alwaysOn (c : Class) : Bool := c == .system || c == .time || c == .safe

/-- What a class refuses of an enable. -/
def MDie.classEnableBad (d : MDie) (n : Nat) (o : Obj) : Bad :=
  match o.data with
  | .axis _ => firstBad [axisEnableBad d o, d.axisLaneBad n]
  | .fbk f => fbkEnableBad o f
  | .path _ => d.pathEnableBad o
  | .gear _ => d.gearEnableBad n o
  | .cam c => d.camEnableBad c
  | .evt _ => d.evtEnableBad o
  | .lclk _ => d.lclkEnableBad o
  | .lgrp g => d.lgrpEnableBad n o g
  | .trace _ => d.traceEnableBad n o
  | .pwmg _ => d.pwmgEnableBad o
  | .sdin _ => d.sdinEnableBad o
  | .dlane _ => d.laneEnableBad o
  | .fio _ => d.fioEnableBad o
  | .port k => d.portEnableBad k
  | .canc _ => d.cancEnableBad o
  | .dmac _ => d.dmacEnableBad o
  | .queue _ => queueEnableBad o
  | _ => none

def MDie.enableBad (d : MDie) (n : Nat) (o : Obj) : Bad :=
  if alwaysOn o.cls then bad 7 .denied
  else
    firstBad [match o.data with
      | .probe _ => probeEnableBad d
      | .port k => d.portEnableBad k
      | _ => none,
      match o.life with
      | .enabled => none
      | .draining => bad 10 .busy
      | _ => d.classEnableBad n o]

/-- What a class refuses of a disable. -/
def MDie.classDisableBad (d : MDie) (n : Nat) (o : Obj) : Bad :=
  match o.data with
  | .axis _ => firstBad [d.axisDisableBad n, d.axisGroupBad o]
  | .fbk _ => d.fbkDisableBad n
  | .cam _ => match d.camUser n with
    | some h => busyOf h
    | none => none
  | .sdin _ => d.sdinDisableBad n
  | .dlane _ => d.laneDisableBad n
  | .fio k => d.fioDisableBad k
  | _ => none

def MDie.disableBad (d : MDie) (n : Nat) (o : Obj) : Bad :=
  if alwaysOn o.cls then bad 7 .denied
  else
    firstBad [match o.data with
      | .port k => MDie.portDisableBad k
      | _ => none,
      if o.life = .enabled then d.classDisableBad n o else none]

def MDie.destroyBad (d : MDie) (n : Nat) (o : Obj) : Bad :=
  if n < 256 then bad 7 .denied
  else if o.life = .enabled ∨ o.life = .draining then bad 10 .wrongState
  else match d.refTo n with
    | some h => busyOf h
    | none => none

/-- What a class does at its enable. -/
def MDie.classEnableDo (d : MDie) (n t : Nat) (x : ObjData) : MDie :=
  match x with
  | .axis _ => d.axisEnableDo n t
  | .fbk _ => d.fbkEnableDo n t
  | .path _ => d.pathEnableDo n t
  | .gear _ => d.gearEnableDo n t
  | .capt c => d.setData n (.capt { c with armed := true, count := 0, last := none, level := (match d.obj? n with | some o => d.captLevel o.params | none => false) })
  | .lclk _ => d.lclkEnableDo n
  | .lgrp _ => d.lgrpEnableDo n
  | .trace _ => d.traceEnableDo n
  | .pwmg _ => d.pwmgEnableDo n t
  | .dlane _ => d.laneEnableDo n t
  | .fio k => d.fioEnableDo k t
  | .port k => d.portEnableDo k
  | .canc _ => d.cancEnableDo n t
  | .dmac _ => d.dmacEnableDo n
  | .queue key => d.queueEnableDo key
  | _ => d

/-- `OBJECT_ENABLE` takes effect (R30). -/
def MDie.enableDo (d : MDie) (n t : Nat) : MDie :=
  match d.obj? n with
  | none => d
  | some o => if o.life = .created ∨ o.life = .disabled then (d.setLife n .enabled).classEnableDo n t o.data else d

/-- What a class does at its entry to DRAINING; the boundary may be reached at once (R31). -/
def MDie.classDrain (d : MDie) (n t : Nat) (x : ObjData) : MDie :=
  match x with
  | .axis _ => d.axisHalt n 0 t false
  | .path _ => d.pathDrain n t
  | .gear _ => (d.slaveFree n t).toIdle n t
  | .evt _ => d.evtDrain n t
  | .lclk _ => d.lclkDrain n t
  | .lgrp _ => d.lgrpStop n t
  | .sdin _ => d.sdinDrain n t
  | .dlane _ => d.laneDrain n
  | .fio k => d.fioDrain k t
  | .port k => d.portWithdraw k
  | .canc _ => d.cancDrain n t
  | .dmac _ => d.dmaStop n 2
  | .queue key => d.queueDrain key
  | .fbk _ => d
  | .trace _ => d
  | .pwmg _ => d
  | _ => d.toIdle n t

/-- `OBJECT_DISABLE` takes effect. -/
def MDie.disableDo (d : MDie) (n : Nat) (client : U16) (t : Nat) : MDie :=
  match d.obj? n with
  | none => d
  | some o => if o.life = .enabled then (d.toDraining n 0 client).classDrain n t o.data else d

/-- `OBJECT_DESTROY` takes effect: what the object held is free again (R28, R547). -/
def MDie.destroyDo (d : MDie) (n : Nat) : MDie :=
  match d.obj? n with
  | none => d
  | some o =>
    if n < 256 ∨ o.life = .enabled ∨ o.life = .draining then d
    else
      let recs := d.jDestroy n o
      let d := match o.data with
        | .cam _ => { d with mem := d.mem.release n }
        | .trace _ => { d with mem := d.mem.release n }
        | .queue key => d.queueGone key
        | _ => d
      (d.vacate n).jnote recs

/-! Reading (R92). -/

/-- Supply and temperature readings: within the range of R588, otherwise free (log 20). -/
def MDie.sensor (d : MDie) (id : Nat) : Option (MDie × Int) :=
  if id = Par.systemSupplyMv then (let (d, v) := d.draw 4001; some (d, v))
  else if id = Par.systemDieTemp then (let (d, v) := d.draw 1901; some (d, (v : Int) - 400))
  else none

/-- Read-only values of `SYSTEM` (R99, R415, R588). -/
def MDie.sysRead (d : MDie) (id ix : Nat) : Option Int :=
  let c : U16 := BitVec.ofNat 16 ix
  if isQuota id then some (d.quota id ix : Nat)
  else if id = Par.systemUseHandles then some (d.useHandles c : Nat)
  else if id = Par.systemUseTasks then some (d.taskUseOf c : Nat)
  else if id = Par.systemUseActions then some ((d.rm.actions.filter (fun a => a.charge = c)).length : Nat)
  else if id = Par.systemFreeSlots then some (d.freeSlots : Nat)
  else if id = Par.systemFreeActions then some (2048 - d.rm.actions.length : Nat)
  else if id = Par.systemBootStage then some d.boot.stage
  else if id = Par.systemResetCause then some d.mram.resetCause
  else if id = Par.systemResetCount then some d.mram.resetCount
  else if id = Par.systemBootTime then some d.boot.bootUs
  else if id = Par.systemDieIndex then some d.dieIndex
  else if id = Par.systemSerial then some d.serial.toNat
  else if id = Par.systemFieldMv then some d.field.mv
  else if id = Par.systemFieldMa then some (d.field.chans.foldl (fun (s : Nat) c => s + c.out.ma) 0 : Nat)
  else match d.sysFabRead id ix with
    | some v => some v
    | none => d.sysRetainRead id ix

def MDie.queueRead (d : MDie) (key id : Nat) : Option Int :=
  match d.queue? key with
  | none => none
  | some q =>
    if id = Par.queueIndex then some (key % 8 : Nat)
    else if id = Par.queueOwed then some (q.owed : Nat)
    else if id = Par.queueFetched then some q.fetched.toNat
    else none

/-- A value a class computes; none for one that is stored. -/
def MDie.classRead (d : MDie) (n : Nat) (o : Obj) (id ix : Nat) : Option Int :=
  match o.data with
  | .system => d.sysRead id ix
  | .time => d.timeRead id ix
  | .prof _ => d.profRead n id
  | .port k => d.portRead k id ix
  | .canc c => cancRead c id ix
  | .probe _ => none
  | .fio k => d.fioRead k o id
  | .sdin x => sdinRead x id
  | .dlane l => laneRead l id ix
  | .safe k => d.safeRead k id
  | .axis a => d.axisRead n o a id
  | .fbk f => fbkRead f id ix
  | .path p => MDie.pathRead p (d.tickOf n) id
  | .gear g => d.gearRead o g id
  | .cam c => d.camRead c id
  | .evt c => evtRead c id
  | .capt c => captRead c id ix
  | .lclk l => lclkRead o l id
  | .lgrp g => d.lgrpRead n o g id ix
  | .trace x => d.traceRead o x id
  | .pwmg g => d.pwmgRead o g id ix
  | .dmac c => dmacRead c id
  | .canmb m => canmbRead m id
  | .queue key => d.queueRead key id

/-- A parameter value of an object (R89, R97); a write-only one reads as zero (R6). -/
def MDie.paramValue (d : MDie) (n : Nat) (o : Obj) (id ix : Nat) : MDie × U64 :=
  if id = Par.objectState then (d, BitVec.ofNat 64 o.life.code)
  else if id = Par.objectOwner then (d, o.owner.setWidth 64)
  else if id = Par.objectEvtRoute ∨ id = Par.objectEvtMask then (d, o.params.get id)
  else match (if o.cls = .system then d.sensor id else none) with
    | some (d, v) => (d, image64 v)
    | none => match d.classRead n o id ix with
      | some v => (d, image64 v)
      | none => (d, if ((paramRow? id).map (fun r => r.access)) = some .wo then 0 else o.params.get id ix)

def MDie.paramGet (d : MDie) (n : Nat) (b : List Byte) : MDie × Result :=
  let id := rdU b 0 2
  let ix := rdU b 2 2
  match d.obj? n with
  | none => (d, noResult)
  | some o =>
    let (d, v) := d.paramValue n o id ix
    (d, ⟨v, BitVec.ofNat 64 (id + 65536 * ix)⟩)

def MDie.paramGetBad (n : Nat) (o : Obj) (b : List Byte) : Bad :=
  let id := rdU b 0 2
  let ix := rdU b 2 2
  match rowOf o.cls id with
  | none => bad 8 .badParam
  | some r =>
    firstBad [badIf (r.idx == 0 && ix != 0) 8 .badParam, badIf (o.cls == .safe && r.cls.isSome && !safeApplies n id) 8 .badParam,
      badIf (!r.indexOk ix) 9 .outOfRange,
      match o.data with
      | .lgrp g => lgrpIndexBad g id ix
      | .pwmg g => pwmgIndexBad g id ix
      | .dlane _ => laneIndexBad o.params id ix
      | _ => none]

/-- `SYS_IDENTIFY` (R587). -/
def MDie.identify (d : MDie) : Result :=
  ⟨d.serial, BitVec.ofNat 64 (d.nDies + 256 * d.dieIndex + 65536 * 0xA1 + 2 ^ 24 * d.ownLevels.2 + 2 ^ 32 * d.ownLevels.1 + 2 ^ 40 * d.mram.lc
    + 2 ^ 48 * (d.fab.node % 65536))⟩

/-! Every opcode: what refuses it (checks 7 … 12 of R70). -/

/-- Refusals of an opcode by the class of its target. -/
def MDie.objOpBad (d : MDie) (op : Op) (client : U16) (n : Nat) (o : Obj) (b : List Byte) : Bad :=
  match o.data with
  | .axis a => d.axisOpBad n op o a b
  | .path p => d.pathOpBad op n o p b
  | .fbk f => d.fbkOpBad op o f b
  | .gear _ => gearOpBad d op o b
  | .evt _ => evtOpBad op o b
  | .capt _ => needEnabled o
  | .lclk _ => lclkOpBad op o b
  | .lgrp g => d.lgrpOpBad op n o g b
  | .trace x => d.traceOpBad op o x b
  | .pwmg g => pwmOpBad (!d.debugOpen) op o g b
  | .dlane _ => laneOpBad op o b
  | .fio _ => d.fioOpBad op o b
  | .safe k => d.safeOpBad k b
  | .port _ => needEnabled o
  | .time => d.timeOpBad op b
  | .dmac c => MDie.dmaOpBad op o c b
  | .canc c => d.cancOpBad op o c b
  | .canmb _ => canmbOpBad o b
  | .prof _ => d.retainOpBad op client n b
  | _ => none

/-- Refusals of an opcode addressed to `SYSTEM`. -/
def MDie.sysOpBad (d : MDie) (op : Op) (client : U16) (o : Obj) (b : List Byte) : Bad :=
  match op with
  | .sysReset => sysResetBad d client b
  | .fabricCommit => d.commitBad b
  | .fabricRouteGet => MDie.routeGetBad b
  | .fioWriteMask => d.fioOpBad op o b
  | .fioReadAll => d.fioOpBad op o b
  | .dbgHalt => debugBad d op b
  | .dbgResume => debugBad d op b
  | .dbgStep => debugBad d op b
  | .dbgCtxRead => debugBad d op b
  | _ => if op.groupE then d.retainOpBad op client 0 b else none

/-- Refusals of an opcode aimed at the object in a slot; `charge` is the client whose quota and action slots it uses. -/
def MDie.opBad (d : MDie) (op : Op) (client charge : U16) (n : Nat) (o : Obj) (b : List Byte) : Bad :=
  match op with
  | .nop => none
  | .sysIdentify => none
  | .taskWait => none
  | .taskCancelAll => d.taskOpBad op client 0 b
  | .objectCreate => d.createBad client charge b
  | .objectDestroy => d.destroyBad n o
  | .objectEnable => d.enableBad n o
  | .objectDisable => d.disableBad n o
  | .paramGet => MDie.paramGetBad n o b
  | .paramSet => match d.entriesBad client n o (entriesOf .paramSet b) with
    | some (k, s, r) => some (k, s, ⟨r.r0, 0⟩)
    | none => none
  | .paramSetMulti => firstBad [badIf (rdU b 0 2 == 0) 9 .outOfRange, d.multiBad client n o (entriesOf .paramSetMulti b)]
  | _ => if o.cls = .system then d.sysOpBad op client o b else d.objOpBad op client n o b

/-! Every opcode: what it does at its tick. -/

/-- Effect of an opcode addressed to `SYSTEM`. -/
def MDie.sysDo (d : MDie) (a : Action) (t : Nat) : MDie × Result :=
  let b := a.pkt.body
  match a.op with
  | .sysReset => (d.sysReset, noResult)
  | .sysIdentify => (d, d.identify)
  | .fabricCommit => (d, noResult)
  | .fabricRouteGet => (d, d.routeGet b)
  | .fioWriteMask => d.fioDo a.op 0 t b
  | .fioReadAll => d.fioDo a.op 0 t b
  | .dbgHalt => d.debugDo a.op b
  | .dbgResume => d.debugDo a.op b
  | .dbgStep => d.debugDo a.op b
  | .dbgCtxRead => d.debugDo a.op b
  | .journalSync => (d.journalSync a.rt t, noResult)
  | _ => if a.op.groupE then d.retainDo a.op 0 b else (d, noResult)

/-- Effect of an opcode of a class on its target. -/
def MDie.objDo (d : MDie) (op : Op) (n t : Nat) (o : Obj) (b : List Byte) : MDie × Result :=
  match o.data with
  | .axis _ => d.motionDo op n t b
  | .path _ => d.motionDo op n t b
  | .fbk _ => d.fbkDo op n t b
  | .gear _ => d.orreryDo op n t b
  | .evt _ => d.orreryDo op n t b
  | .capt _ => d.orreryDo op n t b
  | .lclk _ => d.orreryDo op n t b
  | .lgrp _ => d.lgrpDo op n t b
  | .trace _ => d.traceDo op n t b
  | .pwmg _ => (d.pwmDo op n t b, noResult)
  | .dlane _ => d.laneDo op n b
  | .fio _ => d.fioDo op n t b
  | .safe _ => (d, d.safeLog b)
  | .port k => (if o.life = .enabled then d.portRetrain k else d, noResult)
  | .time => d.timeDo op b
  | .dmac _ => d.dmaDo op n b
  | .canc _ => d.cancDo op n t b
  | .canmb _ => d.canmbDo n b
  | .prof _ => d.retainDo op n b
  | _ => (d, noResult)

/-- A command takes effect at the tick that starts at `t` (R48, R49). One whose target exists no more has no effect. -/
def MDie.eff (d : MDie) (a : Action) (t : Nat) : MDie × Result :=
  let b := a.pkt.body
  match a.op with
  | .taskCancel => d.taskDo a.op a.pkt.target b
  | .taskSignal => d.taskDo a.op a.pkt.target b
  | .taskCancelAll => d.taskDo a.op a.pkt.target b
  | .taskWait => (d, noResult)
  | .nop => (d, noResult)
  | .objectCreate => d.createDo a.pkt.client a.charge a.pkt.origin.toNat a.newSlot t b
  | _ => match d.find a.pkt.target with
    | none => (d, noResult)
    | some (n, o) => match a.op with
      | .objectDestroy => (d.destroyDo n, noResult)
      | .objectEnable => (d.enableDo n t, noResult)
      | .objectDisable => (d.disableDo n a.pkt.client t, noResult)
      | .paramGet => d.paramGet n b
      | .paramSet => (d.paramSet n t (entriesOf .paramSet b), ⟨storedValue (parEntry b 0), 0⟩)
      | .paramSetMulti => (d.paramSet n t (entriesOf .paramSetMulti b), noResult)
      | .canTx => (d.canTxDue n a.seq t, noResult)
      | .moveRel => (d.axisDo n t (.moveRel (posAt b 0) a.chained), noResult)
      | _ => if o.cls = .system then d.sysDo a t else d.objDo a.op n t o b

end Sys2Proof.Machine
end

