-- ==== Sys2Proof/Machine/Probe.lean ====
section
/-! DEFINITION. The balls of the `PROBE` objects (R601): the level a point has, the pulses a step gives it, the edges at the ball. -/

namespace Sys2Proof.Machine

open Sys2Proof

/-- A pulse of a probe point: it starts less than `jitter` (0: exactly) after `start`, and lasts `width`; 0: not stated. -/
structure ProbePulse where
  start : Nat
  jitter : Nat
  width : Nat
  deriving DecidableEq, Repr

def strobe (t : Nat) : ProbePulse := ⟨t, 0, 0⟩

/-- Points that are levels; every other point is low between its pulses. The level of points 6 and 57 at the end of a step is not given:
a free bit (log 135). -/
def MDie.probeLevel (d : MDie) (p free : Nat) : Bool :=
  if 20 ≤ p ∧ p ≤ 23 then !(d.pwmFault[p - 20]?.getD false)
  else if 26 ≤ p ∧ p ≤ 31 then d.capSeen[p - 26]?.getD false
  else if p = 45 then decide (d.ss1Seen ≠ 0)
  else if p = 48 ∨ p = 49 then (d.ports[p - 46]?).any (fun x => x.link = 2 || 0 < x.ready)
  else if p = 54 ∨ p = 55 then d.portUp (p - 54)
  else if p = 6 ∨ p = 57 then decide (free = 1)
  else false

/-- Is there an axis of which this holds, before and after the step? -/
def MDie.anyAxis (b d : MDie) (f : Axis → Axis → Bool) : Bool :=
  (d.slotsOf .axis).any (fun n => match b.axis? n, d.axis? n with
    | some (_, x), some (_, y) => f x y
    | _, _ => false)

/-- Is there an enabled feedback channel of which this holds? -/
def MDie.anyFbk (d : MDie) (f : Nat → Obj → Fbk → Bool) : Bool :=
  (d.slotsOf .fbk).any (fun n => match d.fbk? n with
    | some (o, x) => o.life = .enabled && f n o x
    | none => false)

/-- Longest class period of the enabled groups of an engine that have a tick at `T`; `inner` and `outer` sections or outer ones only. -/
def MDie.engineTick (d : MDie) (e T : Nat) (outer : Bool) : Nat :=
  ((d.slotsOf .lgrp).filterMap (fun n => match d.lgrp? n with
    | some (o, g) =>
      let p := classPeriod (o.params.u Par.lgrpRateClass)
      if o.life = .enabled ∧ g.engine = e ∧ isTick p T ∧ d.lgrpHalted g = false ∧ (outer = false ∨ g.outer.isSome) then some p else none
    | none => none)).foldl max 0

/-- A point of a Loop Engine: somewhere between the gate and 0.5 µs before the next tick (R282). -/
def loopPulse (T p : Nat) : List ProbePulse := if p = 0 then [] else [⟨T + 1000, p - 1500, 0⟩]

/-- Snapshots or conversions since the tick before: one each 500 ns (R126). -/
def snapshots (T : Nat) : List ProbePulse := (List.range 32).map (fun i => strobe (T - 15500 + 500 * i))

/-- Windows of 10 µs of the field inputs that began since the tick before (R395). -/
def MDie.fieldWindows (d : MDie) (T : Nat) : List ProbePulse :=
  (((List.range 32).filterMap (fun c => match d.chan? c with
    | some (o, ch) =>
      let p := fioPeriod o.params
      if o.life = .enabled ∧ (ch.role = 1 ∨ ch.role = 2) ∧ p ≠ 0 ∧ T - T / p * p < 16000 then some (T / p * p) else none
    | none => none)).eraseDups).map (fun t => ⟨t, 0, 10000⟩)

/-- The frames a port sent in the step: sequence number and message. -/
def MDie.framesOut (d : MDie) (k : Nat) : List (Nat × FabMsg) :=
  d.out.filterMap (fun o => match o with
    | .line j (.frame q m) => if j = k then some (q, m) else none
    | _ => none)

/-- Pulses of the points that a sample tick gives. -/
def MDie.tickPulses (b d : MDie) (p : Nat) : List ProbePulse :=
  let T := d.tick
  if p < 5 then (if isTick (classPeriod p) T then [strobe T] else [])
  else if p = 5 then (if T % 1000000000 = 0 then [strobe T] else [])
  else if p = 24 then (if d.anyFbk (fun _ _ _ => true) then snapshots T else [])
  else if p = 25 then
    (if d.anyFbk (fun n _ x => (b.fbk? n).any (fun y => y.2.sample != x.sample)) then [strobe T] else [])
  else if p = 32 ∨ p = 33 then loopPulse T (d.engineTick (p - 32) T false)
  else if p = 34 ∨ p = 35 then loopPulse T (d.engineTick (p - 34) T true)
  else if p = 36 ∨ p = 37 then loopPulse T (d.engineTick (p - 36) T false)
  else if p = 38 ∨ p = 39 then loopPulse T (d.engineTick (p - 38) T false)
  else if p = 56 then d.fieldWindows T
  else if p = 58 then (if d.anyFbk (fun _ _ x => x.type = 0) then snapshots T else [])
  else []

/-- Pulses of the points that anything else gives: what changed in the step that began in the state `b`. -/
def MDie.stepPulses (b d : MDie) (p : Nat) : List ProbePulse :=
  let now (c : Bool) : List ProbePulse := if c then [strobe d.ns] else []
  if p = 7 then now (decide (b.mer.lastSync ≠ d.mer.lastSync))
  else if 8 ≤ p ∧ p ≤ 19 then (d.carrier.filter (fun x => x.1 = p - 8)).map (fun x => strobe x.2)
  else if p = 40 then now (b.anyAxis d (fun x y => x.core.plan != y.core.plan))
  else if p = 41 then now (b.anyAxis d (fun x y => x.ra.epochCount != y.ra.epochCount))
  else if p = 42 then now ((List.range 4).any (fun k => (d.framesOut k).any (fun f => f.2.ptype = 2)))
  else if p = 43 then now (b.anyAxis d (fun x y => x.ra.epochCount != y.ra.epochCount && y.ra.epochCause = 7))
  else if p = 44 then now ((d.slotsOf .evt).any (fun n => match b.evt? n, d.evt? n with
    | some (_, x), some (_, y) => y.placed.any (fun e => !x.placed.contains e)
    | _, _ => false))
  else if p = 46 then now ((d.slotsOf .gear).any (fun n => match b.gear? n, d.gear? n with
    | some (_, x), some (_, y) => !x.engaged && y.engaged
    | _, _ => false))
  else if p = 47 then now ((d.slotsOf .pwmg).any (fun n => match b.pwmg? n, d.pwmg? n with
    | some (_, x), some (_, y) => !x.loadPending && y.loadPending
    | _, _ => false))
  else if p = 50 ∨ p = 51 then now (d.framesOut (p - 48) != [])
  else if p = 52 ∨ p = 53 then now ((b.ports[p - 50]?).any (fun x => (d.framesOut (p - 50)).any (fun f => x.sent.any (fun s => s.lseq = f.1))))
  else if p = 59 then ((d.slotsOf .fbk).filterMap (fun n => match b.fbk? n, d.fbk? n with
    | some (_, x), some (_, y) => if x.cnt.ssiBusy.isNone then y.cnt.ssiBusy.map (fun s => strobe s.1) else none
    | _, _ => none))
  else if 60 ≤ p ∧ p ≤ 63 then now (d.out.any (fun o => match o with
    | .laneFrame k _ => k = p - 60
    | _ => false))
  else []

def MDie.probePulses (b d : MDie) (p : Nat) : List ProbePulse :=
  (if b.tick = d.tick then [] else b.tickPulses d p) ++ b.stepPulses d p

/-- Delay of a point on its way to its ball, 5 … 20 ns (R601). -/
def probeDelay (p : Nat) : Nat := 5 + (Config.probeDelay p).val

/-- A level reaches a ball: no pulse is shorter than 10 ns. -/
def MDie.probeDrive (d : MDie) (k t : Nat) (lv : Bool) : MDie :=
  match d.probes[k]? with
  | none => d
  | some x =>
    if x.level = lv then d
    else
      let t := max t (x.edgeAt + 10 + d.ns - d.upNs)
      { d with probes := d.probes.set k ⟨lv, t + d.upNs - d.ns⟩ }.emit (.edge (.probe k) t lv)

/-- A pulse reaches a ball. A width that is not stated is free, below one class 0 tick (log 135). -/
def MDie.probePulse (d : MDie) (k p : Nat) (rest : Bool) (u : ProbePulse) : MDie :=
  let (d, j) := if u.jitter = 0 then (d, 0) else d.draw u.jitter
  let (d, w) := if u.width = 0 then d.draw 15990 else (d, u.width)
  let t := u.start + j + probeDelay p
  (d.probeDrive k t (!rest)).probeDrive k (t + max w 10) rest

/-- The ball of one `PROBE` object at the end of a step (R601, R602). -/
def MDie.probeBall (b d : MDie) (k : Nat) : MDie :=
  match d.obj? (12 + k) with
  | none => d
  | some o =>
    if o.life ≠ .enabled then d.probeDrive k d.ns false
    else
      let p := o.params.u Par.probePoint
      let (d, x) := if p = 6 ∨ p = 57 then d.draw 2 else (d, 0)
      let rest := xor (d.probeLevel p x) (o.params.u Par.probeInvert == 1)
      (b.probePulses d p).foldl (fun (d : MDie) u => d.probePulse k p rest u) (d.probeDrive k (d.ns + probeDelay p) rest)

/-- The probe balls at the end of a step that began in the state `b`. -/
def MDie.probeBalls (d b : MDie) : MDie :=
  { (List.range 8).foldl (fun (d : MDie) k => b.probeBall d k) d with carrier := [] }

/-- The balls whose level the state gives: `QSPI_IRQ_N` (R595) after a step that began in the state `b`. -/
def MDie.irqBall (d b : MDie) : MDie := if b.qspiIrq = d.qspiIrq then d else d.emit (.edge .qspiIrqN d.ns (!d.qspiIrq))

/-- Balls at the end of a step that began in the state `b`. -/
def MDie.ballsNow (d b : MDie) : MDie := (d.gatesNow.irqBall b).probeBalls b

end Sys2Proof.Machine
end

