-- ==== Sys2Proof/Machine/Settle.lean ====
section
/-! DEFINITION. What every step ends with: losses of inputs, the Turnstile's view of the step, events on their way (R77 … R81, R584), drains
that have come to their end. -/

namespace Sys2Proof.Machine

open Sys2Proof

/-! Events (R77 … R81). -/

/-- An event record (R77, R78). -/
def eventBytes (e : EvRec) : List Byte :=
  d32 e.src.toNat ++ d16 e.code ++ d16 (eventFlags e) ++ shortStamp e.ns ++ fitBytes 16 e.data

/-- A record that no ring takes is counted (R81). -/
def MDie.evtDropped (d : MDie) : MDie := d.bump 0 Par.systemEvtDropped 0 1

/-- A record for a ring of this package's host (R79, R81). -/
def MDie.toHostRing (d : MDie) (p : HostPort) (ring : Nat) (b : List Byte) : MDie :=
  if d.dieIndex ≠ 0 then
    let lead := d.fab.node - d.dieIndex
    if d.reachable lead then d.send (d.packetTo 5 lead (ring + 8 * (hostIx p + 1)) 1 b) else d.evtDropped
  else match d.eventRecord p ring b with
    | some d' => d'
    | none => d.evtDropped

/-- The host port of an origin (R463). -/
def originHost (origin : Nat) : Option HostPort := if origin = 1 then some .pcie else if origin = 2 then some .qspi else none

/-- A record for the ring of an origin at this die (R81). -/
def MDie.toOrigin (d : MDie) (origin ring : Nat) (b : List Byte) : MDie :=
  match originHost origin with
  | some p => d.toHostRing p ring b
  | none => d.evtDropped

/-- A record for a client (R81). -/
def MDie.toClient (d : MDie) (client : Nat) (ring origin : Nat) (b : List Byte) : MDie :=
  let d := d.emit (.event (BitVec.ofNat 16 client) ring b)
  match hostOf (BitVec.ofNat 16 client) with
  | some p => d.toHostRing p ring b
  | none =>
    if 0x1000 ≤ client then d.evtDropped
    else if client = d.fab.node % 4096 then d.toOrigin origin ring b
    else if d.reachable client then d.send (d.packetTo 5 client (ring + 8 * origin) 1 b)
    else d.evtDropped

/-- The group of a class (R69): that of its parameters and of the events its mask can suppress. -/
def Class.group : Class → Nat
  | .system => 0 | .queue => 1 | .task => 2 | .fbk => 3 | .axis => 4 | .path => 4 | .gear => 5 | .cam => 5 | .evt => 5 | .capt => 5 | .lclk => 5
  | .lgrp => 6 | .trace => 6 | .pwmg => 7 | .dlane => 7 | .sdin => 7 | .fio => 8 | .safe => 9 | .port => 10 | .time => 11 | .dmac => 12
  | .canc => 13 | .canmb => 13 | .prof => 14 | .probe => 15

/-- Is the event suppressed by the mask of its object: one of its own class group (R81)? Groups 0x0 and 0x1 never are. -/
def evtMasked (o : Obj) (code : Nat) : Bool :=
  decide (2 ≤ code / 4096) && code / 4096 == o.cls.group && bitOf (o.params.u Par.objectEvtMask) (code % 4096)

/-- Route one event: to the ring it names, or as its object's mask and route say. -/
def MDie.routeEvent (d : MDie) (e : EvRec) : MDie :=
  match e.ring with
  | some (c, r) => d.toClient c.toNat (r % 8) (r / 8) (eventBytes e)
  | none => match d.obj? (hSlot e.src) with
    | none => d
    | some o =>
      let v := o.params.u Par.objectEvtRoute
      if evtMasked o e.code ∨ bitOf v 31 = true then d
      else d.toClient (v % 65536) (bitsOf v 18 16) (bitsOf v 20 19) (eventBytes e)

/-- Events of the step: routed, or kept for the opening of the host queues, 64 at most (R584). -/
def MDie.routeEvents (d : MDie) (es : List EvRec) : MDie :=
  if d.boot.ready then es.foldl (fun (d : MDie) e => d.routeEvent e) d
  else
    let room := 64 - d.boot.events.length
    { d with boot := { d.boot with events := d.boot.events ++ es.take room, dropped := d.boot.dropped + (es.length - room) } }

/-- `EVENT` received (R81, R463): its records go to the rings of the origin named. -/
def MDie.takeEvent (d : MDie) (m : FabMsg) : MDie :=
  (List.range m.pkt.xaux.toNat).foldl (fun (d : MDie) i =>
    d.toOrigin (bitsOf m.pkt.xtag 4 3) (m.pkt.xtag % 8) (fitBytes 32 (m.pkt.payload.drop (32 * i)))) d

/-! The end of a step. -/

/-- Forwarded commands whose tick has come hold no record for their effect any more (R64). A `CANCELLED` that left their die before the
tick is waited for during `SYSTEM.CMD_TIMEOUT` (R76, log 143). -/
def MDie.flightsDue (d : MDie) : MDie :=
  let late := d.cmdTimeoutNs
  let q (x : Nat × QueueRt) : Nat × QueueRt :=
    (x.1, { x.2 with flights := (x.2.flights.map (fun f => match f.due with
      | some t => if d.ns < t then f else { f with res1 := false, due := if d.ns < t + late then some t else none }
      | none => f)).filter (fun f => f.stays) })
  { d with rm := { d.rm with queues := d.rm.queues.map q } }

/-- One round: the Turnstile sees what happened, and the events leave. Events of the Turnstile itself are those of the next round. -/
def MDie.settleRound (d : MDie) : MDie :=
  let d := d.turnEnds
  (({ d with posted := [] } : MDie).turnEvents d.posted).routeEvents d.posted

/-- Rounds until nothing is left to see. Queues that owe nothing end their drain, which is seen too. -/
def MDie.settleRounds : Nat → MDie → MDie
  | 0, d => d
  | k + 1, d =>
    let d := d.flightsDue.queuesSettle
    if d.posted = [] ∧ d.rm.ended = [] then d else d.settleRound.settleRounds k

/-- The end of a step that began in the state `before`. -/
def MDie.settle (d before : MDie) : MDie :=
  if d.boot.inReset then (d.irqBall before).releaseReset
  else
    let d := (before.losses d d.tick0).dropStreams
    (d.settleRounds (d.tasks.length + 4)).readyRound.sendHeld.dmaKick.ballsNow before

/-- A step of the motion side: what leaves is what this step sends, and free values are fresh. -/
def MDie.stepWith (d : MDie) (f : MDie → MDie) : MDie := (f { d with out := [], free := d.free + 1 }).settle d

/-- A step of the motion side that does nothing while the die is in reset. -/
def MDie.live (d : MDie) (f : MDie → MDie) : MDie := d.stepWith (fun d => if d.boot.inReset then d else f d)

end Sys2Proof.Machine
end

