-- ==== Sys2Proof/Machine/Accept.lean ====
section
/-! DEFINITION. Acceptance (R46 … R53, R70, R83 … R87): checks, the tick of effect, tasks, forwarding, fetching, held packets, replies from
other dies. A command packet that is a row of its own takes effect in that row (log 40). -/

namespace Sys2Proof.Machine

open Sys2Proof

/-! Packets as bytes (R66 … R68, R102, R103). -/

/-- The blocks that the flags announce; another one is no part of the packet. -/
def pktNormal (p : Pkt) : Pkt :=
  { p with task := if taskFlag p then p.task else none, stamp := if stampFlag p then p.stamp else none }

/-- Bytes that the header and the blocks take, the extension as `NEXT` gives it. -/
def pktHeadBytes (p : Pkt) : Nat :=
  16 + (if taskFlag p then 16 + 8 * (match p.task with | some t => t.next.toNat | none => 0) else 0) + (if stampFlag p then 16 else 0)

/-- `LEN` matches the parts and the opcode's layout (R68). -/
def pktLengthOk (p : Pkt) (op : Op) : Bool :=
  (!taskFlag p || p.task.isSome) && (!stampFlag p || p.stamp.isSome)
    && (match p.task with | some t => t.ext.length == 2 * t.next.toNat && t.succs.length == 4 | none => true)
    && 8 * p.len.toNat == pktHeadBytes p + p.body.length && bodyLenOk (opRow op).body p.body

/-- The packet in a run of bytes, and its opcode. -/
def pktDecode (client : U16) (origin queue : Nat) (b : List Byte) : Nat × Pkt :=
  let flags := rdU b 3 1
  let rest := b.drop 16
  let isTask := bitOf flags 1 && decide (16 ≤ rest.length)
  let next := rdU rest 5 1
  let ext := (rest.drop 16).take (8 * next)
  let task : TaskBlock :=
    { tag := BitVec.ofNat 16 (rdU rest 0 2), ctrl := BitVec.ofNat 8 (rdU rest 2 1), deps := BitVec.ofNat 8 (rdU rest 3 1)
      shape := BitVec.ofNat 8 (rdU rest 4 1), next := BitVec.ofNat 8 next, evtCode := BitVec.ofNat 16 (rdU rest 6 2)
      succs := (List.range 4).map (fun i => BitVec.ofNat 16 (rdU rest (8 + 2 * i) 2))
      ext := (List.range (ext.length / 4)).map (fun i => BitVec.ofNat 32 (rdU ext (4 * i) 4)) }
  let rest := if isTask then rest.drop (16 + 8 * next) else rest
  let isStamp := bitOf flags 2 && decide (16 ≤ rest.length)
  let stamp : StampBlock := ⟨BitVec.ofNat 64 (rdU rest 0 8), BitVec.ofNat 32 (rdU rest 8 4), BitVec.ofNat 32 (rdU rest 12 4)⟩
  (rdU b 0 2,
    { client := client, origin := BitVec.ofNat 2 origin, queue := BitVec.ofNat 3 queue, len := BitVec.ofNat 8 (rdU b 2 1)
      flags := BitVec.ofNat 8 flags, seq := BitVec.ofNat 32 (rdU b 4 4), target := BitVec.ofNat 32 (rdU b 8 4)
      reserved := BitVec.ofNat 32 (rdU b 12 4), task := if isTask then some task else none
      stamp := if isStamp then some stamp else none, body := if isStamp then rest.drop 16 else rest })

/-- The bytes of a packet. -/
def pktEncode (p : Pkt) (opcode : Nat) : List Byte :=
  d16 opcode ++ d8 p.len.toNat ++ d8 p.flags.toNat ++ d32 p.seq.toNat ++ d32 p.target.toNat ++ d32 p.reserved.toNat
    ++ (match p.task with
      | some t => d16 t.tag.toNat ++ d8 t.ctrl.toNat ++ d8 t.deps.toNat ++ d8 t.shape.toNat ++ d8 t.next.toNat ++ d16 t.evtCode.toNat
          ++ t.succs.flatMap (fun s => d16 s.toNat) ++ t.ext.flatMap (fun h => d32 h.toNat)
      | none => [])
    ++ (match p.stamp with
      | some s => d64 s.secs.toNat ++ d32 s.nanos.toNat ++ d32 s.reserved.toNat
      | none => [])
    ++ p.body

/-! Checks 2 … 4 (R70, R102, R103). -/

/-- Successors the block holds. -/
def taskNsucc (t : TaskBlock) : Nat := t.shape.toNat % 8

/-- Is the task block well formed (R102, R103)? -/
def taskOk (t : TaskBlock) : Bool :=
  let mode := t.shape.toNat / 16 % 4
  t.ctrl.toNat / 8 % 8 == 0 && !bitOf t.shape.toNat 3 && t.shape.toNat / 64 == 0 && decide (taskNsucc t ≤ 4) && decide (t.next.toNat ≤ 14)
    && mode != 3 && (mode == 1 || t.evtCode == 0) && t.succs.all (fun s => !s.getLsbD 15)
    && (t.succs.drop (taskNsucc t)).all (fun s => s == 0)
    && (t.ext.zipIdx).all (fun (x : U32 × Nat) => x.1 != 0 || (x.2 % 2 == 1 && x.2 + 1 == 2 * t.next.toNat))

/-- Check 2: reserved bits and the task and stamp blocks. -/
def pktHeadOk (p : Pkt) : Bool :=
  p.flags.toNat / 16 == 0 && p.reserved == 0 && (match p.task with | some t => taskOk t | none => true)
    && (match p.stamp with | some s => s.reserved == 0 | none => true)

/-- Successor handles in index order, each marked compact or full (R103, R105). -/
def taskRefs (t : TaskBlock) : List (Bool × U32) :=
  ((t.succs.take (taskNsucc t)).map (fun s => (true, s.setWidth 32))) ++ ((t.ext.filter (fun h => h != 0)).map (fun h => (false, h)))

/-- The handle a successor reference names: a compact one names a task of this die. -/
def MDie.succHandle (d : MDie) (r : Bool × U32) : U32 :=
  if r.1 then mkHandle Class.task.code d.fab.node (r.2.toNat / 4096 % 8) (r.2.toNat % 4096) else r.2

/-! Check 5: handles (R29). -/

def unknownClass (h : U32) : Bool := (classOfCode (hClass h)).isNone

/-- Conditions 3 … 5 of R29 on the owning die. -/
def MDie.handleBad (d : MDie) (h : U32) : Option Status :=
  match d.slot? (hSlot h) with
  | none => some .badHandle
  | some ⟨_, .reserved true⟩ => some .badHandle
  | some s => match s.occ.cls with
    | none => some .staleHandle
    | some c => if s.gen ≠ hGen h then some .staleHandle else if c.code ≠ hClass h then some .wrongClass else none

/-- Does an opcode accept a class (check 6)? No opcode but those of the Turnstile accepts a task (R108). -/
def Op.accepts (op : Op) (c : Class) : Bool :=
  match (opRow op).classes with
  | [] => c != .task
  | l => l.contains c

/-- Events that objects of a class post (R103). -/
def evtCarries (c : Class) (e : Nat) : Bool :=
  let inside (a b : Nat) : Bool := decide (a ≤ e ∧ e ≤ b)
  (e == Evt.objectIdle && !(c == .system || c == .time || c == .safe || c == .task)) ||
  match c with
  | .system => inside 1 2 || inside 0x10 0x11 || e == 0x1002 || inside 0x8006 0x8007 || inside 0xA003 0xA005 || inside 0xA007 0xA009
      || inside 0xE001 0xE006 || e == 0xE008 || inside 0xF001 0xF002
  | .queue => e == 1
  | .fbk => inside 0x3001 0x300A
  | .axis => inside 0x4001 0x4009 || inside 0x4020 0x4023
  | .path => inside 0x4010 0x4013
  | .gear => inside 0x5001 0x5006 || e == 0xE002
  | .evt => inside 0x5010 0x5011
  | .capt => e == 0x5020
  | .lclk => inside 0x5030 0x5033 || inside 0x4020 0x4023
  | .lgrp => inside 0x6001 0x6007
  | .trace => inside 0x6010 0x6011
  | .pwmg => inside 0x7001 0x7004
  | .sdin => e == 0x7010
  | .dlane => inside 0x7030 0x7035
  | .fio => inside 0x8001 0x8005 || e == 0x8008
  | .safe => inside 0x9001 0x9005
  | .port => inside 0xA001 0xA002 || e == 0xA006
  | .time => inside 0xB001 0xB006
  | .dmac => inside 0xC001 0xC008
  | .canc => inside 0xD001 0xD004
  | .canmb => e == 0xD010
  | .prof => e == 0xE007
  | .task => inside 0x2001 0x2003
  | _ => false

/-- Opcodes the boot ROM accepts in stage 0xF (R585). -/
def romOp (op : Op) : Bool := [Op.nop, .sysIdentify, .sysReset, .fwWrite, .fwVerify, .fwActivate].contains op

/-! Checks 5 … 12 on the owning die. -/

/-- Checks of the body and the blocks that hold for every opcode (check 8), and what the life-cycle state locks (check 7): in END most
commands, outside DEVELOP and RETURN writes to a `PROBE` object (R567, R602). -/
def commonBad (d : MDie) (op : Op) (c : Class) (p : Pkt) : Bad :=
  let open_ : Bool := op.code / 4096 == 0 || (op == .paramGet && c == .system)
  let write : Bool := op == .paramSet || op == .paramSetMulti
  firstBad [badIf (d.mram.lc == 4 && !open_) 7 .locked, badIf (c == .probe && write && !d.debugOpen) 7 .locked, badIf (!reservedOk op p.body) 8 .badParam,
    badIf (taskFlag p && !takesTask op) 8 .badParam, badIf (op == .taskWait && !taskFlag p) 8 .badParam,
    match p.stamp with
    | some s => badIf (decide (1000000000 ≤ s.nanos.toNat)) 8 .badParam
    | none => none,
    match p.task with
    | some t => badIf (t.shape.toNat / 16 % 4 == 1 && !evtCarries c t.evtCode.toNat) 8 .badParam
    | none => none]

/-- A `TASK_SIGNAL` aimed at a task handle that is stale: it is absorbed (R110). -/
def MDie.staleSignal (d : MDie) (op : Op) (h : U32) : Bool :=
  op == .taskSignal && hClass h == Class.task.code && d.handleBad h == some .staleHandle

/-- Checks 5 … 12 against a state of this die; `charge` is the client whose quota is used. -/
def MDie.ownBad (d : MDie) (op : Op) (p : Pkt) (charge : U16) : Bad :=
  let h := p.target
  if unknownClass h then bad 5 .badHandle
  else if d.staleSignal op h then firstBad [commonBad d op .task p, badIf (rdU p.body 0 1 == 0) 9 .outOfRange]
  else match d.handleBad h with
    | some s => bad 5 s
    | none => match classOfCode (hClass h) with
      | none => bad 5 .badHandle
      | some c =>
        if !op.accepts c then bad 6 .wrongClass
        else if d.boot.stage = 0xF ∧ romOp op = false then bad 6 .wrongState
        else
          let own := if c = .task then d.taskOpBad op p.client h p.body
            else match d.obj? (hSlot h) with
              | some o => d.opBad op p.client charge (hSlot h) o p.body
              | none => none
          firstBad [commonBad d op c p, own]

/-! The tick of effect (R47 … R49). -/

/-- An `OBJECT_DISABLE` goes before another command for its object that was accepted in the same cycle (R32). -/
def disableFirst (a b : Action) : Bool :=
  a.op == .objectDisable && b.op != .objectDisable && a.accepted == b.accepted && a.effect == b.effect && a.pkt.target == b.pkt.target

/-- Put an accepted command in its place among those of a tick (R32, R52). -/
def insertAction (a : Action) : List Action → List Action
  | [] => [a]
  | b :: r => if b.effect ≤ a.effect ∧ !disableFirst a b then b :: insertAction a r else a :: b :: r

/-- Accepted commands by tick, at one tick in order of acceptance. -/
def actionOrder (l : List Action) : List Action := l.foldl (fun (acc : List Action) a => insertAction a acc) []

/-- The die as the accepted commands of the ticks up to one will leave it: checks 10 … 12 are made against that state (log 41). -/
def MDie.projected (d : MDie) (upto : Nat) : MDie :=
  let as := actionOrder (d.rm.actions.filter (fun a => decide (a.effect ≤ upto) && a.op != .sysReset))
  as.foldl (fun (x : MDie) a => (x.eff a a.effect).1) d

/-- Every accepted command. -/
def MDie.farthest (d : MDie) : Nat := d.rm.actions.foldl (fun (m : Nat) a => max m a.effect) d.ns

/-- Period of the class of a command's target: that of an object still to be created follows from the commands accepted. -/
def MDie.targetPeriod (d : MDie) (h : U32) : Nat :=
  match d.find h with
  | some (n, _) => d.period n
  | none =>
    let f := d.projected d.farthest
    match f.find h with
    | some (n, _) => f.period n
    | none => classPeriod 0

/-- Start of the first tick of a period at or after a time. -/
def ceilTick (period t : Nat) : Nat := (t + period - 1) / period * period

/-- The tick of effect, and whether the stamp is late (R48, R49). `now`: the command was accepted 2 µs before the tick in progress, which
is its reach (log 40). -/
def MDie.effectTick (d : MDie) (now : Bool) (period : Nat) (p : Pkt) : Nat × Bool :=
  let reach := if now then d.ns / period * period else ceilTick period (d.ns + 2000 + (if d.time.frac = 0 then 0 else 1))
  let a := if now then reach - 2000 else d.ns
  match p.stamp with
  | none => (reach, false)
  | some s =>
    let st := s.secs.toNat * 1000000000 + s.nanos.toNat
    let ts := ceilTick period st
    let past : Bool := decide (st * 65536 < a * 65536 + d.time.frac.toNat)
    if past ∨ ts < reach then (reach, true) else (ts, false)

/-! Accepting a command. -/

/-- What becomes of a packet: it is dealt with, or it waits for a slot (R85, R109), or the window of its destination is full (R461). -/
inductive Taken where
  | done (d : MDie)
  | wait
  | full

def Taken.state (t : Taken) (d : MDie) : MDie :=
  match t with
  | .done d' => d'
  | .wait => d
  | .full => d

/-- The reply address of a packet. -/
def replyTo (op : Nat) (p : Pkt) (pid : Option Nat) : ReplyTo :=
  { client := p.client, origin := p.origin.toNat, queue := p.queue.toNat, seq := p.seq, opcode := BitVec.ofNat 16 op
    ackReq := ackFlag p, pid := pid }

/-- A remote client's place in its window is free again once its packet is accepted or refused (R461). -/
def MDie.returnPlace (d : MDie) (rt : ReplyTo) : MDie := if isRemoteClient rt.client then d.e2eReturn rt.client.toNat 1 else d

/-- Answer a refusal. -/
def MDie.turnAway (d : MDie) (rt : ReplyTo) (st : Status) (res : Result) : MDie := (d.refuse rt st res).returnPlace rt

/-- Is an action slot free for a client (R85)? -/
def MDie.slotFor (d : MDie) (client : U16) : Bool :=
  decide (d.rm.actions.length < 2048) && decide ((d.rm.actions.filter (fun a => a.charge = client)).length < 1024)

/-- Does an earlier packet of the queue wait? -/
def MDie.queueHeld (d : MDie) (rt : ReplyTo) : Bool :=
  d.rm.held.any (fun h => h.rt.client == rt.client && h.rt.queue == rt.queue && h.rt.origin == rt.origin)

/-- What a refusal leaves: a list or an image that failed its check is marked (R327, R554), a challenge answered wrongly is used up (R568). -/
def MDie.refusalNote (d : MDie) (op : Op) (p : Pkt) (res : Result) : MDie :=
  match op with
  | .profCommit => if res.r1 = 0 then d else d.retainNote op (hSlot p.target) p.body
  | .objectEnable => match d.find p.target with
    | some (n, o) => if o.cls = .lgrp ∧ o.params.u Par.lgrpListMode = 1 ∧ res.r1 ≠ 0 then d.lgrpNoteCheck n else d
    | none => d
  | .lcAdvance => if d.mayConfigure p.client && d.dieIndex == 0 then d.retainNote op 0 p.body else d
  | _ => d

/-- What acceptance does at once: a filter list is copied (R529), a challenge is drawn or used up (R568), tasks to be cancelled are not
dispatched any more (R117, R118), the switch of a commit level is set (R475), a frame takes its buffer (R535). Answers the result it gives. -/
def MDie.acceptNote (d : MDie) (a : Action) : MDie × Option Result :=
  let op := a.op
  let p := a.pkt
  match op with
  | .canTx => match d.find p.target with
    | some (n, _) => d.canTxTake n a.seq p.body
    | none => (d, none)
  | .canFiltSwitch => (d.cancStandby (hSlot p.target) p.body, none)
  | .lcChallenge => let (d, r) := d.lcChallenge; (d, some r)
  | .lcAdvance => (d.retainNote op 0 p.body, none)
  | .fabricCommit =>
    let (d, r) := d.commitDo (p.stamp.map (fun s => s.secs.toNat * 1000000000 + s.nanos.toNat)) p.body
    (d, some r)
  | .taskCancel => ((d.doom (fun n _ => decide (n = hSlot p.target))).1, none)
  | .taskCancelAll =>
    let (d, k) := d.doom (fun _ t => t.rt.client.toNat == rdU p.body 0 2)
    (d, some ⟨BitVec.ofNat 64 k, 0⟩)
  | _ => (d, none)

/-- Opcodes answered by their own block when their tick has come, not here. -/
def ownReply (op : Op) : Bool := op == .journalSync

/-- After a command took effect within a tick that has begun: the axes and horizons of the tick follow it (R51, R203). -/
def MDie.follow (d : MDie) (t : Nat) : MDie :=
  let d := (d.slotsOf .gear).foldl (fun (d : MDie) l => match d.gear? l with
    | some (o, _) => match d.find (o.params.h Par.gearSlave) with
      | some (n, _) => d.gearEngageAt l n (d.tickOf n)
      | none => d
    | none => d) d
  let d := (d.slotsOf .axis).foldl (fun (d : MDie) n => d.resample n (d.tickOf n)) d
  d.refresh t

/-- A command takes effect in its own row: reply and effect together. -/
def MDie.enact (d : MDie) (a : Action) : MDie :=
  let st := if a.okLate then Status.okLate else Status.ok
  if ownReply a.op then (d.eff a a.effect).1
  else if a.op = .sysReset then ((d.reply a.rt st noResult a.effect).returnPlace a.rt).sysReset
  else
    let (d, given) := d.acceptNote a
    let (d, res) := if a.op = .lcChallenge then (d, noResult) else d.eff a a.effect
    let res := given.getD res
    ((((d.reply a.rt st res a.effect).release1 a.rt).release2 a.rt).returnPlace a.rt).follow d.ns

/-- An accepted command enters the plans behind the horizons of its tick's axes (R202, R210): the cause it brings to an epoch. -/
def MDie.planned (d : MDie) (a : Action) : MDie :=
  let note (d : MDie) (n c : Nat) : MDie := match d.axis? n with
    | some (o, x) => if o.life = .enabled ∨ o.life = .draining then d.setData n (.axis { x with ra := x.ra.note c }) else d
    | none => d
  match d.find a.pkt.target with
  | none => d
  | some (n, o) =>
    let d' : Option MDie := match o.data with
      | .axis _ =>
        if isMotion a.op then some (note d n 1)
        else if a.op = .objectDisable then some (note d n 4)
        else if (opEntries a.op a.pkt.body).any (fun e => isLimit e.1) ∧ a.op ≠ .objectCreate then some (note d n 2)
        else none
      | .gear _ => match d.find (o.params.h Par.gearSlave) with
        | some (s, _) => some (note d s 8)
        | none => none
      | .path _ => some (d.noteMembers o)
      | _ => none
    match d' with
    | some d => d.refresh d.ns
    | none => d

/-- The command is accepted for a tick that has not begun: one action slot, and its reply unless that is written at the tick. -/
def MDie.enqueue (d : MDie) (a : Action) (res : Result) : MDie :=
  let st := if a.okLate then Status.okLate else Status.ok
  let (d, given) := d.acceptNote a
  let d := if a.late then d.settled a.rt
    else (d.reply a.rt st (given.getD res) a.effect).release2 a.rt
  let d := match a.newSlot with | some n => d.reserve n | none => d
  (({ d with rm := { d.rm with actions := d.rm.actions ++ [a], nextSeq := d.rm.nextSeq + 1 } }).planned a).returnPlace a.rt

/-- A command that passed its checks on this die. -/
def MDie.enlist (d dp : MDie) (now : Bool) (op : Op) (p : Pkt) (rt : ReplyTo) (charge : U16) (task : Option Nat) (eff : Nat × Bool) : MDie :=
  let (op', p', chained) := d.fixRel op p
  let d := d.noteMotion op p.target
  let a : Action :=
    { op := op', pkt := p', chained := chained, rt := rt, charge := charge, accepted := d.ns, effect := eff.1, seq := d.rm.nextSeq, stamped := p.stamp.isSome, task := task
      newSlot := if op = .objectCreate then d.nextSlot else none, late := lateReply op || ownReply op, okLate := eff.2 }
  if now ∧ eff.1 ≤ d.ns then d.enact a
  else d.enqueue a (if a.late ∨ op = .lcChallenge ∨ op = .sysReset then noResult else (dp.eff a eff.1).2)

/-! Tasks (R105 … R109). -/

/-- Steps 4 … 6 of R105 for a task of this die. -/
def MDie.succOwnBad (d : MDie) (h : U32) : Option Status :=
  match d.slot? (hSlot h) with
  | none => some .badHandle
  | some ⟨_, .reserved true⟩ => some .badHandle
  | some s => match s.occ.cls with
    | none => some .staleHandle
    | some c => if s.gen ≠ hGen h then some .staleHandle else if c ≠ .task then some .wrongClass else none

/-- The check of one successor. Of a task on another node its own die finds the last three conditions: free (log 13). -/
def MDie.succBad (d : MDie) (r : Bool × U32) : MDie × Option Status :=
  let h := d.succHandle r
  if r.1 then (d, d.succOwnBad h)
  else if unknownClass h then (d, some .badHandle)
  else if hClass h ≠ Class.task.code then (d, some .badParam)
  else if d.isOwn h then (d, d.succOwnBad h)
  else if !d.reachable (hNode h) then (d, some .unreachable)
  else
    let (d, v) := d.draw 4
    (d, [none, some Status.badHandle, some .staleHandle, some .wrongClass].getD v none)

/-- The first successor that fails, with its index. -/
def MDie.succsBad (d : MDie) (rs : List (Bool × U32)) : MDie × Option (Status × Nat) :=
  (rs.zipIdx).foldl (fun (x : MDie × Option (Status × Nat)) (r : (Bool × U32) × Nat) => match x.2 with
    | some _ => x
    | none =>
      let (d, s) := x.1.succBad r.1
      (d, s.map (fun s => (s, r.2)))) (d, none)

/-- Is there room for a task (R104, R109)? -/
def MDie.taskRoom (d : MDie) (client : U16) (k : Nat) : Bool :=
  d.nextSlot.isSome && decide (d.taskUse + unitsFor k ≤ 1024)
    && decide (d.taskUseOf client + unitsFor k ≤ d.quota Par.systemQuotaTasks client.toNat)

/-- The Turnstile takes a task (R106, R110). -/
def MDie.intake (d : MDie) (op : Op) (p : Pkt) (rt : ReplyTo) (b : TaskBlock) : Taken :=
  let (d, f) := d.succsBad (taskRefs b)
  match f with
  | some (s, i) => .done (d.turnAway rt s ⟨0, BitVec.ofNat 64 i⟩)
  | none =>
    let succs := (taskRefs b).map (fun r => d.succHandle r)
    if !d.taskRoom rt.client succs.length || d.queueHeld rt then .wait
    else match d.nextSlot with
      | none => .wait
      | some n =>
        let t : TaskRec :=
          { op := op, pkt := p, rt := rt, deps := b.deps.toNat, succs := succs
            st := if b.deps = 0 then .ready d.rm.nextReady else .waiting, intake := d.rm.nextSeq, doomed := false }
        let d := d.occupy n (.task t)
        let d := { d with rm := { d.rm with nextSeq := d.rm.nextSeq + 1 } }
        .done ((((d.reply rt .queued ⟨(d.handle n).setWidth 64, b.tag.setWidth 64⟩ d.ns).settled rt).returnPlace rt))

/-! One packet on the die that owns its target. -/

def MDie.takeOwn (d : MDie) (now : Bool) (op : Op) (p : Pkt) (rt : ReplyTo) : Taken :=
  let per := d.targetPeriod p.target
  let eff := d.effectTick now per p
  let dp := d.projected eff.1
  let chk := dp.ownBad op p rt.client
  match p.task with
  | some b => match chk with
    | some (k, s, r) => if k ≤ 9 then .done ((d.refusalNote op p r).turnAway rt s r) else d.intake op p rt b
    | none => d.intake op p rt b
  | none => match chk with
    | some (_, s, r) => .done ((d.refusalNote op p r).turnAway rt s r)
    | none =>
      if !d.slotFor rt.client || d.queueHeld rt then .wait
      else .done (d.enlist dp now op p rt rt.client none eff)

/-! Forwarding (R11, R29, R83, R86, R461). -/

/-- Mark the flight of a forwarded packet. -/
def MDie.markForwarded (d : MDie) (rt : ReplyTo) (node : Nat) : MDie :=
  let due := d.upNs + d.cmdTimeoutNs
  d.modFlight rt (fun f => { f with fwd := some (node, due) })

/-- Origin of a client's packets for another node (R463). -/
def originOf (client : U16) : Nat := match hostOf client with | some p => hostIx p + 1 | none => 0

def MDie.forwardCmd (d : MDie) (node : Nat) (op : Nat) (p : Pkt) (rt : ReplyTo) : Taken :=
  if !d.reachable node then .done ((d.targetUnreachable node rt.client).turnAway rt .unreachable noResult)
  else if !d.e2eFree node then .full
  else
    let xtag := rt.queue + 8 * (if isRemoteClient rt.client then rt.origin else originOf rt.client)
    .done (((d.e2eTake node).send (d.packetTo 3 node xtag 0 (pktEncode p op))).markForwarded rt node)

/-- The root of the fabric, where `FABRIC_COMMIT` is carried out (R475). -/
def MDie.isRoot (d : MDie) : Bool := d.fab.rootNode == d.fab.node

/-- Checks 2 … 4 and the way to the owning die. -/
def MDie.take (d : MDie) (now : Bool) (opcode : Nat) (p : Pkt) (pid : Option Nat) : Taken :=
  let p := pktNormal p
  let rt := replyTo opcode p pid
  if !pktHeadOk p then .done (d.turnAway rt .badParam noResult)
  else match opOfCode opcode with
    | none => .done (d.turnAway rt .badOpcode noResult)
    | some op =>
      if (d.pairLevels (if isRemoteClient rt.client then rt.client.toNat else d.fab.node)).2 < 1 then
        .done (d.turnAway rt .levelUnsupported noResult)
      else if !pktLengthOk p op then .done (d.turnAway rt .badLength noResult)
      else if unknownClass p.target then .done (d.turnAway rt .badHandle noResult)
      else if op = .fabricCommit ∧ d.isRoot = false ∧ d.boot.stage ≠ 0xF then
        (if d.fab.rootNode = 0xFFFF then .done (d.turnAway rt .unreachable noResult) else d.forwardCmd d.fab.rootNode opcode p rt)
      else if op = .fabricCommit then
        d.takeOwn now op { p with target := mkHandle (hClass p.target) d.fab.node (hGen p.target) (hSlot p.target) } rt
      else if d.isOwn p.target then d.takeOwn now op p rt
      else d.forwardCmd (hNode p.target) opcode p rt

/-! Held packets (R85, R109). -/

/-- A packet waits at the head of its queue. -/
def MDie.hold (d : MDie) (opcode : Nat) (p : Pkt) (pid : Option Nat) (ring : Nat) : MDie :=
  match opOfCode opcode with
  | some op => { d with rm := { d.rm with held := d.rm.held ++ [{ op := op, pkt := p, rt := replyTo opcode p pid, ring := ring }] } }
  | none => d

/-- A packet that waits for a slot, or for its window, is kept until it can go. -/
def MDie.orHold (d : MDie) (t : Taken) (opcode : Nat) (p : Pkt) (pid : Option Nat) (ring : Nat) : MDie :=
  match t with
  | .done d' => d'
  | .full => d.hold opcode p pid ring
  | .wait => d.hold opcode p pid ring

/-! Fetching (R62, R64, R84, R87). -/

/-- May the queue have a packet taken from it: enabled, not halted, two reply records free? -/
def MDie.canFetch (d : MDie) (key : Nat) : Bool :=
  match d.queueCfg key, d.queue? key with
  | some c, some q => d.dieIndex == 0 && d.doorsOpen key && c.on && !q.halted && decide (2 ≤ q.freeRecords c.rplSize)
  | _, _ => false

/-- A packet of a queue has been fetched: its number and its reservations (R64). -/
def MDie.fetched (d : MDie) (key : Nat) (opcode : Nat) (p : Pkt) (advance : Bool) : MDie × Option Nat :=
  match d.queueCfg key, d.queue? key with
  | some c, some q =>
    let pid := d.rm.nextPid
    let f : Flight := { pid := pid, seq := p.seq, opcode := BitVec.ofNat 16 opcode, settled := false, res1 := true, res2 := true, fwd := none
                        ack := ackFlag p, due := none, task := 0 }
    let head := if advance then (q.head + p.len.toNat) % max c.units 1 else q.head
    let d := { d with rm := { d.rm with nextPid := pid + 1, rrLast := if advance then key else d.rm.rrLast } }
    (d.setQueue key { q with head := head, fetched := q.fetched + 1, flights := q.flights ++ [f] }, some pid)
  | _, _ => (d, none)

/-- Is the packet held back by its `FENCE` (R83)? -/
def MDie.fenced (d : MDie) (key : Nat) (p : Pkt) : Bool :=
  fenceFlag p && (match d.queue? key with | some q => !q.flights.all (fun f => f.settled) | none => false)

/-- Of the same queue? -/
def ReplyTo.sameQueue (a b : ReplyTo) : Bool := a.client == b.client && a.queue == b.queue && a.origin == b.origin

/-- A held packet is checked again, and accepted or refused where it can be; none where it waits on. One that is still in its ring is
fetched now. -/
def MDie.takeHeld (d : MDie) (h : Held) : Option MDie :=
  let others := d.rm.held.filter (fun x => x.rt.sameQueue h.rt)
  let rest := d.rm.held.filter (fun x => !x.rt.sameQueue h.rt)
  if others.head? ≠ some h then none
  else
    let d1 := { d with rm := { d.rm with held := rest } }
    let back (x : MDie) : MDie := { x with rm := { x.rm with held := x.rm.held ++ others.drop 1 } }
    match hostOf h.rt.client with
    | some port =>
      let key := queueKey port h.rt.queue
      if h.ring ≠ 0 ∧ (!d.canFetch key || d.fenced key h.pkt) then none
      else
        let (d2, pid) := if h.ring ≠ 0 then d1.fetched key h.rt.opcode.toNat h.pkt (h.ring == 1) else (d1, h.rt.pid)
        match d2.take false h.rt.opcode.toNat h.pkt pid with
        | .done x => some (back x)
        | _ => none
    | none => match d1.take false h.rt.opcode.toNat h.pkt none with
      | .done x => some (back x)
      | _ => none

/-- Accept the first held packet that can be, and take it off its ring. -/
def MDie.acceptHeld (d : MDie) : MDie :=
  match d.rm.held.findSome? (fun h => d.takeHeld h) with
  | some x => x
  | none => d

/-- Bytes of a command ring from its head on, as far as its tail. -/
def MDie.qspiRing (d : MDie) (c : QueueCfg) (q : QueueRt) : List Byte :=
  let n := (q.tail + c.units - q.head) % max c.units 1
  (List.range (min n 128)).flatMap (fun i => d.mem.sram.readN (0x3F0000 + (c.cmdBase + 8 * ((q.head + i) % max c.units 1)) % 0x10000) 8)

/-- Bytes that lie between head and tail. -/
def QueueCfg.avail (c : QueueCfg) (q : QueueRt) : Nat := 8 * ((q.tail + c.units - q.head) % max c.units 1)

/-- What the head of a queue is known to wait for is noted, until its tail moves or an earlier packet is settled (R84). -/
def MDie.park (d : MDie) (key : Nat) (partly behind : Bool) : MDie :=
  match d.queue? key with
  | some q => d.setQueue key { q with partly := partly, behind := behind }
  | none => d

/-- A packet at the head of a ring, in the bytes a read returned. One that does not lie wholly between head and tail (R62), or whose
`FENCE` waits (R83), stays there. A packet of a length outside R66 counts as fetched (log 142). -/
def MDie.fetchBytes (d : MDie) (port : HostPort) (queue : Nat) (c : QueueCfg) (q : QueueRt) (b : List Byte) : MDie :=
  let key := queueKey port queue
  let b := b.take (c.avail q)
  if b.length < 8 then d
  else
    let len := rdU b 2 1
    let (code, p) := pktDecode (clientOf port) 0 queue (b.take (8 * len))
    if len < 2 ∨ 128 < len then
      let (d, pid) := d.fetched key (rdU b 0 2) { p with seq := BitVec.ofNat 32 (rdU b 4 4) } false
      (d.refuse { replyTo (rdU b 0 2) p pid with seq := BitVec.ofNat 32 (rdU b 4 4) } .badLength noResult).queueHalt key 1 (rdU b 4 4)
    else if c.avail q < 8 * len then d.park key true false
    else if b.length < 8 * len then d
    else if d.fenced key p then d.park key false true
    else
      let (d', pid) := d.fetched key code p true
      d.orHold (d'.take false code p pid) code p none 1

/-- Can the queue's head be fetched now, as far as the die knows (R62, R64, R83, R85)? -/
def MDie.eligible (d : MDie) (key : Nat) : Bool :=
  match d.queue? key with
  | some q => d.canFetch key && q.head != q.tail && !q.partly && !(q.behind && !q.flights.all (fun f => f.settled))
      && !d.rm.held.any (fun h => h.rt.client == clientOf (portOfKey key) && h.rt.queue == key % 8)
  | none => false

/-- The queue whose turn it is: the next in order of keys after the one fetched from last that is not held (R84, log 63). -/
def MDie.turnKey (d : MDie) : Option Nat :=
  ((List.range 16).map (fun i => (d.rm.rrLast + 1 + i) % 16)).find? (fun k => d.eligible k)

/-- `PACKET_FETCH`: nothing is fetched from a queue whose turn it is not. The ring of the QSPI host lies in this die's SRAM (R65). A reply
or index write-back that failed halts its queue whether or not it can fetch (R87). -/
def MDie.packetFetch (d : MDie) (port : HostPort) (queue : Nat) (r : RingRead) : MDie :=
  let key := queueKey port (queue % 8)
  match d.queueCfg key, d.queue? key with
  | some c, some q =>
    if port = .pcie ∧ r = .writeError then (if q.halted ∨ !d.doorsOpen key ∨ !d.writesReplies key then d else d.queueHalt key 3 0)
    else if d.turnKey ≠ some key then d
    else match port, r with
      | .qspi, _ => d.fetchBytes .qspi (queue % 8) c q (d.qspiRing c q)
      | .pcie, .data b => d.fetchBytes .pcie (queue % 8) c q b
      | .pcie, _ => d.queueHalt key 2 0
  | _, _ => d

/-! Packets as rows. -/

/-- Can a packet come from the client at all: a host of the package, or another node? -/
def MDie.knows (d : MDie) (c : U16) : Bool := (hostOf c).isSome || (isRemoteClient c && c.toNat != d.fab.node)

/-- Does the die take packets: its queues are open, or the boot ROM has opened queue 0 (R584, R585)? -/
def MDie.takesPackets (d : MDie) (p : Pkt) : Bool :=
  !d.boot.inReset && (d.boot.ready || (d.boot.stage == 0xF && d.dieIndex == 0 && (hostOf p.client).isSome && p.queue == 0))

/-- A packet of a length outside R66 is refused and halts its queue (R70, R87). -/
def MDie.badLen (d : MDie) (op : Op) (p : Pkt) (pid : Option Nat) : MDie :=
  let d := d.refuse (replyTo op.code p pid) .badLength noResult
  match hostOf p.client with
  | some port => if d.dieIndex = 0 then d.queueHalt (queueKey port p.queue.toNat) 1 p.seq.toNat else d
  | none => d

/-- Is the queue's fetching on: queue 0 enabled, or a `QUEUE` object ENABLED, not halted and open (R62, R87, R98)? -/
def MDie.queueRuns (d : MDie) (key : Nat) : Bool :=
  match d.queueCfg key, d.queue? key with
  | some c, some q => d.doorsOpen key && c.on && !q.halted
  | _, _ => false

/-- A packet whose checks of length follow: in force at once, or at its stamp (log 40). -/
def MDie.commandOf (d dq : MDie) (op : Op) (p : Pkt) (pid : Option Nat) (ring : Nat) : MDie :=
  if p.len.toNat < 2 ∨ 128 < p.len.toNat then dq.badLen op p pid
  else d.orHold (dq.take true op.code p pid) op.code p none ring

/-- A command packet arrives as a row (log 40). One of a host of this lead die is the head of its queue: nothing comes from a queue that
does not run, and it waits behind an earlier packet, its `FENCE`, or for two free reply records (R64, R83, R85). -/
def MDie.command (d : MDie) (op : Op) (p : Pkt) : MDie :=
  if !d.takesPackets p || !d.knows p.client then d
  else match hostOf p.client with
    | none => d.commandOf d op p none 0
    | some port =>
      let key := queueKey port p.queue.toNat
      if d.dieIndex ≠ 0 then d.commandOf d op p none 0
      else if !d.queueRuns key then d
      else if d.queueHeld (replyTo op.code p none) || !d.canFetch key || d.fenced key p then d.hold op.code p none 2
      else
        let (dq, pid) := d.fetched key op.code p false
        d.commandOf dq op p pid 2

/-! Packets of other dies. -/

/-- Client of a `CMD` packet (R36, R464): a host of this package for one that its lead die forwards, else the node it comes from. -/
def MDie.cmdClient (d : MDie) (src origin : Nat) : U16 :=
  let inside : Bool := d.fab.node != 0xFFFF && decide (d.fab.node - d.dieIndex ≤ src ∧ src < d.fab.node - d.dieIndex + d.nDies)
  match originHost origin with
  | some p => if inside then clientOf p else BitVec.ofNat 16 src
  | none => BitVec.ofNat 16 src

/-- `CMD` received. -/
def MDie.takeCmd (d : MDie) (m : FabMsg) : MDie :=
  if !d.boot.ready then d
  else
    let origin := bitsOf m.pkt.xtag 4 3
    let (code, p) := pktDecode (d.cmdClient m.pkt.src origin) origin (m.pkt.xtag % 8) m.pkt.payload
    d.orHold (d.take false code p none) code p none 0

/-- One reply record of a command forwarded from here (R64, R75, R86). -/
def MDie.takeReplyRec (d : MDie) (port : HostPort) (queue : Nat) (b : List Byte) : MDie :=
  let key := queueKey port queue
  let seq : U32 := BitVec.ofNat 32 (rdU b 0 4)
  let code : U16 := BitVec.ofNat 16 (rdU b 4 2)
  let st := rdU b 6 2
  let late : MDie := (d.bump 0 Par.systemLateReplies 0 1).post 0
    (report Evt.lateReply d.tick0 (d16 (clientOf port).toNat ++ d8 queue ++ d8 0 ++ d32 seq.toNat ++ d16 code.toNat ++ d16 st))
  match d.queue? key with
  | none => late
  | some q => match q.flights.find? (fun f => f.fwd.isSome && f.seq == seq && f.opcode == code
        && (f.holds || decide (st = Status.cancelled.code))) with
    | none => late
    | some f =>
      let d := if f.ack || decide (0x10 ≤ st) then
          (d.emit (.reply (clientOf port) 0 queue b)).replyRecord port key b
        else d
      let t := rdU b 16 4 * 1000000000 + rdU b 20 4
      let f' : Flight :=
        if st = 2 then { f with settled := true, task := BitVec.ofNat 32 (rdU b 8 4) }
        else if st < 2 then { f with settled := true, res2 := false, due := some t, task := 0 }
        else { f with settled := true, res1 := false, res2 := false, due := none, task := 0 }
      match d.queue? key with
      | some q => d.setQueue key { q with flights := (q.flights.map (fun x => if x.pid = f.pid then f' else x)).filter (fun x => x.stays) }
      | none => d

/-- `REPLY` received (R463, R464). -/
def MDie.takeReply (d : MDie) (m : FabMsg) : MDie :=
  match originHost (bitsOf m.pkt.xtag 4 3) with
  | none => d
  | some port =>
    (List.range m.pkt.xaux.toNat).foldl (fun (d : MDie) i => d.takeReplyRec port (m.pkt.xtag % 8) (fitBytes 32 (m.pkt.payload.drop (32 * i)))) d

/-- No reply in time (R86). -/
def MDie.cmdTimeout (d : MDie) (pid : Nat) : MDie :=
  d.rm.queues.foldl (fun (d : MDie) (x : Nat × QueueRt) => match x.2.flights.find? (fun f => f.pid = pid && !f.settled) with
    | none => d
    | some f => match f.fwd with
      | none => d
      | some (_, due) => match d.passUp due with
        | none => d
        | some d =>
          let port := portOfKey x.1
          let rt : ReplyTo := { client := clientOf port, origin := 0, queue := x.1 % 8, seq := f.seq, opcode := f.opcode, ackReq := f.ack, pid := some pid }
          ((d.reply rt .timeout noResult d.ns).release1 rt).release2 rt) d

/-! Dispatch of tasks (R111, R112). -/

/-- One ready task is dispatched, if it is refused or a slot is free for it. -/
def MDie.dispatch (d : MDie) : MDie :=
  match d.nextTask with
  | none => d
  | some (n, t) =>
    let p := { t.pkt with task := none, flags := t.pkt.flags &&& 0xFD }
    let ended (d : MDie) (st : Status) : MDie := { d with rm := { d.rm with ended := d.rm.ended ++ [(n, 1, st.code)] } }
    let eff := d.effectTick false (d.targetPeriod p.target) p
    let dp := d.projected eff.1
    let chk := if t.op = .taskWait then dp.ownBad .nop p clientTurnstile else dp.ownBad t.op p clientTurnstile
    let chk := if t.op = .taskWait then (match chk with | some (5, s, r) => some (5, s, r) | _ => none) else chk
    match chk with
    | some (_, s, r) => ended ((((d.refusalNote t.op p r).reply t.rt s r d.ns).release1 t.rt).release2 t.rt) s
    | none =>
      if !d.slotFor clientTurnstile then { d with rm := { d.rm with stalled := some t.intake } }
      else
        let d := d.setTask n { t with st := .dispatched eff.1 (if eff.2 then Status.okLate.code else Status.ok.code) }
        d.enlist dp false t.op p t.rt clientTurnstile (some n) eff

/-- Every task that can be is dispatched. -/
def MDie.dispatchAll : Nat → MDie → MDie
  | 0, d => d
  | k + 1, d => match d.nextTask with
    | none => d
    | some (n, _) =>
      let d' := d.dispatch
      match d'.task? n with
      | some t => if t.gone ∨ d'.rm.ended ≠ d.rm.ended then d'.turnEnds.dispatchAll k else d'
      | none => d'.dispatchAll k

/-! Accepted commands at their tick (R48 … R53, R74). -/

/-- Is the target of an accepted command gone? -/
def MDie.targetGone (d : MDie) (a : Action) : Bool :=
  a.op != .objectCreate && a.op != .nop && a.op != .taskWait && a.op != .taskSignal && a.op != .taskCancel && (d.find a.pkt.target).isNone

/-- One accepted command takes effect; one whose target has been destroyed is cancelled (log 41). -/
def MDie.apply (d : MDie) (a : Action) (t : Nat) : MDie :=
  if d.boot.inReset then d
  else if d.targetGone a then d.cancelled a
  else if a.op = .sysReset then d.sysReset
  else
    let (d, res) := if a.op = .lcChallenge then (d, noResult) else d.eff a t
    let d := if a.late ∧ ownReply a.op = false then (d.reply a.rt (if a.okLate then .okLate else .ok) res t).release2 a.rt else d
    match a.task with
    | some n => { d with rm := { d.rm with ended := d.rm.ended ++ [(n, 0, 0)] } }
    | none => if ownReply a.op then d else d.release1 a.rt

/-- An accepted command leaves its action slot and takes effect, unless something before it at the tick has ended it. -/
def MDie.applyOne (d : MDie) (t : Nat) (a : Action) : MDie :=
  if d.rm.actions.any (fun x => x.seq = a.seq) then
    (({ d with rm := { d.rm with actions := d.rm.actions.filter (fun x => x.seq ≠ a.seq) } } : MDie)).apply a t
  else d

/-- Does a command read what its tick brings about, so that it is answered after the work of the tick (R51, R74, R92; log 131)? A writable
parameter is read in its place among the commands of the tick, and so is an object that a later one of them destroys. -/
def Action.readsTick (a : Action) (later : List Action) : Bool :=
  lateReply a.op && a.op != .lgrpTakeFlags
    && (a.op != .paramGet || (match paramRow? (rdU a.pkt.body 0 2) with | some r => r.access == .ro | none => false))
    && !later.any (fun b => b.op == .objectDestroy && b.pkt.target == a.pkt.target)

/-- The commands of a tick in their order, but for the reads that wait for its work. -/
def MDie.applyAll (t : Nat) : List Action → MDie → MDie
  | [], d => d
  | a :: r, d => MDie.applyAll t r (if a.readsTick r then d else d.applyOne t a)

/-- The accepted commands whose tick is not after `t`, in order of acceptance at each tick. -/
def MDie.dueAt (d : MDie) (t : Nat) : List Action := actionOrder (d.rm.actions.filter (fun a => decide (a.effect ≤ t)))

/-- The accepted commands whose tick is not after `t` take effect, in order of acceptance at each tick (R52); a tick skipped by a step of
MTIME is made up for at the first tick after it (R57). -/
def MDie.applyDue (d : MDie) (t : Nat) : MDie := MDie.applyAll t (d.dueAt t) d

/-- The reads of a tick, those left of its commands, are answered after its work (R74). -/
def MDie.readDue (d : MDie) (t : Nat) (due : List Action) : MDie := due.foldl (fun (d : MDie) a => d.applyOne t a) d

end Sys2Proof.Machine
end

