-- ==== Sys2Proof/Machine/BootDie.lean ====
section
/-! DEFINITION. Boot (R551 … R553, R559 … R565, R583 … R586): its stages, the base image, the replay of the journal, the opening of the
host queues. -/

namespace Sys2Proof.Machine

open Sys2Proof

/-- Let time pass to so many µs after the release of reset, if that lies ahead. No tick of a die that boots has work to do. -/
def MDie.bootAt (d : MDie) (us : Nat) : MDie :=
  match d.passBoot (d.boot.released + us * 1000) with
  | some d => { d with tick := max d.tick (d.ns / 16000 * 16000) }
  | none => d

def MDie.setStage (d : MDie) (k : Nat) : MDie := { d with boot := { d.boot with stage := k } }

/-! Stage 0 (R553, R566, R568, R585). -/

/-- A pending life-cycle change is completed, and the boot slot chosen; a selection made for this boot is used up. -/
def MDie.bootRom (d : MDie) (prof : Nat) : MDie :=
  if d.mram.lcBad.all id then d.setStage 0xE
  else
    let m := d.mram.wiped
    let pins := prof % 4
    { d with mram := { m with nextSlot := none }
             boot := { d.boot with stage := 1, profPins := pins, bootSlot := m.nextSlot.getD pins } }

/-! Stage 1 (R565). -/

/-- A boot has failed. -/
def Mram.bootFailed (m : Mram) : Mram := { m with fwFails := min 3 (m.fwFails + 1) }

/-- Is a bank VERIFIED? -/
def Mram.verified (m : Mram) (k : Nat) : Bool := match m.banks[k]? with | some b => b.st == 2 | none => false

/-- After three failed boots the other bank is the selected one, if it is VERIFIED. -/
def MDie.fallback (d : MDie) : MDie :=
  let other := 1 - d.mram.fwNext % 2
  if 3 ≤ d.mram.fwFails ∧ d.mram.verified other = true then
    { d with boot := { d.boot with fellFrom := some d.mram.fwNext }, mram := { d.mram with fwNext := other, fwFails := 0 } }
  else d

/-- The selected bank is checked as `FW_VERIFY` does. A bank that fails is tried again while the other one can be the fallback. -/
def MDie.bootFirmware (d : MDie) : MDie :=
  let d := d.fallback
  let k := d.mram.fwNext
  let fails := match d.mram.banks[k]? with
    | some b => fwCheck b d.mram.lc d.mram.fwMinSvn d.mram.ownerKey
    | none => some 1
  match fails with
  | none => { d with boot := { d.boot with stage := 2, bank := k } }
  | some _ =>
    let d := { d with mram := d.mram.bootFailed }
    if d.mram.verified (1 - k % 2) then d.enterReset 8 else d.setStage 0xF

/-! Stage 2 (R411, R551 … R553). -/

/-- Values of a valid base image by fixed slot. -/
def baseOf (m : Memory) : List (Nat × Params) :=
  fixedSlots.filterMap (fun x => let ps := almParams m x.1; if ps = [] then none else some (x.1, ps))

/-- The read-only parameters that are kept (R6): the commit level (R478) and the granules claimed (R571) take the base image's value, which
replay then changes. -/
def MDie.takeKept (d : MDie) : MDie :=
  let level := d.sysPs.u Par.systemCommitLevel
  let mask := d.sysPs.u Par.systemMemClaimed
  let d := if level = 0 then d else d.modFab (fun f => { f with commit := level })
  if mask = 0 then d else { d with mem := { d.mem with claimed := (List.range 64).filter (fun g => bitOf mask g) } }

/-- The base image of the boot slot is restored, or found invalid. -/
def MDie.restoreBase (d : MDie) : MDie :=
  let s := (d.mram.slots[d.boot.bootSlot]?).getD ⟨0, [], []⟩
  if s.state = 2 ∧ s.check = none then
    let base := baseOf s.data
    let d := { d with boot := { d.boot with base := base } }
    (base.foldl (fun (d : MDie) (x : Nat × Params) => d.modObj x.1 (fun o =>
      { o with params := x.2.foldl (fun (ps : Params) (e : Nat × U64) => alSet ps e.1 e.2) o.params })) d).takeKept
  else d.post (2 + d.boot.bootSlot) (faultEv Evt.profileInvalid d.tick0 (d8 s.state))

/-- Is the boot slot valid? -/
def MDie.bootSlotOk (d : MDie) : Bool :=
  let s := (d.mram.slots[d.boot.bootSlot]?).getD ⟨0, [], []⟩
  s.state == 2 && s.check.isNone

/-- In END the field outputs are held off (R567). -/
def MDie.endHold (d : MDie) : MDie :=
  if d.mram.lc = 4 then { d with field := { d.field with chans := d.field.chans.map Chan.disable } } else d

/-- Ports enabled at boot (R453), and what the election of this boot uses (R467, R469). -/
def MDie.bootPorts (d : MDie) : MDie :=
  let on (k : Nat) : Bool := if isExtPort k then (d.portPs k).u Par.portAutoEnable == 1 else d.nDies != 1
  let d := { d with fab := { Fab.create d.fab.commit ⟨d.sysPs.u Par.systemFabricPrio, d.serial.toNat, d.dieIndex⟩ (d.sysPs.u Par.systemNodeBaseReq)
                             with begun := d.upNs, since := d.upNs, seenAt := d.upNs, lastDisc := d.upNs, bulkRound := d.upNs / 10000 * 10000 } }
  (List.range 4).foldl (fun (d : MDie) k => if on k then (d.setLife (portSlot k) .enabled).portEnableDo k else d) d

def MDie.bootProfile (d : MDie) : MDie :=
  let d := ({ d with pairLink := true }.endHold.logicReturn).restoreBase
  (d.bootPorts).setStage 3

/-! Stage 4: replay (R559 … R561). -/

/-- Why the journal is refused, 0 where it is not. A half without a recorded node base is a new one. -/
def MDie.journalRefusal (d : MDie) : Nat :=
  let j := d.mram.journal
  if !d.bootSlotOk then 3
  else if j.base = 0xFFFF then 0
  else if j.base ≠ d.heldBase then 1
  else if j.slot ≠ d.boot.bootSlot then 2
  else 0

/-- The object a record concerns: slot and generation. -/
def JRec.concerns (r : JRec) : Option (Nat × Nat) :=
  if r.rtype = 1 ∨ r.rtype = 2 then some (r.slot, r.gen)
  else if r.rtype = 3 then some (r.slot, (r.gen + 7) % 8)
  else none

/-- The slot of a record gets its generation; what it held is gone. -/
def MDie.replayGen (d : MDie) (n gen : Nat) : MDie :=
  let d := d.destroyDo n
  if 256 ≤ n ∧ n < 4096 then { d with slots := alSet d.slots n ⟨gen % 8, .free⟩ } else d

/-- `CREATE`. -/
def MDie.replayCreate (d : MDie) (r : JRec) : Except Status MDie :=
  match classOfCode r.cls with
  | none => .error .badParam
  | some c =>
    let client : U16 := BitVec.ofNat 16 r.client
    let charge : U16 := if r.tsCharge then clientTurnstile else client
    let n := r.slot
    if fixedOnly c ∨ !journalled c ∨ n < 256 ∨ (d.obj? n).isSome then .error .badParam
    else match d.classCreateBad client c r.cword, d.template client c r.cword with
      | some (_, s, _), _ => .error s
      | none, none => .error .badParam
      | none, some (ps, x) =>
        let (d, origin) := if isRemoteClient client then d.draw 3 else (d, 0)
        let (d, x) := if c = .cam then d.camCreate n r.cword else (d, x)
        .ok { d with slots := alSet d.slots n ⟨r.gen, .obj (newObj r.cword client charge origin ps x)⟩ }

/-- `PARAM`. -/
def MDie.replayParam (d : MDie) (r : JRec) : Except Status MDie :=
  match d.obj? r.slot with
  | none => .error .staleHandle
  | some o =>
    let e : Entry := ⟨r.pid, r.pidx, 0, r.value⟩
    match d.entryBad clientPcie r.slot { o with life := .created } (o.params.set e.id e.ix e.v) e with
    | some (_, s, _) => .error s
    | none => .ok (d.applyEntries r.slot d.tick0 [e])

/-- One record. -/
def MDie.replayRec (d : MDie) (r : JRec) : Except Status MDie :=
  if r.rtype = 1 then d.replayCreate r
  else if r.rtype = 2 then d.replayParam r
  else if r.rtype = 3 ∨ r.rtype = 4 then .ok (d.replayGen r.slot r.gen)
  else if r.rtype = 5 ∧ d.mem.claimed.contains (r.cword % 64) then .ok d
  else if r.rtype = 5 then (match d.mem.claim (r.cword % 64) with
    | .ok m => .ok { d with mem := m }
    | .error s => .error s)
  else if r.rtype = 6 then .ok { d with mem := d.mem.unclaim (r.cword % 64) }
  else .ok ((d.modFab (fun f => { f with commit := r.value.toNat })).setPar 0 Par.systemCommitLevel 0 r.value)

/-- The records of one command; the first that fails with its status. -/
def MDie.replayGroup : List JRec → MDie → Except (JRec × Status) MDie
  | [], d => .ok d
  | r :: rs, d => match d.replayRec r with
    | .ok d => d.replayGroup rs
    | .error s => .error (r, s)

/-- One command: whole, or skipped with every later record of its objects. -/
def replayStep (x : MDie × List (Nat × Nat)) (g : List JRec) : MDie × List (Nat × Nat) :=
  let (d, skip) := x
  let g := g.filter (fun r => match r.concerns with | some k => !skip.contains k | none => true)
  match d.replayGroup g with
  | .ok d => (d, skip)
  | .error (r, s) =>
    (d.post 0 (faultEv Evt.journalReplayError d.tick0 (d16 r.slot ++ d16 s.code ++ d32 r.seq)), skip ++ g.filterMap JRec.concerns)

/-- After replay: freed slots in ascending order. -/
def MDie.freeAscending (d : MDie) : MDie :=
  { d with freed := (d.slots.filter (fun (x : Nat × Slot) => decide (256 ≤ x.1) && x.2.occ == .free)).map (fun (x : Nat × Slot) => x.1) }

/-- The records kept are applied; nothing is recorded meanwhile. -/
def MDie.replayAll (d : MDie) (kept : List JRec) : MDie :=
  let (d, _) := (jGroups [] kept).foldl replayStep (d.setJournal { d.mram.journal with st := 1 }, [])
  d.freeAscending

def MDie.bootReplay (d : MDie) : MDie :=
  let j := d.mram.journal
  let cause := d.journalRefusal
  if cause ≠ 0 then
    (d.setJournal { j with st := 1, cause := cause, pend := [], snap := none }).post 0
      (faultEv Evt.journalRefused d.tick0 (d8 cause ++ [0] ++ d16 j.base ++ d8 j.slot))
  else
    let (kept, torn) := j.sound
    let last := (kept.getLast?.map (fun r => r.seq)).getD ((j.first + 2 ^ 32 - 1) % 2 ^ 32)
    let d := match torn with
      | some (first, n) => d.post 0 (report Evt.journalTorn d.tick0 (d32 first ++ d32 n))
      | none => d
    let d := d.replayAll kept
    d.setJournal { j with st := 0, cause := 0, slot := d.boot.bootSlot, base := d.heldBase, recs := kept, pend := [], snap := none, torn := none,
                          next := (last + 1) % 2 ^ 32, committed := last }

/-- The boot of the die completes (R565). -/
def MDie.bootComplete (d : MDie) : MDie :=
  let svn := ((d.mram.banks[d.boot.bank]?).map FwBank.svn).getD 0
  let d := match d.boot.fellFrom with
    | some k => d.post 0 (faultEv Evt.fwFallback d.tick0
        (d8 d.boot.bank ++ d8 k ++ [0, 0] ++ d32 (((d.mram.banks[k]?).map FwBank.svn).getD 0)))
    | none => d
  { d with mram := { d.mram with fwFails := 0, fwMinSvn := if d.mram.lc = 2 then max d.mram.fwMinSvn svn else d.mram.fwMinSvn } }.setStage 5

/-! The rows. -/

/-- A stage of this die completes. Stage 3 is over once the node base is known, by discovery or by R471. -/
def MDie.bootStage (d : MDie) (prof us : Nat) : MDie :=
  if d.boot.inReset ∨ d.boot.ready ∨ 5000000 < us ∨ d.boot.released + 5000000000 < d.upNs then d
  else
    let d1 := d.bootAt us
    match d.boot.stage with
    | 0 => d1.bootRom prof
    | 1 => d1.bootFirmware
    | 2 => d1.bootProfile
    | 3 =>
      let d2 := d1.ownFabric
      if d2.fab.node = 0xFFFF then d2 else d2.setStage 4
    | 4 => d1.bootReplay.bootComplete
    | _ => d

/-- Another die of the package has completed its boot (R581), after a reset that the lead die need not have seen begin. -/
def MDie.dieUp (d : MDie) (die cause us : Nat) : MDie :=
  if d.boot.inReset ∨ d.dieIndex ≠ 0 ∨ die = 0 ∨ d.nDies ≤ die then d
  else ({ d with diesUp := if d.diesUp.contains die then d.diesUp else d.diesUp ++ [die] }).post 0 (report Evt.dieReset d.tick0 (d8 die ++ d8 cause ++ [0, 0] ++ d32 us))

/-- `BOOT_STAGE_COMPLETE`: of this die, or of another one as the lead die learns of it. -/
def MDie.bootStageComplete (d : MDie) (die prof cause us : Nat) : MDie :=
  if die = d.dieIndex then d.bootStage prof us else d.dieUp die cause us

/-- Boot has not reached stage 5 within 5 s (R565). -/
def MDie.bootTimeout (d : MDie) : MDie :=
  if d.boot.inReset ∨ 5 ≤ d.boot.stage then d
  else
    let d := d.bootAt 5000000
    ({ d with mram := d.mram.bootFailed }).enterReset 8

/-- Is every die of the package at stage 5? -/
def MDie.allUp (d : MDie) : Bool := d.dieIndex != 0 || (List.range d.nDies).all (fun k => k == 0 || d.diesUp.contains k)

/-- A record held during boot names its source under the node the die has now. -/
def MDie.resource (d : MDie) (e : EvRec) : EvRec :=
  { e with src := mkHandle (hClass e.src) d.fab.node (hGen e.src) (hSlot e.src) }

/-- `HOST_QUEUES_OPEN` (R584). -/
def MDie.queuesOpen (d : MDie) (us : Nat) : MDie :=
  if d.boot.inReset ∨ d.boot.ready ∨ d.boot.stage ≠ 5 ∨ (!d.allUp && us < 5000000) then d
  else
    let d := d.bootAt (min us 5000000)
    let bootUs := (d.upNs - d.boot.released) / 1000
    let held := d.boot.events.map (fun e => d.resource e)
    let d := if d.dieIndex = 0 then d.emit (.edge .ready d.ns true) else d
    let d := { d with boot := { d.boot with ready := true, bootUs := bootUs, events := [] }, posted := held ++ d.posted }
    (d.post 0 (report Evt.bootDone d.tick0
      (d8 d.mram.resetCause ++ d8 d.boot.bootSlot ++ d8 d.boot.bank ++ d8 (min 255 d.boot.dropped) ++ d32 bootUs))).fieldHold

/-! Supplies, `RESET_N`, life cycle, pair link. -/

def MDie.resetLow (d : MDie) : MDie := { d with boot := { d.boot with resetN := false } }.enterReset 2

def MDie.resetRise (d : MDie) : MDie := { d with boot := { d.boot with resetN := true } }

/-- A logic supply falls below its threshold (R576). -/
def MDie.supplyDip (d : MDie) (rail : Nat) : MDie :=
  if 4 ≤ rail then d else { d with boot := { d.boot with supplyOk := d.boot.supplyOk.set rail false } }.enterReset 1

/-- Every supply has been above its rising threshold for 1 ms (R576). -/
def MDie.supplyRestored (d : MDie) : MDie :=
  if d.boot.supplyOk.all id then d
  else { d.passTo (d.ns + 1000000) with boot := { d.boot with supplyOk := [true, true, true, true] } }

/-- The wipe of a life-cycle change is done: the new state is written and every die is reset (R568). -/
def MDie.wipeComplete (d : MDie) : MDie :=
  if d.mem.wiping.isSome ∧ d.mram.lcIntent.isSome then { d with mram := d.mram.wiped }.enterReset 7 else d

/-- A challenge ends (R568). -/
def MDie.challengeExpiry (d : MDie) : MDie :=
  match d.mem.challenge with
  | some (_, t) => match d.passUp t with
    | some d => { d with mem := { d.mem with challenge := none } }
    | none => d
  | none => d

/-- The pair link goes down while the M die runs (R148, R411). -/
def MDie.pairLost (d : MDie) : MDie :=
  if d.pairLink then ({ d with pairLink := false }.fbkPairLost d.tick0).fioLinkLost d.tick0 else d

/-- It comes up again: sources and channels can be enabled again. -/
def MDie.pairRestored (d : MDie) : MDie :=
  if d.pairLink ∨ d.boot.stage < 3 ∨ 5 < d.boot.stage then d else { d with pairLink := true }.logicReturn

end Sys2Proof.Machine
end

