-- ==== Sys2Proof/Machine/Tick.lean ====
section
/-! DEFINITION. The sample tick (R42 … R53): what fell due before it, then what begins with it. Clean boundaries (R31). -/

namespace Sys2Proof.Machine

open Sys2Proof

/-! Before the tick. -/

/-- The gate of one group of the tick in progress, with what debug asks of its engine first (R282, R598, R599). -/
def MDie.gateOf (d : MDie) (n : Nat) : MDie :=
  match d.lgrp? n with
  | none => d
  | some (_, g) => (((d.engineHalt g.engine).engineResume g.engine).debugStep g.engine d.tick).lgrpGate n d.tick

/-- Trigger firings of a group reach the DMA engine (R511). -/
def MDie.fired (x : MDie × List (Nat × Nat)) (n : Nat) : MDie := x.2.foldl (fun (d : MDie) f => d.dmaTrigger n f.1) x.1

/-- Boundaries and triggers of every PWM group before `T`. -/
def MDie.pwmBefore (d : MDie) (T : Nat) : MDie := (d.slotsOf .pwmg).foldl (fun (d : MDie) n => MDie.fired (d.pwmRun n T 4096) n) d

/-- Every gate of the tick in progress that has not run. -/
def MDie.gates (d : MDie) : MDie :=
  let t := d.tick
  let d := if d.engines.any (fun x => x.haltReq) then d.pwmBefore (t + 1000) else d
  let d := (List.range 2).foldl (fun (d : MDie) e => ((d.engineHalt e).engineResume e).debugStep e t) d
  ((d.slotsOf .lgrp).foldl (fun (d : MDie) n => d.lgrpGate n t) d).gateDone t

/-- Boundaries that lie on the tick. -/
def MDie.pwmAtTick (d : MDie) (T : Nat) : MDie :=
  (d.slotsOf .pwmg).foldl (fun (d : MDie) n => match d.pwmg? n with
    | some (_, g) => if nsOfCc g.next ≤ T then MDie.fired (d.pwmBoundary n) n else d
    | none => d) d

/-- Held packets for which there is room now. -/
def MDie.acceptAll : Nat → MDie → MDie
  | 0, d => d
  | k + 1, d => if d.rm.held = [] then d else d.acceptHeld.acceptAll k

/-- What remains to be done before class 0 tick `T`. -/
def MDie.beforeTick (d : MDie) (T : Nat) : MDie :=
  let d := d.dispatchAll (d.tasks.length + 1)
  let d := d.gates
  let d := d.edgesBefore T 8192
  let d := d.fioRun T
  let d := d.pwmBefore T
  (d.sdinTick T).ppsFall

/-! At the tick. -/

/-- Traces that drain end with their tick (R331). -/
def MDie.traceTick (d : MDie) (t : Nat) : MDie :=
  (d.slotsOf .trace).foldl (fun (d : MDie) n => match d.trace? n with
    | some (o, _) => if o.life = .draining then d.traceEnd n t else d
    | none => d) d

/-- Group ticks after the samples of their axes. -/
def MDie.groupsTick (d : MDie) (t : Nat) : MDie :=
  (d.slotsOf .lgrp).foldl (fun (d : MDie) n => match d.lgrp? n with
    | some (o, _) => if isTick (classPeriod (o.params.u Par.lgrpRateClass)) t then d.lgrpTick n t else d
    | none => d) d

/-- Feedback: uplinks and samples published, before the commands of the tick. -/
def MDie.inputsTick (d : MDie) (t : Nat) : MDie := (d.laneUplinks t).fbkTick t

/-- Indices checked, and faults found since the last tick applied (R145). -/
def MDie.fbkApply (d : MDie) (t : Nat) : MDie := (d.slotsOf .fbk).foldl (fun (d : MDie) n => (d.fbkIndices n).fbkDue n t) d

/-- Outputs of the tick: edges placed, loop words and downlink frames, PWM transfers, published inputs. -/
def MDie.outputsTick (d : MDie) (t : Nat) (notes : List RecNote) : MDie :=
  ((((d.camErrors t).edgesTick t notes).lanesTick t).pwmAtTick t).fioTick t

/-- Units that act at a tick whatever moves: status frames, mailboxes, traces, journal, fabric, time, DMA. -/
def MDie.unitsTick (d : MDie) (t : Nat) : MDie :=
  let d := ((((d.safeFrames t).safeTimeout t).canmbTick).traceTick t)
  (((d.levelTick.fabTick).timeTick).jTick.jCompact).dmaTick t

/-- The work of the tick that starts at `t`. A `SYS_RESET` among its commands ends it; a step of MTIME among them moves the tick (R57). -/
def MDie.tickWork (d : MDie) (t : Nat) : MDie :=
  let d := { d with tick := t }
  let d := d.inputsTick t
  let (d, notes) := d.takeRecords t
  let due := d.dueAt t
  let d := (d.reversals t).applyDue t
  let t := d.tick
  if d.boot.inReset then d
  else
    let d := (d.fbkApply t).plannerTick t notes
    let d := (d.groupsTick t).outputsTick t notes
    let d := (d.unitsTick t).readDue t due
    d.acceptAll (d.rm.held.length + 1)

/-- `SAMPLE_TICK`: time runs to the next class 0 tick and its work is done. A die in reset only lets time pass. -/
def MDie.sampleTick (d : MDie) : MDie :=
  let T := d.nextTick
  if d.boot.inReset then { (d.fioRun T).passTo T with tick := T }
  else if d.mem.wiping.any (fun t => decide (t < d.upNs + 16000)) then d.wipeComplete
  else
    let d := ((d.beforeTick T).passTo T).wholeSecond
    d.tickWork d.ns

/-- One base tick passes (R41); where it ends at a sample tick, that tick begins. -/
def MDie.baseTick (d : MDie) : MDie :=
  if d.nextTick ≤ d.ns + 4 then d.stepWith (fun d => d.sampleTick) else { d.passTo (d.ns + 4) with out := [] }

/-- A stamped command's tick is reached (R53): the tick at which it is due begins. -/
def MDie.stampReached (d : MDie) : MDie :=
  if d.rm.actions.any (fun a => a.stamped && decide (a.effect = d.nextTick)) then d.sampleTick else (d.applyDue d.tick).readDue d.tick (d.dueAt d.tick)

/-! Clean boundaries (R31). -/

/-- A draining object whose boundary is reached now, or before the next class 0 tick, is DISABLED. -/
def MDie.cleanBoundary (d : MDie) (n : Nat) : MDie :=
  match d.obj? n with
  | none => d
  | some o =>
    if o.life ≠ .draining then d
    else
      let T := d.nextTick
      match o.data with
      | .axis a => if a.core.draining ∧ atRest a.cur ∧ a.core.plan.endsAt ≤ d.tickOf n then d.axisEnd n (d.tickOf n) else d
      | .path _ => d.pathTickAt n (d.tickOf n)
      | .evt c => match c.pulseEnd with
        | some t => if t ≤ T then (d.passTo t).evtPulseEnd n else d
        | none => d
      | .lclk l => match l.pulseEnd with
        | some t => if t ≤ T then (d.passTo t).lclkPulseEnd n else d
        | none => d
      | .lgrp g => match g.dropAt with
        | some t => if t ≤ d.ns ∧ d.lgrpHalted g = false then d.lgrpDrop n d.tick else d
        | none => d.lgrpSettled n (d.tickOf n)
      | .fbk f => (((d.passTo T).setData n (.fbk (fbkInvalid f)))).toIdle n T
      | .trace _ => (d.passTo T).traceEnd n T
      | .pwmg g => if nsOfCc g.next ≤ T then MDie.fired ((d.passTo (nsOfCc g.next)).pwmBoundary n) n else d
      | .sdin _ => d.sdinTick d.ns
      | .dlane l => if l.link < 2 ∨ l.drain = some 0 then ((d.passTo T).setData n (.dlane { l with link := 0, drain := none })).toIdle n T else d
      | .fio k => match d.chan? k with
        | some (o, ch) => match fioBoundary o.params ch o.drainAt with
          | some b => if b ≤ T then (d.passTo b).fioDrainTick k b else d
          | none => d
        | none => d
      | .port k => match (d.ports[k]?).bind Port.withdrawDue with
        | some due => match d.passUp due with
          | some d => d.portWithdrawn k
          | none => d
        | none => d
      | .canc _ => d.cancSettle n d.tick
      | .queue _ => d.queuesSettle
      | _ => d

end Sys2Proof.Machine
end

