-- ==== Sys2Proof/Machine/Rows.lean ====
section
/-! DEFINITION. What the rows of the table share: the sides they act on, packets that arrive at a port, conditions and timers that come
true at a moment of their own before the next class 0 tick. -/

namespace Sys2Proof.Machine

open Sys2Proof

/-! Sides. -/

/-- A row of the motion side: nothing happens while the die is in reset. -/
def onDie (s : State) (f : MDie → MDie) : Host.Outcome State Fault Refusal := .next { s with md := s.md.live f }

/-- A row that acts on the F die, or in reset too. -/
def onDieAny (s : State) (f : MDie → MDie) : Host.Outcome State Fault Refusal := .next { s with md := s.md.stepWith f }

/-- The outputs of an earlier step are gone. -/
def State.quiet (s : State) : State := { s with md := { s.md with out := [] } }

/-- A row of the safety island (R419): the motion side sees its request wires, and nothing else. -/
def onIsland (s : State) (f : Island → Island) : Host.Outcome State Fault Refusal := .next (s.setIsl (f s.isl)).quiet

/-- A command packet as a row (R46 … R53, log 40). -/
def onPacket (op : Op) (p : Pkt) (s : State) : Host.Outcome State Fault Refusal := onDie s (fun d => d.command op p)

/-- A host port exists on the lead die alone. -/
def MDie.host (d : MDie) (f : MDie → MDie) : MDie := if d.dieIndex = 0 then f d else d

/-- Act at a running time, if it comes before the next class 0 tick. -/
def MDie.whenUp (d : MDie) (due : Nat) (f : MDie → MDie) : MDie :=
  match d.passBoot due with
  | some d => f d
  | none => d

/-- Act at an MTIME, if it comes before the next class 0 tick. -/
def MDie.whenNs (d : MDie) (t : Nat) (f : MDie → MDie) : MDie := if t ≤ d.nextTick then f (d.passTo t) else d

/-! TAP (R596, R597). -/

/-- What a TAP instruction selects shifts out. -/
def MDie.tapOut (d : MDie) : List Bool :=
  if d.tap.ir = 1 then (List.range 32).map (fun i => bitOf (idcodeOf d.nDies) i)
  else if d.tap.ir = 0xFF ∨ d.tap.ir = 4 ∨ d.tap.ir = 5 then [false]
  else d.tap.boundary

/-- A TAP instruction, by its code; `EXTEST`, `CLAMP` and `HIGHZ` hold every die in reset. -/
def MDie.tapSelect (d : MDie) (code : Nat) : MDie :=
  let d := { d with tap := { d.tap with ir := tapInstr d.mram.lc code } }
  let d := d.emit (.tap d.tapOut)
  if tapHolds d.tap.ir then d.enterReset 2 else d

def MDie.tapSample (d : MDie) (bits : List Bool) : MDie := { d with tap := { d.tap with boundary := bits } }.tapSelect 2

/-! Packets that arrive (R214 … R217, R231, R462 … R465). -/

/-- `STREAM`: its records wait for the next class 0 tick. -/
def MDie.takeStream (d : MDie) (m : FabMsg) : MDie :=
  let n := min m.pkt.xtag (m.pkt.payload.length / 48)
  { d with streamIn := d.streamIn ++ (List.range n).map (fun i => decodeRecord ((m.pkt.payload.drop (48 * i)).take 48)) }

/-- Records of a new receiver: the samples from the tick in progress on, the first with `SYNC`; of a source that is not ENABLED its rest. -/
def MDie.bindRecords (d : MDie) (n : Nat) (o : Obj) (a : Axis) : List StreamRec :=
  let h := d.handle n
  let lead := d.leadOf n o a
  let rs := if o.life = .enabled then a.ra.hor.map (streamRec h lead)
    else [{ streamRec h lead ⟨d.tickOf n, ⟨a.cur.p, 0, 0⟩, a.ra.epoch, false⟩ with final := true }]
  match rs with
  | r :: t => { r with sync := true } :: t
  | [] => []

/-- `BIND`: a receiver is added or removed (R231). A source has at most 32 (R214). -/
def MDie.takeBind (d : MDie) (m : FabMsg) : MDie :=
  match d.find m.pkt.xaux with
  | none => d
  | some (n, _) => match d.axis? n with
    | none => d
    | some (o, a) =>
      let node := m.pkt.src
      let others := a.ra.receivers.filter (fun r => r.1 ≠ node)
      let put (rs : List (Nat × Bool)) : MDie := d.setData n (.axis { a with ra := { a.ra with receivers := rs } })
      if m.pkt.xtag % 2 = 0 then put others
      else
        let rs := d.bindRecords n o a
        if 32 ≤ others.length then d else (put (others ++ [(node, rs.isEmpty)])).sendRecords node rs

/-- A packet for this die. -/
def MDie.packetHere (d : MDie) (m : FabMsg) (hostData : List Byte) : MDie :=
  match m.ptype with
  | 2 => d.takeStream m
  | 3 => d.takeCmd m
  | 4 => d.takeReply m
  | 5 => d.takeEvent m
  | 6 => d.takeBind m
  | 7 => d.e2eBack m
  | 11 => d.takeLevel m
  | 12 => d.takeBulkWrite m
  | 13 => d.takeBulkAck m
  | 14 => d.takeBulkRead m hostData
  | 15 => d.takeBulkData m
  | _ => d

/-- A time message, by its type (R485). -/
def MDie.timeHere (d : MDie) (k : Nat) (b : List Byte) : MDie :=
  match (TimeMsg.decode b).mtype with
  | 1 => d.takeSync k d.ns b
  | 2 => d.takeAnnounce k b
  | 3 => d.takePdelayReq k d.ns
  | 4 => d.takePdelayResp k d.ns b
  | _ => d

/-- A packet that arrived at an UP port: dropped without hops left (R465), taken where it is for this die or for its neighbour,
forwarded otherwise. A die without a node takes the routes that give it one. -/
def MDie.arrived (d : MDie) (k : Nat) (m : FabMsg) (hostData : List Byte) : MDie :=
  if m.ptype = 8 then d.takeDisc k m.pkt.payload
  else if m.ptype = 1 then d.timeHere k m.pkt.payload
  else if m.pkt.hops = 0 then d.bump (portSlot k) Par.portDropped 0 1
  else if m.ptype = 9 then d.takeTopoPacket k m
  else if m.ptype = 10 ∧ (d.fab.node = 0xFFFF ∨ m.pkt.dst = d.fab.node) then d.takeRoute m
  else if d.fab.node ≠ 0xFFFF ∧ m.pkt.dst = d.fab.node then d.packetHere m hostData
  else d.forward k m

/-- A packet row. -/
def MDie.packetIn (d : MDie) (k : Nat) (m : FabMsg) : MDie := if d.portUp k then d.arrived k m [] else d

/-- `BULK_READ`, with what the host memory it names holds. -/
def MDie.bulkReadIn (d : MDie) (k : Nat) (m : FabMsg) (hostData : List Byte) : MDie := if d.portUp k then d.arrived k m hostData else d

/-- A link frame (R455): the packet in it, once the link has accepted it. -/
def MDie.frameIn (d : MDie) (k lseq cls : Nat) (crcOk : Bool) (b hostData : List Byte) : MDie :=
  match d.linkFrame k lseq cls crcOk b with
  | (d, some m) => d.arrived k m hostData
  | (d, none) => d

/-- A time message that arrives at an MTIME. -/
def MDie.timeIn (d : MDie) (k arrival : Nat) (f : MDie → MDie) : MDie := if d.portUp k then d.whenNs arrival f else d

/-! Timers of ports, DMA, levels, status frames. -/

def MDie.trainTimeoutRow (d : MDie) (k : Nat) : MDie :=
  match d.ports[k]? with
  | some p => if p.link = 1 then d.whenUp (p.since + (d.portPs k).u Par.portTrainTimeout * 1000000) (fun d => d.trainTimeout k) else d
  | none => d

def MDie.retrainRow (d : MDie) (k : Nat) : MDie :=
  match d.ports[k]? with
  | some p => if p.link = 1 ∧ p.timedOut then d.whenUp (p.since + 100000000) (fun d => d.retrainTimer k) else d
  | none => d

def MDie.busTimeoutRow (d : MDie) (n : Nat) : MDie :=
  match d.dmac? n with
  | some (o, c) => if d.dmaOutside c then d.whenUp (c.since + o.params.u Par.dmacBusTimeout * 1000) (fun d => d.dmaTimeout n) else d
  | none => d

def MDie.switchRow (d : MDie) : MDie :=
  match d.fab.switch with
  | some (_, t) => d.whenNs t (fun d => d.levelTick)
  | none => d

def MDie.statusTimeout (d : MDie) : MDie :=
  if d.safe.lost ∨ d.safe.queue ≠ [] then d else d.whenNs (d.safe.at_ + 8000000) (fun d => d.safeTimeout d.ns)

/-! Feedback and motion. -/

/-- A snapshot at a multiple of 500 ns (R126). -/
def MDie.snapshotAt (d : MDie) (t : Nat) (srcs : List SrcSnap) : MDie :=
  if t % 500 = 0 ∧ d.ns ≤ t then d.whenNs t (fun d => d.snapshot t srcs) else d

def MDie.speedTimeout (d : MDie) (n : Nat) : MDie :=
  match d.fbk? n with
  | some (o, f) => d.whenNs (f.spd.baseTime + o.params.u Par.fbkSpeedTimeout * 1000 : Int).toNat (fun d => d.fbkSpeedTimeout n)
  | none => d

/-- The Planner sees the SS1 wires at the class 0 tick in progress (R184). -/
def MDie.ss1Row (d : MDie) : MDie :=
  let d := d.seeSs1 d.tick
  let d := (d.slotsOf .axis).foldl (fun (d : MDie) n => d.axisCond n d.tick) d
  d.follow d.tick

/-- A derived axis has committed too many samples from prediction (R224). -/
def MDie.predLimit (d : MDie) (n : Nat) : MDie :=
  match d.axis? n with
  | none => d
  | some (o, a) => match d.sourceOf n a with
    | none => d
    | some h =>
      if o.life = .enabled ∧ d.isRemote h = true ∧ o.params.u Par.axisPredLimit < a.ra.predRun then
        d.axisFault n (faultEv Evt.streamLost d.tick (d32 h.toNat ++ d16 a.ra.predRun)) (d.tickOf n)
      else d

/-- A line-clock output has placed edges from prediction for too long (R261). -/
def MDie.lclkPredLimit (d : MDie) (n : Nat) : MDie :=
  match d.lclk? n with
  | some (o, l) => if o.life = .enabled ∧ 0 < l.predRun ∧ o.params.u Par.lclkPredLimit ≤ l.predRun then d.lclkLost n d.ns l.predRun else d
  | none => d

/-! Edges (R246 … R257). -/

/-- What happens at the output of an object at a time, after everything that happens at outputs before it. -/
def MDie.edgeRow (d : MDie) (n kind t : Nat) : MDie :=
  if t ≤ d.nextTick then ((d.edgesBefore t 8192).passTo t).edgeDo (t, kind, n) else d

/-- The first placed edge of a compare event or line clock leaves. -/
def MDie.edgeLeaves (d : MDie) (n : Nat) : MDie :=
  match (d.obj? n).map (fun o => o.data) with
  | some (ObjData.evt c) => match c.placed with
    | e :: _ => d.edgeRow n 1 e.leave
    | [] => d
  | some (ObjData.lclk l) => match l.placed with
    | e :: _ => d.edgeRow n 1 e.leave
    | [] => d
  | _ => d

/-- A pulse ends: of a compare event, a line clock, or a field output. -/
def MDie.pulseEnds (d : MDie) (n : Nat) : MDie :=
  match (d.obj? n).map (fun o => o.data) with
  | some (ObjData.evt c) => match c.pulseEnd with
    | some t => d.edgeRow n 0 t
    | none => d
  | some (ObjData.lclk l) => match l.pulseEnd with
    | some t => d.edgeRow n 0 t
    | none => d
  | some (ObjData.fio k) => match (d.field.chans[k]?).bind (fun ch => ch.out.pulseEnd) with
    | some t => d.whenNs t (fun d => d.fioTimers k t)
    | none => d
  | _ => d

/-- An edge at a capture input, with its pin time and the width of the pulse it begins (R252, R253). -/
def MDie.capEdge (d : MDie) (ball pin : Nat) (rising : Bool) (width : Nat) : MDie :=
  if ball < 8 ∧ d.capIn.getD ball false ≠ rising then
    d.whenNs pin (fun d => d.capBall ball rising pin width)
  else d

/-! PWM (R344, R348). -/

def MDie.boundaryRow (d : MDie) (n : Nat) : MDie :=
  match d.pwmg? n with
  | some (_, g) => d.whenNs (nsOfCc g.next) (fun d => MDie.fired (d.pwmBoundary n) n)
  | none => d

/-- The next firing of a trigger before the next boundary and class 0 tick. -/
def MDie.triggerRow (d : MDie) (n trig : Nat) : MDie :=
  match d.pwmg? n with
  | none => d
  | some (o, g) =>
    if (o.life ≠ .enabled ∧ o.life ≠ .draining) ∨ d.frozen then d
    else match (g.triggers o.params (ccOf d.nextTick)).2.find? (fun f => f.1 = trig) with
      | some f => d.whenNs (nsOfCc f.2) (fun d => MDie.fired (d.pwmTriggers n f.2) n)
      | none => d

/-! Memory. -/

/-- A memory error; one that firmware finds in its own store resets the die (R545). -/
def MDie.memErrorRow (d : MDie) (mem addr : Nat) (uncorrectable reader : Bool) (slot area : Nat) : MDie :=
  let (d, reset) := d.memError mem addr uncorrectable reader slot area
  if reset then d.enterReset 4 else d

end Sys2Proof.Machine
end

