-- ==== Sys2Proof/Machine/CmdBoot.lean ====
section
/-! DEFINITION. Memories, reset and boot (chapters 19 and 20). -/

namespace Sys2Proof.Machine

open Sys2Proof

/-- A read or the scrubber finds a corrected or uncorrectable memory error (R545). -/
def execMemoryErrorDetected (mem addr : Nat) (uncorrectable reader : Bool) (slot area : Nat) (s : State) : Host.Outcome State Fault Refusal :=
  onDie s (fun d => d.memErrorRow mem addr uncorrectable reader slot area)

/-- The active journal half is full and is compacted into the other half (R558). -/
def execJournalCompaction (s : State) : Host.Outcome State Fault Refusal := onDie s (fun d => d.jCompact)

/-- A life-cycle challenge expires after 60 s (R568). -/
def execChallengeExpiry (s : State) : Host.Outcome State Fault Refusal := onDie s (fun d => d.challengeExpiry)

/-- The life-cycle wipe completes, the new state is written and the package resets (R568). -/
def execLifecycleWipeComplete (s : State) : Host.Outcome State Fault Refusal := onDie s (fun d => d.wipeComplete)

/-- RESET_N low for at least 1 µs resets the package (R577). -/
def execResetNLow (s : State) : Host.Outcome State Fault Refusal := onDieAny s (fun d => d.resetLow)

/-- The rising edge of RESET_N starts boot (R583). -/
def execResetNRise (s : State) : Host.Outcome State Fault Refusal := onDieAny s (fun d => d.resetRise)

/-- A logic supply falls below its threshold and every die enters reset (R576). -/
def execSupplyDip (rail : Nat) (s : State) : Host.Outcome State Fault Refusal := onDieAny s (fun d => d.supplyDip rail)

/-- Every supply has risen above its rising threshold for 1 ms; the dies leave reset (R576). -/
def execSupplyRestored (s : State) : Host.Outcome State Fault Refusal := onDieAny s (fun d => d.supplyRestored)

/-- A PLL loses lock and its die enters internal reset (R21). -/
def execPllUnlock (die : Nat) (s : State) : Host.Outcome State Fault Refusal := onDieAny s (fun d => d.dieReset die 3)

/-- A Ringmaster core has not served its watchdog for 100 ms; the die resets (R578). -/
def execWatchdog (die : Nat) (s : State) : Host.Outcome State Fault Refusal := onDie s (fun d => d.dieReset die 5)

/-- A boot stage completes and the next begins (R583). -/
def execBootStageComplete (die profPins cause us : Nat) (s : State) : Host.Outcome State Fault Refusal :=
  onDie s (fun d => d.bootStageComplete die profPins cause us)

/-- Boot has not reached stage 5 within 5 s; a failed boot and reset (R565). -/
def execBootTimeout (s : State) : Host.Outcome State Fault Refusal := onDie s (fun d => d.bootTimeout)

/-- The lead die opens its host queues when every die is ready or 5 s have passed (R584). -/
def execHostQueuesOpen (us : Nat) (s : State) : Host.Outcome State Fault Refusal := onDie s (fun d => d.queuesOpen us)

/-- The journal records of a command finish being written to MRAM, up to 100 µs after it took effect, and a waiting JOURNAL_SYNC replies (R557). -/
def execJournalRecordsCommitted (s : State) : Host.Outcome State Fault Refusal := onDie s (fun d => d.jCommit)

/-- Journal compaction finishes writing the snapshot and the new header, and the other half becomes active (R558). -/
def execCompactionComplete (s : State) : Host.Outcome State Fault Refusal := onDie s (fun d => d.jCompacted)

end Sys2Proof.Machine
end

