-- ==== Sys2Proof/Machine/CmdCan.lean ====
section
/-! DEFINITION. CAN commands and happenings (chapter 18). -/

namespace Sys2Proof.Machine

open Sys2Proof

/-- Command that submits a CAN frame record to a transmit buffer (R535). -/
def execCanTx (p : Pkt) (s : State) : Host.Outcome State Fault Refusal := onPacket .canTx p s

/-- Command that cancels a pending transmit buffer (R537). -/
def execCanTxCancel (p : Pkt) (s : State) : Host.Outcome State Fault Refusal := onPacket .canTxCancel p s

/-- Command that checks and loads a standby filter list and makes it the list in force at its tick (R529). -/
def execCanFiltSwitch (p : Pkt) (s : State) : Host.Outcome State Fault Refusal := onPacket .canFiltSwitch p s

/-- Command that returns 16 bytes of a mailbox record, optionally taking it (R534). -/
def execCanmbRead (p : Pkt) (s : State) : Host.Outcome State Fault Refusal := onPacket .canmbRead p s

/-- A CAN frame is accepted and filtered to a FIFO, mailbox or rejection (R527). -/
def execCanFrameReceived (ctrl cid dlc : Nat) (data : List Byte) (sof tec rxc : Nat) (s : State) : Host.Outcome State Fault Refusal :=
  onDie s (fun d => d.canFrame (cancSlot ctrl) cid dlc data sof tec rxc)

/-- A pending frame is sent successfully (R536). -/
def execCanTxComplete (ctrl sof : Nat) (tdc : Option Nat) (tec rxc : Nat) (s : State) : Host.Outcome State Fault Refusal :=
  onDie s (fun d => d.canSent (cancSlot ctrl) sof tdc tec rxc)

/-- A frame loses arbitration or meets an error; it is retried or ended (R536). -/
def execCanTxAttemptFailed (ctrl sof lec tec rxc : Nat) (s : State) : Host.Outcome State Fault Refusal :=
  onDie s (fun d => d.canFailed (cancSlot ctrl) sof lec tec rxc)

/-- TEC exceeds 255; the controller goes bus off (R525). -/
def execCanBusOff (ctrl lec : Nat) (s : State) : Host.Outcome State Fault Refusal := onDie s (fun d => d.canBusOff (cancSlot ctrl) lec)

/-- 128 occurrences of 11 recessive bits end bus off (R525). -/
def execCanBusoffRecovery (ctrl : Nat) (s : State) : Host.Outcome State Fault Refusal := onDie s (fun d => d.canRecovered (cancSlot ctrl))

/-- 11 consecutive recessive bits end the integrating state (R524). -/
def execCanIntegrationDone (ctrl : Nat) (s : State) : Host.Outcome State Fault Refusal :=
  onDie s (fun d => d.canIntegrated (cancSlot ctrl))

/-- A DMA record read from the receive window removes the oldest FIFO record (R531). -/
def execCanWindowRead (window : Nat) (s : State) : Host.Outcome State Fault Refusal := onDie s (fun d => (d.canReadBeat window).1)

/-- A DMA record written to the transmit window is submitted as CAN_TX would (R531). -/
def execCanWindowWrite (window : Nat) (bytes : List Byte) (s : State) : Host.Outcome State Fault Refusal :=
  onDie s (fun d => d.canWriteBeat window bytes)

/-- A bus error detected while receiving raises REC and may move the controller to error passive or across the warning level (R524). -/
def execCanErrorDetected (ctrl lec tec rxc : Nat) (s : State) : Host.Outcome State Fault Refusal :=
  onDie s (fun d => d.canError (cancSlot ctrl) lec tec rxc)

end Sys2Proof.Machine
end

