-- ==== Sys2Proof/Machine/CmdDma.lean ====
section
/-! DEFINITION. DMA commands and happenings (chapter 17). -/

namespace Sys2Proof.Machine

open Sys2Proof

/-- Command that starts a DMA channel at a first descriptor (R518). -/
def execDmaStart (p : Pkt) (s : State) : Host.Outcome State Fault Refusal := onPacket .dmaStart p s

/-- Command that fetches a waiting descriptor again (R508). -/
def execDmaResume (p : Pkt) (s : State) : Host.Outcome State Fault Refusal := onPacket .dmaResume p s

/-- Command that ends a DMA chain at the end of the burst in progress (R515). -/
def execDmaAbort (p : Pkt) (s : State) : Host.Outcome State Fault Refusal := onPacket .dmaAbort p s

/-- A BULK_WRITE packet writes data to an allowed address and may be acknowledged (R504). -/
def execBulkWritePacket (port : Nat) (p : FabPkt) (s : State) : Host.Outcome State Fault Refusal :=
  onDie s (fun d => d.packetIn port ⟨12, p⟩)

/-- A BULK_ACK acknowledges a remote write for a DMA fence (R510). -/
def execBulkAckPacket (port : Nat) (p : FabPkt) (s : State) : Host.Outcome State Fault Refusal :=
  onDie s (fun d => d.packetIn port ⟨13, p⟩)

/-- A BULK_READ packet requests data from an allowed address (R504). -/
def execBulkReadPacket (port : Nat) (p : FabPkt) (hostData : List Byte) (s : State) : Host.Outcome State Fault Refusal :=
  onDie s (fun d => d.bulkReadIn port ⟨14, p⟩ hostData)

/-- A BULK_DATA packet returns read data to a DMA channel (R463). -/
def execBulkDataPacket (port : Nat) (p : FabPkt) (s : State) : Host.Outcome State Fault Refusal :=
  onDie s (fun d => d.packetIn port ⟨15, p⟩)

/-- A pulse request adds one to a channel's pending count (R512). -/
def execDmaRequestPulse (slot : Nat) (s : State) : Host.Outcome State Fault Refusal := onDie s (fun d => d.dmaPulse slot)

/-- A descriptor fetch completes; it is run, waits or is a descriptor error (R508). -/
def execDescFetchComplete (slot : Nat) (hostData : List Byte) (s : State) : Host.Outcome State Fault Refusal :=
  onDie s (fun d => d.dmaFetchEnd slot hostData)

/-- A descriptor's last write leaves the engine or is acknowledged; write-back and next fetch follow (R510). -/
def execDescComplete (slot : Nat) (s : State) : Host.Outcome State Fault Refusal := onDie s (fun d => d.dmaDescEnd slot)

/-- A DMA access has no answer within DMAC.BUS_TIMEOUT; bus error (R513). -/
def execDmaBusTimeout (slot : Nat) (s : State) : Host.Outcome State Fault Refusal := onDie s (fun d => d.busTimeoutRow slot)

/-- A DMA burst completes; channels re-arbitrate, a pending DMA_ABORT ends the chain and the next request is taken (R502). -/
def execDmaBurstEnd (slot : Nat) (hostData : List Byte) (s : State) : Host.Outcome State Fault Refusal :=
  onDie s (fun d => d.dmaBurstEnd slot hostData)

/-- An error answer from PCI Express or a remote die arrives for a DMA access and the channel faults with a bus error (R513). -/
def execErrorAnswer (slot : Nat) (s : State) : Host.Outcome State Fault Refusal := onDie s (fun d => d.dmaErrorAnswer slot 2)

end Sys2Proof.Machine
end

