-- ==== Sys2Proof/Machine/CmdFabric.lean ====
section
/-! DEFINITION. Fabric commands, link blocks, packets, timers (chapter 15). -/

namespace Sys2Proof.Machine

open Sys2Proof

/-- Command that sets the commit level of the whole fabric with a switch time (R475). -/
def execFabricCommit (p : Pkt) (s : State) : Host.Outcome State Fault Refusal := onPacket .fabricCommit p s

/-- Command that drops a port's link without disabling it and trains again (R479). -/
def execPortRetrain (p : Pkt) (s : State) : Host.Outcome State Fault Refusal := onPacket .portRetrain p s

/-- Command that returns the route entry for a node (R479). -/
def execFabricRouteGet (p : Pkt) (s : State) : Host.Outcome State Fault Refusal := onPacket .fabricRouteGet p s

/-- A TRAIN control block is received, carrying readiness, withdrawal, preset and credits (R451). -/
def execTrainBlock (port valid : Nat) (eqOk : Bool) (bytes : List Byte) (s : State) : Host.Outcome State Fault Refusal :=
  onDie s (fun d => d.trainBlock port valid eqOk bytes)

/-- A lane has not reached UP within PORT.TRAIN_TIMEOUT (R452). -/
def execPortTrainTimeout (port : Nat) (s : State) : Host.Outcome State Fault Refusal := onDie s (fun d => d.trainTimeoutRow port)

/-- Every 100 ms an untrained enabled lane starts training again (R452). -/
def execPortRetrainTimer (port : Nat) (s : State) : Host.Outcome State Fault Refusal := onDie s (fun d => d.retrainRow port)

/-- 16 consecutive invalid sync headers; the port leaves UP and re-routes (R457). -/
def execBlockLockLost (port : Nat) (s : State) : Host.Outcome State Fault Refusal := onDie s (fun d => d.portLoss port 2)

/-- One frame sent 8 times without ACK; the port leaves UP (R457). -/
def execReplayLimit (port : Nat) (s : State) : Host.Outcome State Fault Refusal := onDie s (fun d => d.replayLimit port)

/-- A link frame is received and checked for CRC and sequence (R455). -/
def execLinkFrame (port lseq cls : Nat) (crcOk : Bool) (bytes hostData : List Byte) (s : State) : Host.Outcome State Fault Refusal :=
  onDie s (fun d => d.frameIn port lseq cls crcOk bytes hostData)

/-- An ACK frees acknowledged frames from the replay buffer (R455). -/
def execAckBlock (port lseq : Nat) (s : State) : Host.Outcome State Fault Refusal := onDie s (fun d => d.ackBlock port lseq)

/-- A NAK causes every frame from the named sequence to be sent again (R455). -/
def execNakBlock (port lseq : Nat) (s : State) : Host.Outcome State Fault Refusal := onDie s (fun d => d.nakBlock port lseq)

/-- A CREDIT block returns receive credits for traffic classes (R456). -/
def execCreditBlock (port classA unitsA classB unitsB : Nat) (s : State) : Host.Outcome State Fault Refusal :=
  onDie s (fun d => d.creditBlock port classA unitsA classB unitsB)

/-- The receiver sends an ACK at least every 1 µs (R455). -/
def execAckTimer (port : Nat) (s : State) : Host.Outcome State Fault Refusal := onDie s (fun d => d.ackDue port)

/-- A 10 µs bulk round starts and client bulk budgets renew (R460). -/
def execBulkRound (s : State) : Host.Outcome State Fault Refusal :=
  onDie s (fun d => d.whenUp (d.fab.bulkRound + 10000) (fun d => d.bulkRound))

/-- A CMD fabric packet arrives and is checked and accepted for its remote client (R464). -/
def execCmdPacket (port : Nat) (p : FabPkt) (s : State) : Host.Outcome State Fault Refusal := onDie s (fun d => d.packetIn port ⟨3, p⟩)

/-- A REPLY fabric packet arrives and its records are written to the origin's reply ring (R464). -/
def execReplyPacket (port : Nat) (p : FabPkt) (s : State) : Host.Outcome State Fault Refusal := onDie s (fun d => d.packetIn port ⟨4, p⟩)

/-- An EVENT fabric packet arrives and its records are written to the named ring or dropped (R81). -/
def execEventPacket (port : Nat) (p : FabPkt) (s : State) : Host.Outcome State Fault Refusal := onDie s (fun d => d.packetIn port ⟨5, p⟩)

/-- An E2E_CREDIT packet returns command window places (R461). -/
def execE2eCreditPacket (port : Nat) (p : FabPkt) (s : State) : Host.Outcome State Fault Refusal :=
  onDie s (fun d => d.packetIn port ⟨7, p⟩)

/-- A DISC packet updates the election candidate and heartbeat (R467). -/
def execDiscPacket (port : Nat) (p : FabPkt) (s : State) : Host.Outcome State Fault Refusal := onDie s (fun d => d.packetIn port ⟨8, p⟩)

/-- Every 100 µs a die sends DISC and its own candidate raises its heartbeat (R467). -/
def execDiscTimer (s : State) : Host.Outcome State Fault Refusal :=
  onDie s (fun d => d.whenUp (d.fab.lastDisc + 100000) (fun d => d.discTimer))

/-- No new heartbeat of the candidate for 1 ms; the die takes its own key (R467). -/
def execCandidateStale (s : State) : Host.Outcome State Fault Refusal :=
  onDie s (fun d => d.whenUp (d.fab.seenAt + 1000000) (fun d => d.candStale))

/-- A die has held one candidate for DISC_SETTLE and sends its TOPO report (R468). -/
def execDiscSettleExpiry (s : State) : Host.Outcome State Fault Refusal :=
  onDie s (fun d => if d.fab.reported then d else d.whenUp d.settleDue (fun d => d.settled?))

/-- A TOPO report reaches the candidate, which may become root and assign bases and routes (R468). -/
def execTopoPacket (port : Nat) (p : FabPkt) (s : State) : Host.Outcome State Fault Refusal := onDie s (fun d => d.packetIn port ⟨9, p⟩)

/-- A ROUTE segment arrives and updates the die's route table (R468). -/
def execRoutePacket (port : Nat) (p : FabPkt) (s : State) : Host.Outcome State Fault Refusal := onDie s (fun d => d.packetIn port ⟨10, p⟩)

/-- No lane UP within TRAIN_TIMEOUT plus DISC_SETTLE after boot; the package forms its own fabric (R471). -/
def execOwnFabricTimeout (s : State) : Host.Outcome State Fault Refusal :=
  onDie s (fun d => if d.boot.stage < 3 ∨ d.fab.alone then d else d.whenUp d.aloneDue (fun d => d.ownFabric))

/-- A LEVEL packet sets the switch time for a new commit level (R475). -/
def execLevelPacket (port : Nat) (p : FabPkt) (s : State) : Host.Outcome State Fault Refusal := onDie s (fun d => d.packetIn port ⟨11, p⟩)

/-- The switch time arrives and the node applies the new commit level (R475). -/
def execLevelSwitchTime (s : State) : Host.Outcome State Fault Refusal := onDie s (fun d => d.switchRow)

/-- An on-package port completes its fixed deskew within 20 µs and enters UP (R451). -/
def execDeskewComplete (port : Nat) (s : State) : Host.Outcome State Fault Refusal := onDie s (fun d => d.deskewComplete port)

end Sys2Proof.Machine
end

