-- ==== Sys2Proof/Machine/CmdField.lean ====
section
/-! DEFINITION. Field I/O commands and happenings (chapter 13). -/

namespace Sys2Proof.Machine

open Sys2Proof

/-- Command that switches the levels of several host-driven outputs at one tick (R416). -/
def execFioWriteMask (p : Pkt) (s : State) : Host.Outcome State Fault Refusal := onPacket .fioWriteMask p s

/-- Command that clears a latched overload and diagnostic bits whose condition has ended (R408). -/
def execFioReset (p : Pkt) (s : State) : Host.Outcome State Fault Refusal := onPacket .fioReset p s

/-- Command that returns all published input levels, commanded outputs and diagnostic summary (R416). -/
def execFioReadAll (p : Pkt) (s : State) : Host.Outcome State Fault Refusal := onPacket .fioReadAll p s

/-- A field channel's sample instant classifies the input or readback (R396). -/
def execFioSample (chan t : Nat) (mv : Int) (ua ma : Nat) (s : State) : Host.Outcome State Fault Refusal :=
  onDieAny s (fun d => d.fioSample chan t mv ua ma)

/-- Agreeing samples have held for FIO.FILTER and the new level is taken (R397). -/
def execFioFilterExpiry (chan : Nat) (s : State) : Host.Outcome State Fault Refusal := onDieAny s (fun d => d.fioFilterExpiry chan)

/-- Once per second an on output is switched off for 300 µs and read back (R404). -/
def execFioOffTestPulse (chan : Nat) (s : State) : Host.Outcome State Fault Refusal := onDieAny s (fun d => d.fioOffTestPulse chan)

/-- An output in current limit shuts down thermally (R405). -/
def execFioThermalShutdown (chan : Nat) (s : State) : Host.Outcome State Fault Refusal := onDieAny s (fun d => d.fioThermal chan 1)

/-- The retry interval expires and the switch turns on again (R405). -/
def execFioRetryExpiry (chan : Nat) (s : State) : Host.Outcome State Fault Refusal := onDieAny s (fun d => d.fioRetry chan)

/-- Total output current exceeds 4 A for 5 ms; outputs are switched off (R406). -/
def execFioTotalCurrentLimit (mas : List Nat) (s : State) : Host.Outcome State Fault Refusal := onDieAny s (fun d => d.fioTotal mas)

/-- FIELD_24V falls below its undervoltage threshold (R409). -/
def execFieldUndervoltage (mv : Nat) (s : State) : Host.Outcome State Fault Refusal := onDieAny s (fun d => d.fieldLow mv)

/-- FIELD_24V rises 1 V above the threshold (R409). -/
def execFieldSupplyRestored (mv : Nat) (s : State) : Host.Outcome State Fault Refusal := onDieAny s (fun d => d.fieldRestored mv)

/-- The F-die regulator restarts and the M die reloads channel settings (R409). -/
def execFieldRegulatorRestart (s : State) : Host.Outcome State Fault Refusal := onDieAny s (fun d => d.fieldRestart)

/-- The F die deems the logic side silent and holds or falls back (R410). -/
def execLogicSideSilent (s : State) : Host.Outcome State Fault Refusal :=
  onDieAny s (fun d => if d.pairLink && !d.boot.inReset then d else d.logicSilent)

/-- A held output reaches FIO.HOLD_TIMEOUT and takes its fallback (R410). -/
def execFioHoldTimeout (chan : Nat) (s : State) : Host.Outcome State Fault Refusal := onDieAny s (fun d => d.fioHold chan)

/-- The logic side returns and held outputs keep their levels (R411). -/
def execLogicSideReturn (s : State) : Host.Outcome State Fault Refusal :=
  onDieAny s (fun d => if d.pairLink && !d.boot.inReset then d.logicReturn else d)

/-- FIELD_24V falls so far that the F-die regulator stops, every output switches off and channel settings are lost (R409). -/
def execFieldRegulatorStop (s : State) : Host.Outcome State Fault Refusal := onDieAny s (fun d => d.fieldStop)

end Sys2Proof.Machine
end

