-- ==== Sys2Proof/Machine/CmdHost.lean ====
section
/-! DEFINITION. Host ports, TAP and debug (chapter 21). -/

namespace Sys2Proof.Machine

open Sys2Proof

/-- Debug command that requests a halt of a Loop Engine (R598). -/
def execDbgHalt (p : Pkt) (s : State) : Host.Outcome State Fault Refusal := onPacket .dbgHalt p s

/-- Debug command that resumes a halted Loop Engine at the next gate (R599). -/
def execDbgResume (p : Pkt) (s : State) : Host.Outcome State Fault Refusal := onPacket .dbgResume p s

/-- Debug command that runs a section for a number of steps and halts again (R599). -/
def execDbgStep (p : Pkt) (s : State) : Host.Outcome State Fault Refusal := onPacket .dbgStep p s

/-- Debug command that reads a register or status of an engine context (R598). -/
def execDbgCtxRead (p : Pkt) (s : State) : Host.Outcome State Fault Refusal := onPacket .dbgCtxRead p s

/-- Host write of a queue's command-ring tail doorbell (R62). -/
def execDbCmdTail (client : HostPort) (queue : Nat) (value : U32) (s : State) : Host.Outcome State Fault Refusal :=
  onDie s (fun d => d.host (fun d => d.cmdTail client queue value.toNat))

/-- Host write of a queue's reply-ring head doorbell, freeing reply records (R63). -/
def execDbRplHead (client : HostPort) (queue : Nat) (value : U32) (s : State) : Host.Outcome State Fault Refusal :=
  onDie s (fun d => d.host (fun d => d.rplHead client queue value.toNat))

/-- Host write of an event-ring head, freeing records and clearing the outstanding mark (R80). -/
def execEvrHead (client : HostPort) (ring : Nat) (value : U32) (s : State) : Host.Outcome State Fault Refusal :=
  onDie s (fun d => d.host (fun d => d.evrHead client ring value.toNat))

/-- Host write of an event-ring size, configuring the ring and setting head and tail to 0 (R593). -/
def execEvrSize (client : HostPort) (ring : Nat) (value : U32) (s : State) : Host.Outcome State Fault Refusal :=
  onDie s (fun d => d.host (fun d => d.evrSize client ring value.toNat))

/-- Host write of the HOST_CTRL bit that enables queue 0 (R592). -/
def execQ0En (client : HostPort) (enable : Bool) (s : State) : Host.Outcome State Fault Refusal :=
  onDie s (fun d => d.host (fun d => d.q0Enable client enable))

/-- Host write of the HOST_CTRL bit that resets queue 0 head and tail and ends its halt (R592). -/
def execQ0Restart (client : HostPort) (s : State) : Host.Outcome State Fault Refusal :=
  onDie s (fun d => d.host (fun d => d.q0Restart client))

/-- Host write of any host-window register that has no row of its own (R592). -/
def execHostWindowWrite (client : HostPort) (offset : Nat) (bytes : List Byte) (s : State) : Host.Outcome State Fault Refusal :=
  onDie s (fun d => d.host (fun d => d.hostAccess client offset bytes))

/-- QSPI write transaction into the host window or ring window (R594). -/
def execQspiWrite (addr : U32) (bytes : List Byte) (s : State) : Host.Outcome State Fault Refusal :=
  onDie s (fun d => d.host (fun d => d.qspiWrite addr.toNat bytes))

/-- QSPI read transaction from the host window or ring window (R594). -/
def execQspiRead (addr : U32) (len : Nat) (s : State) : Host.Outcome State Fault Refusal :=
  onDie s (fun d => d.host (fun d => d.qspiRead addr.toNat len))

/-- QSPI status instruction returning READY, IRQ and ERR, which it clears (R594). -/
def execQspiStatus (s : State) : Host.Outcome State Fault Refusal := onDie s (fun d => d.host (fun d => d.qspiStatus))

/-- The lead die fetches a whole packet from a queue once it lies between head and tail and reply records are free, then checks, executes or forwards it (R62). -/
def execPacketFetch (client : HostPort) (queue : Nat) (ring : RingRead) (s : State) : Host.Outcome State Fault Refusal :=
  onDie s (fun d => d.packetFetch client queue ring)

/-- A packet held for want of an action slot is checked again and accepted when a slot frees (R85). -/
def execHeldPacketAccept (s : State) : Host.Outcome State Fault Refusal := onDie s (fun d => d.acceptHeld)

/-- No reply to a forwarded command within SYSTEM.CMD_TIMEOUT; a TIMEOUT reply is written (R86). -/
def execCmdTimeoutExpiry (pid : Nat) (s : State) : Host.Outcome State Fault Refusal := onDie s (fun d => d.cmdTimeout pid)

/-- PCIE_PERST_N low resets the PCI Express host-window registers and halts its queues (R591). -/
def execPciePerstLow (s : State) : Host.Outcome State Fault Refusal := onDieAny s (fun d => d.host (fun d => d.perstLow))

/-- A link-down event resets the PCI Express client state (R591). -/
def execPcieLinkDown (s : State) : Host.Outcome State Fault Refusal := onDie s (fun d => d.host (fun d => d.linkDown))

/-- A function-level reset resets the PCI Express client state (R591). -/
def execPcieFlr (s : State) : Host.Outcome State Fault Refusal := onDie s (fun d => d.host (fun d => d.pcieReset))

/-- The data link layer reports DL_Up while PCIE_PERST_N is high (R624). -/
def execPcieLinkUp (s : State) : Host.Outcome State Fault Refusal := onDie s (fun d => d.host (fun d => d.linkUp))

/-- TAP instruction selecting the IDCODE register (R596). -/
def execIdcode (s : State) : Host.Outcome State Fault Refusal := onDieAny s (fun d => d.tapSelect 1)

/-- TAP instruction selecting the bypass register (R596). -/
def execBypass (s : State) : Host.Outcome State Fault Refusal := onDieAny s (fun d => d.tapSelect 0xFF)

/-- TAP instruction sampling or preloading the boundary register (R596). -/
def execSamplePreload (boundary : List Bool) (s : State) : Host.Outcome State Fault Refusal := onDieAny s (fun d => d.tapSample boundary)

/-- TAP instruction driving balls from the boundary register, dies held in reset (R597). -/
def execExtest (s : State) : Host.Outcome State Fault Refusal := onDieAny s (fun d => d.tapSelect 0)

/-- TAP instruction clamping outputs, dies held in reset (R597). -/
def execClamp (s : State) : Host.Outcome State Fault Refusal := onDieAny s (fun d => d.tapSelect 4)

/-- TAP instruction placing outputs in high impedance, dies held in reset (R597). -/
def execHighz (s : State) : Host.Outcome State Fault Refusal := onDieAny s (fun d => d.tapSelect 5)

end Sys2Proof.Machine
end

