-- ==== Sys2Proof/Machine/CmdLane.lean ====
section
/-! DEFINITION. Drive-lane commands and happenings (chapter 12). -/

namespace Sys2Proof.Machine

open Sys2Proof

/-- Command that sends FAULT_RESET bits for slots in the downlink frame of its tick (R392). -/
def execDlaneStageReset (p : Pkt) (s : State) : Host.Outcome State Fault Refusal := onPacket .dlaneStageReset p s

/-- Command that returns a slot of the last accepted uplink frame (R392). -/
def execDlaneGetUplink (p : Pkt) (s : State) : Host.Outcome State Fault Refusal := onPacket .dlaneGetUplink p s

/-- A drive lane has received 64 valid IDLE sets and enters SYNC (R366). -/
def execLaneTrained (lane : Nat) (s : State) : Host.Outcome State Fault Refusal := onDie s (fun d => d.laneTrained (72 + lane))

/-- An uplink frame is received and accepted or rejected; delay measured (R377). -/
def execUplinkFrame (lane : Nat) (code : Bool) (sofNs eofNs : Nat) (bytes : List Byte) (s : State) : Host.Outcome State Fault Refusal :=
  onDie s (fun d => d.laneUplink (72 + lane) code sofNs eofNs bytes)

/-- A lane has not reached UP within DLANE.TRAIN_TIMEOUT and faults (R366). -/
def execDlaneTrainTimeout (lane : Nat) (s : State) : Host.Outcome State Fault Refusal := onDie s (fun d => d.laneTimeout (72 + lane))

/-- A slot has been stale for DLANE.STALE_LIMIT ticks and is reported stale (R379). -/
def execStaleLimitReached (lane : Nat) (s : State) : Host.Outcome State Fault Refusal := onDie s (fun d => d.laneStale (72 + lane))

/-- No uplink accepted for DLANE.LOSS_LIMIT ticks; the lane faults (R379). -/
def execLossLimitReached (lane : Nat) (s : State) : Host.Outcome State Fault Refusal := onDie s (fun d => d.laneLoss (72 + lane))

/-- A microstep axis has been at rest for HOLD_DELAY frames and takes its hold amplitude (R385). -/
def execHoldDelayReached (lane axisSlot : Nat) (s : State) : Host.Outcome State Fault Refusal :=
  onDie s (fun d => d.laneHold (72 + lane) axisSlot)

end Sys2Proof.Machine
end

