-- ==== Sys2Proof/Machine/CmdLoop.lean ====
section
/-! DEFINITION. Loop group and trace commands, gates (chapters 09 and 10). -/

namespace Sys2Proof.Machine

open Sys2Proof

/-- Command that writes part of a loop group's coefficient bank (R286). -/
def execLgrpCoefWrite (p : Pkt) (s : State) : Host.Outcome State Fault Refusal := onPacket .lgrpCoefWrite p s

/-- Command that exchanges a loop group's active and standby banks at its tick, bumplessly if set (R287). -/
def execLgrpBankSwap (p : Pkt) (s : State) : Host.Outcome State Fault Refusal := onPacket .lgrpBankSwap p s

/-- Command that sets a loop group's states or integrators to zero at its tick (R289). -/
def execLgrpResetState (p : Pkt) (s : State) : Host.Outcome State Fault Refusal := onPacket .lgrpResetState p s

/-- Command that reads and clears the sticky saturation flags of a loop group (R295). -/
def execLgrpTakeFlags (p : Pkt) (s : State) : Host.Outcome State Fault Refusal := onPacket .lgrpTakeFlags p s

/-- Command that writes part of a host step list of a loop group section (R326). -/
def execLgrpStepWrite (p : Pkt) (s : State) : Host.Outcome State Fault Refusal := onPacket .lgrpStepWrite p s

/-- Command that returns two step words of a section's list (R334). -/
def execLgrpStepRead (p : Pkt) (s : State) : Host.Outcome State Fault Refusal := onPacket .lgrpStepRead p s

/-- Command that clears the trace index and trigger and starts recording at its tick (R331). -/
def execTraceArm (p : Pkt) (s : State) : Host.Outcome State Fault Refusal := onPacket .traceArm p s

/-- Command that stops trace recording and returns the records written (R334). -/
def execTraceStop (p : Pkt) (s : State) : Host.Outcome State Fault Refusal := onPacket .traceStop p s

/-- Command that returns 16 bytes of a held trace record (R334). -/
def execTraceRead (p : Pkt) (s : State) : Host.Outcome State Fault Refusal := onPacket .traceRead p s

/-- The halt of an engine takes effect at a step boundary once every result is readable (R330). -/
def execEngineHaltTakesEffect (engine : Nat) (s : State) : Host.Outcome State Fault Refusal := onDie s (fun d => d.engineHalt engine)

/-- At 1 µs after a group tick, inputs are latched and the loop group's sections run and hand outputs on (R282). -/
def execLoopGate (slot : Nat) (s : State) : Host.Outcome State Fault Refusal := onDie s (fun d => (d.passTo (d.tick + 1000)).gateOf slot)

/-- A following-error counter reaches FE_TIME and the group faults (R290). -/
def execFeTimeReached (slot axis : Nat) (s : State) : Host.Outcome State Fault Refusal := onDie s (fun d => d.lgrpFeReached slot axis)

/-- All axes have been at rest for LGRP.SETTLE ticks; standstill applied and group disabled (R291). -/
def execSettleReached (slot : Nat) (s : State) : Host.Outcome State Fault Refusal := onDie s (fun d => d.lgrpSettled slot (d.tickOf slot))

end Sys2Proof.Machine
end

