-- ==== Sys2Proof/Machine/CmdMotion.lean ====
section
/-! DEFINITION. Axis and path commands, and what stops or feeds them (chapters 06 and 07). -/

namespace Sys2Proof.Machine

open Sys2Proof

/-- Command that plans a time-optimal move to rest at an absolute target (R171). -/
def execMoveAbs (p : Pkt) (s : State) : Host.Outcome State Fault Refusal := onPacket .moveAbs p s

/-- Command that moves by a signed distance from the last target or the set-point (R172). -/
def execMoveRel (p : Pkt) (s : State) : Host.Outcome State Fault Refusal := onPacket .moveRel p s

/-- Command that ramps the axis to a signed target velocity (R173). -/
def execMoveVel (p : Pkt) (s : State) : Host.Outcome State Fault Refusal := onPacket .moveVel p s

/-- Command that ends any ramp and holds the velocity reached (R174). -/
def execMoveHold (p : Pkt) (s : State) : Host.Outcome State Fault Refusal := onPacket .moveHold p s

/-- Command that stops an axis or path group along its normal ramp (R182). -/
def execStop (p : Pkt) (s : State) : Host.Outcome State Fault Refusal := onPacket .stop p s

/-- Command that stops an axis or path group along its quick ramp (R182). -/
def execStopQuick (p : Pkt) (s : State) : Host.Outcome State Fault Refusal := onPacket .stopQuick p s

/-- Command that returns the set-point position, epoch and mode of its tick (R200). -/
def execAxisGetSample (p : Pkt) (s : State) : Host.Outcome State Fault Refusal := onPacket .axisGetSample p s

/-- Command that appends a line segment to a path group (R190). -/
def execPathLine (p : Pkt) (s : State) : Host.Outcome State Fault Refusal := onPacket .pathLine p s

/-- Command that appends an arc or helix segment to a path group (R191). -/
def execPathArc (p : Pkt) (s : State) : Host.Outcome State Fault Refusal := onPacket .pathArc p s

/-- Command that discards held path segments that have not begun (R195). -/
def execPathFlush (p : Pkt) (s : State) : Host.Outcome State Fault Refusal := onPacket .pathFlush p s

/-- An SS1 request wire change is seen at a class 0 tick and selected axes stop on the quick ramp (R184). -/
def execSs1WireChangeSeen (s : State) : Host.Outcome State Fault Refusal := onDie s (fun d => d.ss1Row)

/-- A STREAM packet of sample and retraction records arrives and is held for the next class 0 tick (R217). -/
def execStreamPacket (port : Nat) (p : FabPkt) (s : State) : Host.Outcome State Fault Refusal := onDie s (fun d => d.packetIn port ⟨2, p⟩)

/-- More than AXIS.PRED_LIMIT samples committed from prediction; the derived axis faults (R224). -/
def execPredLimitReached (slot : Nat) (s : State) : Host.Outcome State Fault Refusal := onDie s (fun d => d.predLimit slot)

/-- A Calliope output has placed edges from prediction for LCLK.PRED_LIMIT ticks and faults (R261). -/
def execLclkPredLimit (slot : Nat) (s : State) : Host.Outcome State Fault Refusal := onDie s (fun d => d.lclkPredLimit slot)

/-- A bind or unbind request arrives and the master adds or removes a stream receiver (R231). -/
def execBindPacket (port : Nat) (p : FabPkt) (s : State) : Host.Outcome State Fault Refusal := onDie s (fun d => d.packetIn port ⟨6, p⟩)

/-- A compare event's edge leaves its ball at its pin time and the next position is armed (R248). -/
def execEvtFire (slot : Nat) (s : State) : Host.Outcome State Fault Refusal := onDie s (fun d => d.edgeLeaves slot)

/-- A capture input edge records source positions at its pin time (R253). -/
def execCapInEdge (ball pin : Nat) (rising : Bool) (width : Nat) (s : State) : Host.Outcome State Fault Refusal :=
  onDie s (fun d => d.capEdge ball pin rising width)

/-- A Calliope line-clock edge is emitted at its pin time (R257). -/
def execLclkEdge (slot : Nat) (s : State) : Host.Outcome State Fault Refusal := onDie s (fun d => d.edgeLeaves slot)

/-- A compare pulse, field output pulse or line-clock pulse ends after its width and its output returns to the inactive level (R251). -/
def execPulseEnd (slot : Nat) (s : State) : Host.Outcome State Fault Refusal := onDie s (fun d => d.pulseEnds slot)

end Sys2Proof.Machine
end

