-- ==== Sys2Proof/Machine/CmdObject.lean ====
section
/-! DEFINITION. Object commands (chapter 03). -/

namespace Sys2Proof.Machine

open Sys2Proof

/-- Command that creates an object of a class in a free created slot, with its initial parameters (R90). -/
def execObjectCreate (p : Pkt) (s : State) : Host.Outcome State Fault Refusal := onPacket .objectCreate p s

/-- Command that destroys a created object and advances the generation of its slot (R91). -/
def execObjectDestroy (p : Pkt) (s : State) : Host.Outcome State Fault Refusal := onPacket .objectDestroy p s

/-- Command that moves an object from CREATED or DISABLED to ENABLED (R30). -/
def execObjectEnable (p : Pkt) (s : State) : Host.Outcome State Fault Refusal := onPacket .objectEnable p s

/-- Command that moves an ENABLED object to DRAINING toward its clean boundary (R31). -/
def execObjectDisable (p : Pkt) (s : State) : Host.Outcome State Fault Refusal := onPacket .objectDisable p s

/-- Command that reads one parameter value in force during its tick (R92). -/
def execParamGet (p : Pkt) (s : State) : Host.Outcome State Fault Refusal := onPacket .paramGet p s

/-- Command that writes one parameter entry (R93). -/
def execParamSet (p : Pkt) (s : State) : Host.Outcome State Fault Refusal := onPacket .paramSet p s

/-- Command that writes up to 62 parameters of one object together at one tick, or none (R94). -/
def execParamSetMulti (p : Pkt) (s : State) : Host.Outcome State Fault Refusal := onPacket .paramSetMulti p s

end Sys2Proof.Machine
end

