-- ==== Sys2Proof/Machine/CmdOrrery.lean ====
section
/-! DEFINITION. Gear, compare, capture and line-clock commands (chapter 08). -/

namespace Sys2Proof.Machine

open Sys2Proof

/-- Command that arms a new gear ratio at a master position, stepped or blended (R236). -/
def execGearRatio (p : Pkt) (s : State) : Host.Outcome State Fault Refusal := onPacket .gearRatio p s

/-- Command that arms a change of cam table at the next cycle boundary (R244). -/
def execGearCamSwitch (p : Pkt) (s : State) : Host.Outcome State Fault Refusal := onPacket .gearCamSwitch p s

/-- Command that shifts the slave phase by a distance spread over master travel (R237). -/
def execGearShift (p : Pkt) (s : State) : Host.Outcome State Fault Refusal := onPacket .gearShift p s

/-- Command that arms a compare event at a position with repeat interval and count (R247). -/
def execEvtArm (p : Pkt) (s : State) : Host.Outcome State Fault Refusal := onPacket .evtArm p s

/-- Command that disarms a compare event and returns the fires left (R269). -/
def execEvtDisarm (p : Pkt) (s : State) : Host.Outcome State Fault Refusal := onPacket .evtDisarm p s

/-- Command that rearms a single-mode capture channel (R253). -/
def execCaptArm (p : Pkt) (s : State) : Host.Outcome State Fault Refusal := onPacket .captArm p s

/-- Command that sets the line origin and count of a Calliope output and restarts numbering (R256). -/
def execLclkArm (p : Pkt) (s : State) : Host.Outcome State Fault Refusal := onPacket .lclkArm p s

/-- Command that sets a new position delay and time delay of a Calliope output, stepped or slewed (R259). -/
def execLclkReg (p : Pkt) (s : State) : Host.Outcome State Fault Refusal := onPacket .lclkReg p s

end Sys2Proof.Machine
end

