-- ==== Sys2Proof/Machine/CmdPwm.lean ====
section
/-! DEFINITION. PWM commands, boundaries, triggers, fault inputs, sigma-delta results (chapter 11). -/

namespace Sys2Proof.Machine

open Sys2Proof

/-- Command that writes shadow on and off times, optionally the period, and optionally raises LOAD_ALL (R361). -/
def execPwmWrite (p : Pkt) (s : State) : Host.Outcome State Fault Refusal := onPacket .pwmWrite p s

/-- Command that raises LOAD_ALL so the shadow set transfers at the next armed boundary (R345). -/
def execPwmLoadAll (p : Pkt) (s : State) : Host.Outcome State Fault Refusal := onPacket .pwmLoadAll p s

/-- Debug command that forces or releases a pattern on PWM pairs (R361). -/
def execPwmForce (p : Pkt) (s : State) : Host.Outcome State Fault Refusal := onPacket .pwmForce p s

/-- A carrier boundary arrives; an armed shadow set transfers to the active set (R344). -/
def execPwmBoundary (slot : Nat) (s : State) : Host.Outcome State Fault Refusal := onDie s (fun d => d.boundaryRow slot)

/-- A PWM trigger fires on its selected carrier event and divider (R348). -/
def execPwmTriggerFire (slot trig : Nat) (s : State) : Host.Outcome State Fault Refusal := onDie s (fun d => d.triggerRow slot trig)

/-- A selected fault input stays low past its filter and pairs take the safe pattern (R349). -/
def execPwmFaultInputLow (input clocks : Nat) (s : State) : Host.Outcome State Fault Refusal :=
  onDie s (fun d => if input < 4 then (d.pwmBefore (d.ns + 1)).pwmInputLow input clocks else d)

/-- Every selected fault input returns high; cycle-by-cycle release follows at the next boundary (R350). -/
def execPwmFaultInputHigh (input : Nat) (s : State) : Host.Outcome State Fault Refusal :=
  onDie s (fun d => if input < 4 then (d.pwmBefore (d.ns + 1)).pwmInputHigh input else d)

/-- A sinc3 result is formed, free-running or at a trigger (R356). -/
def execSdinResult (input : Nat) (bits : List Bool) (s : State) : Host.Outcome State Fault Refusal :=
  onDie s (fun d => d.sdinResult (64 + input) bits)

end Sys2Proof.Machine
end

