-- ==== Sys2Proof/Machine/CmdRetain.lean ====
section
/-! DEFINITION. Memory, profile, journal, firmware and life-cycle commands (chapter 19). -/

namespace Sys2Proof.Machine

open Sys2Proof

/-- Command that writes part of an Almanac slot and marks it WRITTEN (R554). -/
def execProfWrite (p : Pkt) (s : State) : Host.Outcome State Fault Refusal := onPacket .profWrite p s

/-- Command that checks an Almanac slot and marks it VALID or INVALID (R554). -/
def execProfCommit (p : Pkt) (s : State) : Host.Outcome State Fault Refusal := onPacket .profCommit p s

/-- Command that makes an Almanac slot EMPTY (R572). -/
def execProfErase (p : Pkt) (s : State) : Host.Outcome State Fault Refusal := onPacket .profErase p s

/-- Command that selects a valid Almanac slot for the next boot only (R553). -/
def execProfSelectNext (p : Pkt) (s : State) : Host.Outcome State Fault Refusal := onPacket .profSelectNext p s

/-- Command that replies once all earlier journal records are committed (R557). -/
def execJournalSync (p : Pkt) (s : State) : Host.Outcome State Fault Refusal := onPacket .journalSync p s

/-- Command that starts a new journal, empty or with a snapshot, recording the present slot and base (R572). -/
def execJournalClear (p : Pkt) (s : State) : Host.Outcome State Fault Refusal := onPacket .journalClear p s

/-- Command that claims a shared-area granule for host structures (R548). -/
def execMemClaim (p : Pkt) (s : State) : Host.Outcome State Fault Refusal := onPacket .memClaim p s

/-- Command that returns a claimed granule to the allocator (R548). -/
def execMemRelease (p : Pkt) (s : State) : Host.Outcome State Fault Refusal := onPacket .memRelease p s

/-- Command that writes data into claimed SRAM, the QSPI window or a disabled cam table (R572). -/
def execMemWrite (p : Pkt) (s : State) : Host.Outcome State Fault Refusal := onPacket .memWrite p s

/-- Command that returns 16 bytes of the shared area or QSPI window (R572). -/
def execMemRead (p : Pkt) (s : State) : Host.Outcome State Fault Refusal := onPacket .memRead p s

/-- Command that writes part of the firmware bank not running and marks it UNVERIFIED (R564). -/
def execFwWrite (p : Pkt) (s : State) : Host.Outcome State Fault Refusal := onPacket .fwWrite p s

/-- Command that checks the header, hash, signatures and security version of a bank (R564). -/
def execFwVerify (p : Pkt) (s : State) : Host.Outcome State Fault Refusal := onPacket .fwVerify p s

/-- Command that selects a verified bank for the next reset (R564). -/
def execFwActivate (p : Pkt) (s : State) : Host.Outcome State Fault Refusal := onPacket .fwActivate p s

/-- Command that returns a 16-byte random life-cycle challenge (R568). -/
def execLcChallenge (p : Pkt) (s : State) : Host.Outcome State Fault Refusal := onPacket .lcChallenge p s

/-- Command that advances the life-cycle state, wipes MRAM and resets the package (R567). -/
def execLcAdvance (p : Pkt) (s : State) : Host.Outcome State Fault Refusal := onPacket .lcAdvance p s

end Sys2Proof.Machine
end

