-- ==== Sys2Proof/Machine/CmdSafe.lean ====
section
/-! DEFINITION. The safety island and its status on the M die (chapter 14). -/

namespace Sys2Proof.Machine

open Sys2Proof

/-- Command that returns one entry of the safety island's log as rebuilt by the M die (R446). -/
def execSafeReadLog (p : Pkt) (s : State) : Host.Outcome State Fault Refusal := onPacket .safeReadLog p s

/-- The safety island evaluates inputs, demands, functions and cross-compare each 0.5 ms tick (R427). -/
def execSafetyTick (reads : SafeReads) (s : State) : Host.Outcome State Fault Refusal := .next (State.quiet (s.safetyTick reads))

/-- A test-pulse supply drops for 250 µs and contact inputs are judged (R428). -/
def execSafeTestPulse (supplyB : Bool) (low : List Bool) (s : State) : Host.Outcome State Fault Refusal :=
  onIsland s (fun i => i.testPulse supplyB low)

/-- A pair's discrepancy counter reaches N and the pair faults (R430). -/
def execDiscrepancy (pair : Nat) (s : State) : Host.Outcome State Fault Refusal := onIsland s (fun i => i.discrepancy pair)

/-- The SS1 time of a function elapses and STO follows (R432). -/
def execSs1TimeElapsed (fn : Nat) (s : State) : Host.Outcome State Fault Refusal := onIsland s (fun i => i.ss1Elapsed fn)

/-- A valid manual reset edge restarts ready functions (R433). -/
def execSafeResetFall (us : Nat) (s : State) : Host.Outcome State Fault Refusal := onIsland s (fun i => i.resetFall us)

/-- SAFE_RESET high for more than 3 s; ignored and logged (R433). -/
def execResetStuck (s : State) : Host.Outcome State Fault Refusal := onIsland s (fun i => i.resetStuck)

/-- An STO or safe-link wire is switched off for 300 µs and read back (R435). -/
def execStoTestPulse (high : List Bool) (s : State) : Host.Outcome State Fault Refusal := onIsland s (fun i => i.stoPulse high)

/-- Every 2 s each switch of an energised brake is tested alone for 400 µs (R436). -/
def execSbcSwitchTest (fn : Nat) (passed : Bool) (s : State) : Host.Outcome State Fault Refusal :=
  onIsland s (fun i => i.sbcTest fn passed)

/-- A BRK_PASS pulse records a holding-torque test pass or BRK_PASS_INVALID (R437). -/
def execBrkPassPulse (fn ms : Nat) (s : State) : Host.Outcome State Fault Refusal := onIsland s (fun i => i.brkPulse fn ms)

/-- The holding-torque test interval elapses without a pass (R437). -/
def execBrakeTestInterval (fn : Nat) (s : State) : Host.Outcome State Fault Refusal := onIsland s (fun i => i.brakeDue fn)

/-- An EDM has not changed within the EDM time after its output switched (R438). -/
def execEdmTimeExpiry (edm : Nat) (s : State) : Host.Outcome State Fault Refusal := onIsland s (fun i => i.edmExpiry edm)

/-- Every 64 safety ticks both channels reread the configuration balls (R426). -/
def execConfigReread (ohmsA ohmsB : List Nat) (s : State) : Host.Outcome State Fault Refusal := onIsland s (fun i => i.reread ohmsA ohmsB)

/-- SAFE_24V below 17 V for 2 ticks; outputs off and functions to STO (R441). -/
def execSupplyLow (s : State) : Host.Outcome State Fault Refusal := onIsland s (fun i => i.supplyLow)

/-- Power-on of SAFE_24V: the island reads its configuration and self-tests within 250 ms (R442). -/
def execSafePowerOn (mv : Nat) (s : State) : Host.Outcome State Fault Refusal := onIsland s (fun i => i.powerOn mv)

/-- The M die takes a safety status frame into account at a class 0 tick (R444). -/
def execSafeStatusFrame (s : State) : Host.Outcome State Fault Refusal := onDie s (fun d => d.safeFrame)

/-- No status frame for 8 ms; SAFE.STATE reads UNKNOWN (R444). -/
def execSafeStatusTimeout (s : State) : Host.Outcome State Fault Refusal := onDie s (fun d => d.statusTimeout)

/-- SAFE_24V falls below about 12 V and the safety island stops with every output off, losing all its state (R441). -/
def execIslandStop (s : State) : Host.Outcome State Fault Refusal := onIsland s (fun i => i.stop)

/-- The island finishes its start-up tests within 250 ms and enters OPERATE, or FAULT on a class 3 fault (R442). -/
def execIslandStartComplete (ohmsA ohmsB : List Nat) (test : Nat) (s : State) : Host.Outcome State Fault Refusal :=
  onIsland s (fun i => i.startDone ohmsA ohmsB test)

end Sys2Proof.Machine
end

