-- ==== Sys2Proof/Machine/CmdSystem.lean ====
section
/-! DEFINITION. Commands to a die: probe, reset, identity (chapters 03 and 20). -/

namespace Sys2Proof.Machine

open Sys2Proof

/-- Command that does nothing and answers OK; used as a round-trip probe and as a carrier for FENCE (R95). -/
def execNop (p : Pkt) (s : State) : Host.Outcome State Fault Refusal := onPacket .nop p s

/-- Command that resets this die or the whole package at its tick, after committing the journal (R587). -/
def execSysReset (p : Pkt) (s : State) : Host.Outcome State Fault Refusal := onPacket .sysReset p s

/-- Command that returns the package serial, die count, stepping, levels, life-cycle state and node (R587). -/
def execSysIdentify (p : Pkt) (s : State) : Host.Outcome State Fault Refusal := onPacket .sysIdentify p s

end Sys2Proof.Machine
end

