-- ==== Sys2Proof/Machine/CmdTask.lean ====
section
/-! DEFINITION. Turnstile commands and what its peers send (chapter 04). -/

namespace Sys2Proof.Machine

open Sys2Proof

/-- Command that cancels an undispatched task, optionally with cascade to its successors (R117). -/
def execTaskCancel (p : Pkt) (s : State) : Host.Outcome State Fault Refusal := onPacket .taskCancel p s

/-- Command that lowers a task's dependence count by a decrement (R120). -/
def execTaskSignal (p : Pkt) (s : State) : Host.Outcome State Fault Refusal := onPacket .taskSignal p s

/-- Task-only command that does nothing when it takes effect and carries modes EVENT and IDLE (R120). -/
def execTaskWait (p : Pkt) (s : State) : Host.Outcome State Fault Refusal := onPacket .taskWait p s

/-- Command that cancels every undispatched task of a client on the die (R120). -/
def execTaskCancelAll (p : Pkt) (s : State) : Host.Outcome State Fault Refusal := onPacket .taskCancelAll p s

/-- The Turnstile dispatches a ready task's command as the Turnstile client once an action slot is free (R112). -/
def execTaskDispatch (s : State) : Host.Outcome State Fault Refusal := onDie s (fun d => d.dispatch)

/-- A completion for a successor arrives from another node as a command-class packet and lowers its count once (R116). -/
def execTaskCompletionReceived (succ : U32) (node token : Nat) (s : State) : Host.Outcome State Fault Refusal :=
  onDie s (fun d => d.succReceived succ node token false)

/-- No acknowledgement of a remote completion within SYSTEM.CMD_TIMEOUT; the completion is given up (R116). -/
def execTaskSuccAckTimeout (token : Nat) (s : State) : Host.Outcome State Fault Refusal := onDie s (fun d => d.succTimeout token)

/-- The successor's die acknowledges a remote completion and the predecessor's die stops holding and timing it (R116). -/
def execTaskCompletionAck (token : Nat) (s : State) : Host.Outcome State Fault Refusal := onDie s (fun d => d.succAck token)

/-- A cascaded cancellation for a successor task arrives from another node and cancels that task with its own successors (R114). -/
def execSuccessorCancelReceived (succ : U32) (node token : Nat) (s : State) : Host.Outcome State Fault Refusal :=
  onDie s (fun d => d.succReceived succ node token true)

end Sys2Proof.Machine
end

