-- ==== Sys2Proof/Machine/CmdTick.lean ====
section
/-! DEFINITION. Ticks, stamps and clean boundaries (chapter 02). -/

namespace Sys2Proof.Machine

open Sys2Proof

/-- A pending stamped command reaches its tick and takes effect (R49). -/
def execStampReached (s : State) : Host.Outcome State Fault Refusal := onDie s (fun d => d.stampReached)

/-- A draining object reaches its clean boundary and enters DISABLED (R31). -/
def execCleanBoundaryReached (slot : Nat) (s : State) : Host.Outcome State Fault Refusal := onDie s (fun d => d.cleanBoundary slot)

/-- A sample tick begins: stream records, commands that take effect and per-object tick work are applied (R42). -/
def execSampleTick (s : State) : Host.Outcome State Fault Refusal := onDieAny s (fun d => d.sampleTick)

end Sys2Proof.Machine
end

