-- ==== Sys2Proof/Machine/CmdTime.lean ====
section
/-! DEFINITION. Time commands, messages, timers (chapter 16). -/

namespace Sys2Proof.Machine

open Sys2Proof

/-- Command that accepts a refused time step by its ID and steps MTIME (R493). -/
def execTimeAcceptStep (p : Pkt) (s : State) : Host.Outcome State Fault Refusal := onPacket .timeAcceptStep p s

/-- Command that sets the grandmaster's seconds at its next whole second (R499). -/
def execTimeSet (p : Pkt) (s : State) : Host.Outcome State Fault Refusal := onPacket .timeSet p s

/-- Command that returns the MTIME of its tick start and the time state (R499). -/
def execTimeGet (p : Pkt) (s : State) : Host.Outcome State Fault Refusal := onPacket .timeGet p s

/-- A SYNC time message is accepted, its offset computed and forwarded (R487). -/
def execSyncMessage (port arrival : Nat) (bytes : List Byte) (s : State) : Host.Outcome State Fault Refusal :=
  onDie s (fun d => d.timeIn port arrival (fun d => d.takeSync port arrival bytes))

/-- An ANNOUNCE message updates the grandmaster candidate (R483). -/
def execAnnounceMessage (port arrival : Nat) (bytes : List Byte) (s : State) : Host.Outcome State Fault Refusal :=
  onDie s (fun d => d.timeIn port arrival (fun d => d.takeAnnounce port bytes))

/-- A PDELAY_REQ is answered with a PDELAY_RESP carrying the turnaround (R488). -/
def execPdelayReqMessage (port arrival : Nat) (s : State) : Host.Outcome State Fault Refusal :=
  onDie s (fun d => d.timeIn port arrival (fun d => d.takePdelayReq port arrival))

/-- A PDELAY_RESP yields a link delay sample (R488). -/
def execPdelayRespMessage (port arrival : Nat) (bytes : List Byte) (s : State) : Host.Outcome State Fault Refusal :=
  onDie s (fun d => d.timeIn port arrival (fun d => d.takePdelayResp port arrival bytes))

/-- The grandmaster sends SYNC on every UP port each sync interval (R486). -/
def execSyncIntervalTimer (s : State) : Host.Outcome State Fault Refusal :=
  onDie s (fun d => d.whenUp (d.mer.syncAt + d.timePs.u Par.timeSyncInterval * 1000) (fun d => d.syncTimer))

/-- Each PDELAY_INTERVAL a lane sends PDELAY_REQ (R488). -/
def execPdelayTimer (s : State) : Host.Outcome State Fault Refusal :=
  onDie s (fun d => d.whenUp (d.mer.pdelAt + d.timePs.u Par.timePdelayInterval * 1000000) (fun d => d.pdelayTimer))

/-- Every 1 ms ANNOUNCE is sent on every UP port (R483). -/
def execAnnounceTimer (s : State) : Host.Outcome State Fault Refusal :=
  onDie s (fun d => d.whenUp (d.mer.annAt + 1000000) (fun d => d.announceTimer))

/-- No new grandmaster heartbeat for 4 ms; the candidate is dropped (R483). -/
def execGmCandidateStale (s : State) : Host.Outcome State Fault Refusal :=
  onDie s (fun d => d.whenUp (d.mer.seenAt + 4000000) (fun d => d.gmStale))

/-- No accepted SYNC for SYNC_LOSS intervals; the die enters HOLDOVER (R490). -/
def execSyncLossTimeout (s : State) : Host.Outcome State Fault Refusal :=
  onDie s (fun d => d.whenUp (d.mer.lastSync + d.timePs.u Par.timeSyncLoss * d.timePs.u Par.timeSyncInterval * 1000) (fun d => d.syncLoss))

/-- A PPS_IN rising edge is timestamped and may discipline the grandmaster (R495). -/
def execPpsInEdge (pin : Nat) (s : State) : Host.Outcome State Fault Refusal :=
  onDie s (fun d => if pin ≤ d.nextTick then (d.passTo pin).ppsIn pin else d)

/-- No PPS_IN edge for 2 s; a disciplined grandmaster reads LOCKING (R490). -/
def execPpsSilence (s : State) : Host.Outcome State Fault Refusal :=
  onDie s (fun d => d.whenUp (match d.mer.ppsAt with | some t => t + 2000000000 | none => d.upNs) (fun d => d.ppsSilence))

end Sys2Proof.Machine
end

