-- ==== Sys2Proof/Machine/CmdVernier.lean ====
section
/-! DEFINITION. Feedback commands, snapshots, reads and losses (chapter 05). -/

namespace Sys2Proof.Machine

open Sys2Proof

/-- Command that sets the channel state of a feedback channel, returning it to SERVICE only when no fault is present (R147). -/
def execFbkSetState (p : Pkt) (s : State) : Host.Outcome State Fault Refusal := onPacket .fbkSetState p s

/-- Command that sets the offset so the published position equals the given value at its tick (R153). -/
def execFbkSetPos (p : Pkt) (s : State) : Host.Outcome State Fault Refusal := onPacket .fbkSetPos p s

/-- Command that arms a reference to set the offset at the next index crossed in the permitted direction (R153). -/
def execFbkRefIndex (p : Pkt) (s : State) : Host.Outcome State Fault Refusal := onPacket .fbkRefIndex p s

/-- Command that disarms an armed index reference (R160). -/
def execFbkRefCancel (p : Pkt) (s : State) : Host.Outcome State Fault Refusal := onPacket .fbkRefCancel p s

/-- Command that returns the position, fraction and status of the sample of its tick (R160). -/
def execFbkGetSample (p : Pkt) (s : State) : Host.Outcome State Fault Refusal := onPacket .fbkGetSample p s

/-- The F-die front end snapshots every source at each 500 ns multiple and the Vernier counts and checks it (R126). -/
def execFbkSnapshot (t : Nat) (srcs : List SrcSnap) (s : State) : Host.Outcome State Fault Refusal :=
  onDie s (fun d => d.snapshotAt t srcs)

/-- The amplitude has lain outside or inside the window for FBK.AMP_FILT conversions (R134). -/
def execAmpFiltCount (slot : Nat) (s : State) : Host.Outcome State Fault Refusal := onDie s (fun d => d.fbkAmpCount slot)

/-- An index is crossed; it is checked against the previous one (R151, R152). A reference is completed by it at the tick whose snapshot
contains it (R153). -/
def execIndexCrossing (slot : Nat) (s : State) : Host.Outcome State Fault Refusal := onDie s (fun d => d.fbkIndexCheck slot)

/-- The Vernier starts an SSI frame read ahead of its tick (R138). -/
def execSsiReadStart (slot : Nat) (dataHigh : Bool) (s : State) : Host.Outcome State Fault Refusal :=
  onDie s (fun d => d.fbkReadStart slot dataHigh)

/-- An SSI frame has been read and is decoded, unwrapped or rejected (R139). -/
def execSsiReadComplete (slot : Nat) (frame : BitVec 48) (s : State) : Host.Outcome State Fault Refusal :=
  onDie s (fun d => d.fbkReadDone slot frame.toNat)

/-- No count change for FBK.SPEED_TIMEOUT; the speed is forced to zero (R157). -/
def execSpeedTimeoutExpiry (slot : Nat) (s : State) : Host.Outcome State Fault Refusal := onDie s (fun d => d.speedTimeout slot)

/-- The pair link to the F die goes down while the M die runs (R148). -/
def execPairLinkLoss (s : State) : Host.Outcome State Fault Refusal := onDie s (fun d => d.pairLost)

/-- The pair link between an M die and its F die comes up again while the M die runs, so sources and field channels can be enabled again (R148). -/
def execPairLinkRestored (s : State) : Host.Outcome State Fault Refusal := onDie s (fun d => d.pairRestored)

end Sys2Proof.Machine
end

