-- ==== Sys2Proof/Machine/Dispatch.lean ====
section
/-! DEFINITION. One arm per command: each calls its meaning once. -/

namespace Sys2Proof.Machine

open Sys2Proof

def exec (i : Instr) (s : State) : Host.Outcome State Fault Refusal :=
  match i with
  | .nop p => Sys2Proof.Machine.execNop p s
  | .sysReset p => Sys2Proof.Machine.execSysReset p s
  | .sysIdentify p => Sys2Proof.Machine.execSysIdentify p s
  | .objectCreate p => Sys2Proof.Machine.execObjectCreate p s
  | .objectDestroy p => Sys2Proof.Machine.execObjectDestroy p s
  | .objectEnable p => Sys2Proof.Machine.execObjectEnable p s
  | .objectDisable p => Sys2Proof.Machine.execObjectDisable p s
  | .paramGet p => Sys2Proof.Machine.execParamGet p s
  | .paramSet p => Sys2Proof.Machine.execParamSet p s
  | .paramSetMulti p => Sys2Proof.Machine.execParamSetMulti p s
  | .taskCancel p => Sys2Proof.Machine.execTaskCancel p s
  | .taskSignal p => Sys2Proof.Machine.execTaskSignal p s
  | .taskWait p => Sys2Proof.Machine.execTaskWait p s
  | .taskCancelAll p => Sys2Proof.Machine.execTaskCancelAll p s
  | .taskDispatch => Sys2Proof.Machine.execTaskDispatch s
  | .taskCompletionReceived succ node token => Sys2Proof.Machine.execTaskCompletionReceived succ node token s
  | .taskSuccAckTimeout token => Sys2Proof.Machine.execTaskSuccAckTimeout token s
  | .fbkSetState p => Sys2Proof.Machine.execFbkSetState p s
  | .fbkSetPos p => Sys2Proof.Machine.execFbkSetPos p s
  | .fbkRefIndex p => Sys2Proof.Machine.execFbkRefIndex p s
  | .fbkRefCancel p => Sys2Proof.Machine.execFbkRefCancel p s
  | .fbkGetSample p => Sys2Proof.Machine.execFbkGetSample p s
  | .moveAbs p => Sys2Proof.Machine.execMoveAbs p s
  | .moveRel p => Sys2Proof.Machine.execMoveRel p s
  | .moveVel p => Sys2Proof.Machine.execMoveVel p s
  | .moveHold p => Sys2Proof.Machine.execMoveHold p s
  | .stop p => Sys2Proof.Machine.execStop p s
  | .stopQuick p => Sys2Proof.Machine.execStopQuick p s
  | .axisGetSample p => Sys2Proof.Machine.execAxisGetSample p s
  | .pathLine p => Sys2Proof.Machine.execPathLine p s
  | .pathArc p => Sys2Proof.Machine.execPathArc p s
  | .pathFlush p => Sys2Proof.Machine.execPathFlush p s
  | .gearRatio p => Sys2Proof.Machine.execGearRatio p s
  | .gearCamSwitch p => Sys2Proof.Machine.execGearCamSwitch p s
  | .gearShift p => Sys2Proof.Machine.execGearShift p s
  | .evtArm p => Sys2Proof.Machine.execEvtArm p s
  | .evtDisarm p => Sys2Proof.Machine.execEvtDisarm p s
  | .captArm p => Sys2Proof.Machine.execCaptArm p s
  | .lclkArm p => Sys2Proof.Machine.execLclkArm p s
  | .lclkReg p => Sys2Proof.Machine.execLclkReg p s
  | .lgrpCoefWrite p => Sys2Proof.Machine.execLgrpCoefWrite p s
  | .lgrpBankSwap p => Sys2Proof.Machine.execLgrpBankSwap p s
  | .lgrpResetState p => Sys2Proof.Machine.execLgrpResetState p s
  | .lgrpTakeFlags p => Sys2Proof.Machine.execLgrpTakeFlags p s
  | .lgrpStepWrite p => Sys2Proof.Machine.execLgrpStepWrite p s
  | .lgrpStepRead p => Sys2Proof.Machine.execLgrpStepRead p s
  | .traceArm p => Sys2Proof.Machine.execTraceArm p s
  | .traceStop p => Sys2Proof.Machine.execTraceStop p s
  | .traceRead p => Sys2Proof.Machine.execTraceRead p s
  | .pwmWrite p => Sys2Proof.Machine.execPwmWrite p s
  | .pwmLoadAll p => Sys2Proof.Machine.execPwmLoadAll p s
  | .pwmForce p => Sys2Proof.Machine.execPwmForce p s
  | .dlaneStageReset p => Sys2Proof.Machine.execDlaneStageReset p s
  | .dlaneGetUplink p => Sys2Proof.Machine.execDlaneGetUplink p s
  | .fioWriteMask p => Sys2Proof.Machine.execFioWriteMask p s
  | .fioReset p => Sys2Proof.Machine.execFioReset p s
  | .fioReadAll p => Sys2Proof.Machine.execFioReadAll p s
  | .safeReadLog p => Sys2Proof.Machine.execSafeReadLog p s
  | .fabricCommit p => Sys2Proof.Machine.execFabricCommit p s
  | .portRetrain p => Sys2Proof.Machine.execPortRetrain p s
  | .fabricRouteGet p => Sys2Proof.Machine.execFabricRouteGet p s
  | .timeAcceptStep p => Sys2Proof.Machine.execTimeAcceptStep p s
  | .timeSet p => Sys2Proof.Machine.execTimeSet p s
  | .timeGet p => Sys2Proof.Machine.execTimeGet p s
  | .dmaStart p => Sys2Proof.Machine.execDmaStart p s
  | .dmaResume p => Sys2Proof.Machine.execDmaResume p s
  | .dmaAbort p => Sys2Proof.Machine.execDmaAbort p s
  | .canTx p => Sys2Proof.Machine.execCanTx p s
  | .canTxCancel p => Sys2Proof.Machine.execCanTxCancel p s
  | .canFiltSwitch p => Sys2Proof.Machine.execCanFiltSwitch p s
  | .canmbRead p => Sys2Proof.Machine.execCanmbRead p s
  | .profWrite p => Sys2Proof.Machine.execProfWrite p s
  | .profCommit p => Sys2Proof.Machine.execProfCommit p s
  | .profErase p => Sys2Proof.Machine.execProfErase p s
  | .profSelectNext p => Sys2Proof.Machine.execProfSelectNext p s
  | .journalSync p => Sys2Proof.Machine.execJournalSync p s
  | .journalClear p => Sys2Proof.Machine.execJournalClear p s
  | .memClaim p => Sys2Proof.Machine.execMemClaim p s
  | .memRelease p => Sys2Proof.Machine.execMemRelease p s
  | .memWrite p => Sys2Proof.Machine.execMemWrite p s
  | .memRead p => Sys2Proof.Machine.execMemRead p s
  | .fwWrite p => Sys2Proof.Machine.execFwWrite p s
  | .fwVerify p => Sys2Proof.Machine.execFwVerify p s
  | .fwActivate p => Sys2Proof.Machine.execFwActivate p s
  | .lcChallenge p => Sys2Proof.Machine.execLcChallenge p s
  | .lcAdvance p => Sys2Proof.Machine.execLcAdvance p s
  | .dbgHalt p => Sys2Proof.Machine.execDbgHalt p s
  | .dbgResume p => Sys2Proof.Machine.execDbgResume p s
  | .dbgStep p => Sys2Proof.Machine.execDbgStep p s
  | .dbgCtxRead p => Sys2Proof.Machine.execDbgCtxRead p s
  | .engineHaltTakesEffect engine => Sys2Proof.Machine.execEngineHaltTakesEffect engine s
  | .dbCmdTail client queue value => Sys2Proof.Machine.execDbCmdTail client queue value s
  | .dbRplHead client queue value => Sys2Proof.Machine.execDbRplHead client queue value s
  | .evrHead client ring value => Sys2Proof.Machine.execEvrHead client ring value s
  | .evrSize client ring value => Sys2Proof.Machine.execEvrSize client ring value s
  | .q0En client enable => Sys2Proof.Machine.execQ0En client enable s
  | .q0Restart client => Sys2Proof.Machine.execQ0Restart client s
  | .hostWindowWrite client offset bytes => Sys2Proof.Machine.execHostWindowWrite client offset bytes s
  | .qspiWrite addr bytes => Sys2Proof.Machine.execQspiWrite addr bytes s
  | .qspiRead addr len => Sys2Proof.Machine.execQspiRead addr len s
  | .qspiStatus => Sys2Proof.Machine.execQspiStatus s
  | .packetFetch client queue ring => Sys2Proof.Machine.execPacketFetch client queue ring s
  | .heldPacketAccept => Sys2Proof.Machine.execHeldPacketAccept s
  | .stampReached => Sys2Proof.Machine.execStampReached s
  | .cmdTimeoutExpiry pid => Sys2Proof.Machine.execCmdTimeoutExpiry pid s
  | .cleanBoundaryReached slot => Sys2Proof.Machine.execCleanBoundaryReached slot s
  | .sampleTick => Sys2Proof.Machine.execSampleTick s
  | .ss1WireChangeSeen => Sys2Proof.Machine.execSs1WireChangeSeen s
  | .loopGate slot => Sys2Proof.Machine.execLoopGate slot s
  | .feTimeReached slot axis => Sys2Proof.Machine.execFeTimeReached slot axis s
  | .settleReached slot => Sys2Proof.Machine.execSettleReached slot s
  | .fbkSnapshot t srcs => Sys2Proof.Machine.execFbkSnapshot t srcs s
  | .ampFiltCount slot => Sys2Proof.Machine.execAmpFiltCount slot s
  | .indexCrossing slot => Sys2Proof.Machine.execIndexCrossing slot s
  | .ssiReadStart slot dataHigh => Sys2Proof.Machine.execSsiReadStart slot dataHigh s
  | .ssiReadComplete slot frame => Sys2Proof.Machine.execSsiReadComplete slot frame s
  | .speedTimeoutExpiry slot => Sys2Proof.Machine.execSpeedTimeoutExpiry slot s
  | .pairLinkLoss => Sys2Proof.Machine.execPairLinkLoss s
  | .streamPacket port p => Sys2Proof.Machine.execStreamPacket port p s
  | .predLimitReached slot => Sys2Proof.Machine.execPredLimitReached slot s
  | .lclkPredLimit slot => Sys2Proof.Machine.execLclkPredLimit slot s
  | .bindPacket port p => Sys2Proof.Machine.execBindPacket port p s
  | .evtFire slot => Sys2Proof.Machine.execEvtFire slot s
  | .capInEdge ball pin rising width => Sys2Proof.Machine.execCapInEdge ball pin rising width s
  | .lclkEdge slot => Sys2Proof.Machine.execLclkEdge slot s
  | .pwmBoundary slot => Sys2Proof.Machine.execPwmBoundary slot s
  | .pwmTriggerFire slot trig => Sys2Proof.Machine.execPwmTriggerFire slot trig s
  | .pwmFaultInputLow input clocks => Sys2Proof.Machine.execPwmFaultInputLow input clocks s
  | .pwmFaultInputHigh input => Sys2Proof.Machine.execPwmFaultInputHigh input s
  | .sdinResult input bits => Sys2Proof.Machine.execSdinResult input bits s
  | .laneTrained lane => Sys2Proof.Machine.execLaneTrained lane s
  | .uplinkFrame lane code sofNs eofNs bytes => Sys2Proof.Machine.execUplinkFrame lane code sofNs eofNs bytes s
  | .dlaneTrainTimeout lane => Sys2Proof.Machine.execDlaneTrainTimeout lane s
  | .staleLimitReached lane => Sys2Proof.Machine.execStaleLimitReached lane s
  | .lossLimitReached lane => Sys2Proof.Machine.execLossLimitReached lane s
  | .holdDelayReached lane axisSlot => Sys2Proof.Machine.execHoldDelayReached lane axisSlot s
  | .fioSample chan t mv ua ma => Sys2Proof.Machine.execFioSample chan t mv ua ma s
  | .fioFilterExpiry chan => Sys2Proof.Machine.execFioFilterExpiry chan s
  | .fioOffTestPulse chan => Sys2Proof.Machine.execFioOffTestPulse chan s
  | .fioThermalShutdown chan => Sys2Proof.Machine.execFioThermalShutdown chan s
  | .fioRetryExpiry chan => Sys2Proof.Machine.execFioRetryExpiry chan s
  | .fioTotalCurrentLimit mas => Sys2Proof.Machine.execFioTotalCurrentLimit mas s
  | .fieldUndervoltage mv => Sys2Proof.Machine.execFieldUndervoltage mv s
  | .fieldSupplyRestored mv => Sys2Proof.Machine.execFieldSupplyRestored mv s
  | .fieldRegulatorRestart => Sys2Proof.Machine.execFieldRegulatorRestart s
  | .logicSideSilent => Sys2Proof.Machine.execLogicSideSilent s
  | .fioHoldTimeout chan => Sys2Proof.Machine.execFioHoldTimeout chan s
  | .logicSideReturn => Sys2Proof.Machine.execLogicSideReturn s
  | .safetyTick reads => Sys2Proof.Machine.execSafetyTick reads s
  | .safeTestPulse supplyB low => Sys2Proof.Machine.execSafeTestPulse supplyB low s
  | .discrepancy pair => Sys2Proof.Machine.execDiscrepancy pair s
  | .ss1TimeElapsed fn => Sys2Proof.Machine.execSs1TimeElapsed fn s
  | .safeResetFall us => Sys2Proof.Machine.execSafeResetFall us s
  | .resetStuck => Sys2Proof.Machine.execResetStuck s
  | .stoTestPulse high => Sys2Proof.Machine.execStoTestPulse high s
  | .sbcSwitchTest fn passed => Sys2Proof.Machine.execSbcSwitchTest fn passed s
  | .brkPassPulse fn ms => Sys2Proof.Machine.execBrkPassPulse fn ms s
  | .brakeTestInterval fn => Sys2Proof.Machine.execBrakeTestInterval fn s
  | .edmTimeExpiry edm => Sys2Proof.Machine.execEdmTimeExpiry edm s
  | .configReread ohmsA ohmsB => Sys2Proof.Machine.execConfigReread ohmsA ohmsB s
  | .supplyLow => Sys2Proof.Machine.execSupplyLow s
  | .safePowerOn mv => Sys2Proof.Machine.execSafePowerOn mv s
  | .safeStatusFrame => Sys2Proof.Machine.execSafeStatusFrame s
  | .safeStatusTimeout => Sys2Proof.Machine.execSafeStatusTimeout s
  | .trainBlock port valid eqOk bytes => Sys2Proof.Machine.execTrainBlock port valid eqOk bytes s
  | .portTrainTimeout port => Sys2Proof.Machine.execPortTrainTimeout port s
  | .portRetrainTimer port => Sys2Proof.Machine.execPortRetrainTimer port s
  | .blockLockLost port => Sys2Proof.Machine.execBlockLockLost port s
  | .replayLimit port => Sys2Proof.Machine.execReplayLimit port s
  | .linkFrame port lseq cls crcOk bytes hostData => Sys2Proof.Machine.execLinkFrame port lseq cls crcOk bytes hostData s
  | .ackBlock port lseq => Sys2Proof.Machine.execAckBlock port lseq s
  | .nakBlock port lseq => Sys2Proof.Machine.execNakBlock port lseq s
  | .creditBlock port classA unitsA classB unitsB => Sys2Proof.Machine.execCreditBlock port classA unitsA classB unitsB s
  | .ackTimer port => Sys2Proof.Machine.execAckTimer port s
  | .bulkRound => Sys2Proof.Machine.execBulkRound s
  | .cmdPacket port p => Sys2Proof.Machine.execCmdPacket port p s
  | .replyPacket port p => Sys2Proof.Machine.execReplyPacket port p s
  | .eventPacket port p => Sys2Proof.Machine.execEventPacket port p s
  | .e2eCreditPacket port p => Sys2Proof.Machine.execE2eCreditPacket port p s
  | .discPacket port p => Sys2Proof.Machine.execDiscPacket port p s
  | .discTimer => Sys2Proof.Machine.execDiscTimer s
  | .candidateStale => Sys2Proof.Machine.execCandidateStale s
  | .discSettleExpiry => Sys2Proof.Machine.execDiscSettleExpiry s
  | .topoPacket port p => Sys2Proof.Machine.execTopoPacket port p s
  | .routePacket port p => Sys2Proof.Machine.execRoutePacket port p s
  | .ownFabricTimeout => Sys2Proof.Machine.execOwnFabricTimeout s
  | .levelPacket port p => Sys2Proof.Machine.execLevelPacket port p s
  | .levelSwitchTime => Sys2Proof.Machine.execLevelSwitchTime s
  | .bulkWritePacket port p => Sys2Proof.Machine.execBulkWritePacket port p s
  | .bulkAckPacket port p => Sys2Proof.Machine.execBulkAckPacket port p s
  | .bulkReadPacket port p hostData => Sys2Proof.Machine.execBulkReadPacket port p hostData s
  | .bulkDataPacket port p => Sys2Proof.Machine.execBulkDataPacket port p s
  | .syncMessage port arrival bytes => Sys2Proof.Machine.execSyncMessage port arrival bytes s
  | .announceMessage port arrival bytes => Sys2Proof.Machine.execAnnounceMessage port arrival bytes s
  | .pdelayReqMessage port arrival => Sys2Proof.Machine.execPdelayReqMessage port arrival s
  | .pdelayRespMessage port arrival bytes => Sys2Proof.Machine.execPdelayRespMessage port arrival bytes s
  | .syncIntervalTimer => Sys2Proof.Machine.execSyncIntervalTimer s
  | .pdelayTimer => Sys2Proof.Machine.execPdelayTimer s
  | .announceTimer => Sys2Proof.Machine.execAnnounceTimer s
  | .gmCandidateStale => Sys2Proof.Machine.execGmCandidateStale s
  | .syncLossTimeout => Sys2Proof.Machine.execSyncLossTimeout s
  | .ppsInEdge pin => Sys2Proof.Machine.execPpsInEdge pin s
  | .ppsSilence => Sys2Proof.Machine.execPpsSilence s
  | .dmaRequestPulse slot => Sys2Proof.Machine.execDmaRequestPulse slot s
  | .descFetchComplete slot hostData => Sys2Proof.Machine.execDescFetchComplete slot hostData s
  | .descComplete slot => Sys2Proof.Machine.execDescComplete slot s
  | .dmaBusTimeout slot => Sys2Proof.Machine.execDmaBusTimeout slot s
  | .canFrameReceived ctrl cid dlc data sof tec rxc => Sys2Proof.Machine.execCanFrameReceived ctrl cid dlc data sof tec rxc s
  | .canTxComplete ctrl sof tdc tec rxc => Sys2Proof.Machine.execCanTxComplete ctrl sof tdc tec rxc s
  | .canTxAttemptFailed ctrl sof lec tec rxc => Sys2Proof.Machine.execCanTxAttemptFailed ctrl sof lec tec rxc s
  | .canBusOff ctrl lec => Sys2Proof.Machine.execCanBusOff ctrl lec s
  | .canBusoffRecovery ctrl => Sys2Proof.Machine.execCanBusoffRecovery ctrl s
  | .canIntegrationDone ctrl => Sys2Proof.Machine.execCanIntegrationDone ctrl s
  | .canWindowRead window => Sys2Proof.Machine.execCanWindowRead window s
  | .canWindowWrite window bytes => Sys2Proof.Machine.execCanWindowWrite window bytes s
  | .memoryErrorDetected mem addr uncorrectable reader slot area => Sys2Proof.Machine.execMemoryErrorDetected mem addr uncorrectable reader slot area s
  | .journalCompaction => Sys2Proof.Machine.execJournalCompaction s
  | .challengeExpiry => Sys2Proof.Machine.execChallengeExpiry s
  | .lifecycleWipeComplete => Sys2Proof.Machine.execLifecycleWipeComplete s
  | .resetNLow => Sys2Proof.Machine.execResetNLow s
  | .resetNRise => Sys2Proof.Machine.execResetNRise s
  | .supplyDip rail => Sys2Proof.Machine.execSupplyDip rail s
  | .supplyRestored => Sys2Proof.Machine.execSupplyRestored s
  | .pllUnlock die => Sys2Proof.Machine.execPllUnlock die s
  | .watchdog die => Sys2Proof.Machine.execWatchdog die s
  | .bootStageComplete die profPins cause us => Sys2Proof.Machine.execBootStageComplete die profPins cause us s
  | .bootTimeout => Sys2Proof.Machine.execBootTimeout s
  | .hostQueuesOpen us => Sys2Proof.Machine.execHostQueuesOpen us s
  | .pciePerstLow => Sys2Proof.Machine.execPciePerstLow s
  | .pcieLinkDown => Sys2Proof.Machine.execPcieLinkDown s
  | .pcieFlr => Sys2Proof.Machine.execPcieFlr s
  | .pcieLinkUp => Sys2Proof.Machine.execPcieLinkUp s
  | .idcode => Sys2Proof.Machine.execIdcode s
  | .bypass => Sys2Proof.Machine.execBypass s
  | .samplePreload boundary => Sys2Proof.Machine.execSamplePreload boundary s
  | .extest => Sys2Proof.Machine.execExtest s
  | .clamp => Sys2Proof.Machine.execClamp s
  | .highz => Sys2Proof.Machine.execHighz s
  | .pulseEnd slot => Sys2Proof.Machine.execPulseEnd slot s
  | .dmaBurstEnd slot hostData => Sys2Proof.Machine.execDmaBurstEnd slot hostData s
  | .errorAnswer slot => Sys2Proof.Machine.execErrorAnswer slot s
  | .canErrorDetected ctrl lec tec rxc => Sys2Proof.Machine.execCanErrorDetected ctrl lec tec rxc s
  | .taskCompletionAck token => Sys2Proof.Machine.execTaskCompletionAck token s
  | .successorCancelReceived succ node token => Sys2Proof.Machine.execSuccessorCancelReceived succ node token s
  | .journalRecordsCommitted => Sys2Proof.Machine.execJournalRecordsCommitted s
  | .compactionComplete => Sys2Proof.Machine.execCompactionComplete s
  | .fieldRegulatorStop => Sys2Proof.Machine.execFieldRegulatorStop s
  | .islandStop => Sys2Proof.Machine.execIslandStop s
  | .islandStartComplete ohmsA ohmsB test => Sys2Proof.Machine.execIslandStartComplete ohmsA ohmsB test s
  | .pairLinkRestored => Sys2Proof.Machine.execPairLinkRestored s
  | .deskewComplete port => Sys2Proof.Machine.execDeskewComplete port s

end Sys2Proof.Machine
end

