-- ==== Sys2Proof/Machine/Step.lean ====
section
/-! DEFINITION. One step: the command at the front of the queue, or a stretch of time where none waits. -/

namespace Sys2Proof.Machine

open Sys2Proof

/-- One step. Without a waiting command the machine runs on for one base cycle of 4 ns, and for the sample tick that falls into
it (R42, log 43). -/
def step (s : State) : Host.Outcome State Fault Refusal :=
  match s.pending with
  | [] => .next { s with md := s.md.baseTick }
  | c :: r => exec c { s with pending := r }

/-- No row of the opcode table gives bits, so no word spells a command, and `s` stays as it is. Commands come from outside the
block (log 44). -/
def State.withFetchWord (s : State) (nbits w : Nat) : State :=
  match decodeTableWord nbits w with
  | some c => { s with pending := c :: s.pending }
  | none => s

end Sys2Proof.Machine
end

