-- ==== Sys2Proof/WellFormed.lean ====
section
/-! DEFINITION. Well-formed commands: operands that name parts the die has, and packets whose parts have the sizes their own fields
give (R59, R66 … R68, R102, R103, R349, R356, R395, R427, R462, R525). A meaning is total; on an operand that fails a check it does nothing
or answers as the rules of the check say. -/

namespace Sys2Proof

/-- A task block carries four successor entries and two handles per extension unit (R102, R103). -/
def TaskBlock.wf (t : TaskBlock) : Bool := t.succs.length == 4 && t.ext.length == 2 * t.next.toNat

/-- The blocks are those `FLAGS` announces, each of its size, and the packet lies within the longest of 1,024 bytes (R66 … R68). -/
def Pkt.wf (p : Pkt) : Bool :=
  (p.flags.getLsbD 1 == p.task.isSome) && (p.flags.getLsbD 2 == p.stamp.isSome)
    && (match p.task with | some t => t.wf | none => true)
    && decide (p.body.length ≤ 1008)

/-- Header fields within their widths, and a payload of 1,024 bytes at most, a multiple of 8 (R462). -/
def FabPkt.wf (p : FabPkt) : Bool :=
  decide (p.dst < 65536) && decide (p.src < 65536) && decide (p.level < 256) && decide (p.hops < 256) && decide (p.flags < 256)
    && decide (p.xtag < 65536) && decide (p.payload.length ≤ 1024 ∧ p.payload.length % 8 = 0)

/-- An edge at one of the seven inputs of a digital source (R143). -/
def InEdge.wf (e : InEdge) : Bool := decide (e.input < 7)

/-- A source with an analogue or digital front end (R122). -/
def SrcSnap.wf (x : SrcSnap) : Bool := decide (x.type < 4) && decide (x.chan < 8) && x.edges.all InEdge.wf

/-- Eight reads of each of ten inputs and of each of six wires, four `EDM` levels and two coil currents (R421, R427). -/
def SafeReads.wf (r : SafeReads) : Bool :=
  r.ins.length == 10 && r.ins.all (fun x => x.length == 8) && r.edm.length == 4
    && r.wires.length == 6 && r.wires.all (fun x => x.length == 8) && r.brkMa.length == 2

/-- One of the four ports of a die (R448). -/
def portOk (k : Nat) : Bool := decide (k < 4)

/-- One of the sixteen drive lanes (R25). -/
def laneOk (k : Nat) : Bool := decide (k < 16)

/-- One of the 32 field channels (R25). -/
def chanOk (k : Nat) : Bool := decide (k < 32)

/-- One of the 4,096 slots that a handle can name (R22). -/
def slotOk (n : Nat) : Bool := decide (n < 4096)

/-- One of two: loop engines, safety functions, CAN controllers and their windows. -/
def ofTwo (k : Nat) : Bool := decide (k < 2)

/-- The operands of a command lie in their ranges. -/
def Instr.wf : Instr → Bool
  | .nop p | .sysReset p | .sysIdentify p | .objectCreate p | .objectDestroy p | .objectEnable p | .objectDisable p | .paramGet p
  | .paramSet p | .paramSetMulti p | .taskCancel p | .taskSignal p | .taskWait p | .taskCancelAll p => p.wf
  | .fbkSetState p | .fbkSetPos p | .fbkRefIndex p | .fbkRefCancel p | .fbkGetSample p => p.wf
  | .moveAbs p | .moveRel p | .moveVel p | .moveHold p | .stop p | .stopQuick p | .axisGetSample p | .pathLine p | .pathArc p
  | .pathFlush p => p.wf
  | .gearRatio p | .gearCamSwitch p | .gearShift p | .evtArm p | .evtDisarm p | .captArm p | .lclkArm p | .lclkReg p => p.wf
  | .lgrpCoefWrite p | .lgrpBankSwap p | .lgrpResetState p | .lgrpTakeFlags p | .lgrpStepWrite p | .lgrpStepRead p | .traceArm p
  | .traceStop p | .traceRead p => p.wf
  | .pwmWrite p | .pwmLoadAll p | .pwmForce p | .dlaneStageReset p | .dlaneGetUplink p | .fioWriteMask p | .fioReset p | .fioReadAll p
  | .safeReadLog p => p.wf
  | .fabricCommit p | .portRetrain p | .fabricRouteGet p | .timeAcceptStep p | .timeSet p | .timeGet p | .dmaStart p | .dmaResume p
  | .dmaAbort p => p.wf
  | .canTx p | .canTxCancel p | .canFiltSwitch p | .canmbRead p => p.wf
  | .profWrite p | .profCommit p | .profErase p | .profSelectNext p | .journalSync p | .journalClear p | .memClaim p | .memRelease p
  | .memWrite p | .memRead p | .fwWrite p | .fwVerify p | .fwActivate p | .lcChallenge p | .lcAdvance p => p.wf
  | .dbgHalt p | .dbgResume p | .dbgStep p | .dbgCtxRead p => p.wf
  | .taskCompletionReceived _ node _ | .successorCancelReceived _ node _ => decide (node < 65536)
  | .dbCmdTail _ q _ | .dbRplHead _ q _ | .packetFetch _ q _ => decide (q < 8)
  | .evrHead _ r _ | .evrSize _ r _ => decide (r < 8)
  | .hostWindowWrite _ o b => decide (o + b.length ≤ 65536)
  | .qspiRead a n => decide (a.toNat + n ≤ 2 ^ 32)
  | .qspiWrite a b => decide (a.toNat + b.length ≤ 2 ^ 32)
  | .engineHaltTakesEffect e => ofTwo e
  | .cleanBoundaryReached n | .loopGate n | .settleReached n | .ampFiltCount n | .indexCrossing n | .ssiReadStart n _ | .ssiReadComplete n _
  | .speedTimeoutExpiry n | .predLimitReached n | .lclkPredLimit n | .evtFire n | .lclkEdge n | .pwmBoundary n | .dmaRequestPulse n
  | .descFetchComplete n _ | .descComplete n | .dmaBusTimeout n | .pulseEnd n | .dmaBurstEnd n _ | .errorAnswer n => slotOk n
  | .feTimeReached n a => slotOk n && decide (a < 4)
  | .pwmTriggerFire n t => slotOk n && ofTwo t
  | .fbkSnapshot t srcs => decide (t % 500 = 0) && srcs.all SrcSnap.wf
  | .capInEdge b _ _ _ => decide (b < 8)
  | .pwmFaultInputLow k _ | .pwmFaultInputHigh k => decide (k < 4)
  | .sdinResult k _ => decide (k < 8)
  | .laneTrained k | .uplinkFrame k _ _ _ _ | .dlaneTrainTimeout k | .staleLimitReached k | .lossLimitReached k => laneOk k
  | .holdDelayReached k n => laneOk k && slotOk n
  | .fioSample c _ _ _ _ | .fioFilterExpiry c | .fioOffTestPulse c | .fioThermalShutdown c | .fioRetryExpiry c | .fioHoldTimeout c => chanOk c
  | .fioTotalCurrentLimit mas => mas.length == 32
  | .safetyTick r => r.wf
  | .safeTestPulse _ low => low.length == 8
  | .discrepancy k => decide (k < 5)
  | .ss1TimeElapsed f | .sbcSwitchTest f _ | .brkPassPulse f _ | .brakeTestInterval f => ofTwo f
  | .stoTestPulse high => high.length == 3
  | .edmTimeExpiry k => decide (k < 4)
  | .configReread a b | .islandStartComplete a b _ => a.length == 12 && b.length == 12
  | .streamPacket k p | .bindPacket k p | .cmdPacket k p | .replyPacket k p | .eventPacket k p | .e2eCreditPacket k p | .discPacket k p
  | .topoPacket k p | .routePacket k p | .levelPacket k p | .bulkWritePacket k p | .bulkAckPacket k p | .bulkDataPacket k p => portOk k && p.wf
  | .bulkReadPacket k p _ => portOk k && p.wf
  | .trainBlock k _ _ _ | .portTrainTimeout k | .portRetrainTimer k | .blockLockLost k | .replayLimit k | .linkFrame k _ _ _ _ _
  | .ackBlock k _ | .nakBlock k _ | .creditBlock k _ _ _ _ | .ackTimer k | .syncMessage k _ _ | .announceMessage k _ _
  | .pdelayReqMessage k _ | .pdelayRespMessage k _ _ | .deskewComplete k => portOk k
  | .canFrameReceived c _ _ _ _ _ _ | .canTxComplete c _ _ _ _ | .canTxAttemptFailed c _ _ _ _ | .canBusOff c _ | .canBusoffRecovery c
  | .canIntegrationDone c | .canWindowRead c | .canWindowWrite c _ | .canErrorDetected c _ _ _ => ofTwo c
  | .memoryErrorDetected m _ _ _ slot _ => decide (m < 4) && slotOk slot
  | .supplyDip rail => decide (rail < 4)
  | .pllUnlock d | .watchdog d | .bootStageComplete d _ _ _ => decide (d < 4)
  | .taskDispatch | .taskSuccAckTimeout _ | .taskCompletionAck _ | .q0En _ _ | .q0Restart _ | .qspiStatus | .heldPacketAccept
  | .stampReached | .cmdTimeoutExpiry _ | .sampleTick | .ss1WireChangeSeen | .pairLinkLoss | .pairLinkRestored => true
  | .fieldUndervoltage _ | .fieldSupplyRestored _ | .fieldRegulatorRestart | .fieldRegulatorStop | .logicSideSilent | .logicSideReturn => true
  | .safeResetFall _ | .resetStuck | .supplyLow | .safePowerOn _ | .safeStatusFrame | .safeStatusTimeout | .islandStop => true
  | .bulkRound | .discTimer | .candidateStale | .discSettleExpiry | .ownFabricTimeout | .levelSwitchTime | .syncIntervalTimer
  | .pdelayTimer | .announceTimer | .gmCandidateStale | .syncLossTimeout | .ppsInEdge _ | .ppsSilence => true
  | .journalCompaction | .journalRecordsCommitted | .compactionComplete | .challengeExpiry | .lifecycleWipeComplete => true
  | .resetNLow | .resetNRise | .supplyRestored | .bootTimeout | .hostQueuesOpen _ | .pciePerstLow | .pcieLinkDown | .pcieFlr
  | .pcieLinkUp => true
  | .idcode | .bypass | .samplePreload _ | .extest | .clamp | .highz => true

end Sys2Proof
end

