-- ==== Sys2Proof/Safety.lean ====
section
/-! DEFINITION. The terms claims are stated in: legal states of the safety island, a die that runs, a packet that passes its checks, the
state a step leaves once a command's own effect is done. -/

namespace Sys2Proof.Machine

open Sys2Proof

/-! Commands that are packets. -/

/-- The row of an opcode. -/
def Op.row (op : Op) (p : Pkt) : Instr :=
  match op with
  | .nop => .nop p
  | .objectCreate => .objectCreate p
  | .objectDestroy => .objectDestroy p
  | .objectEnable => .objectEnable p
  | .objectDisable => .objectDisable p
  | .paramGet => .paramGet p
  | .paramSet => .paramSet p
  | .paramSetMulti => .paramSetMulti p
  | .taskCancel => .taskCancel p
  | .taskSignal => .taskSignal p
  | .taskWait => .taskWait p
  | .taskCancelAll => .taskCancelAll p
  | .fbkSetState => .fbkSetState p
  | .fbkSetPos => .fbkSetPos p
  | .fbkRefIndex => .fbkRefIndex p
  | .fbkRefCancel => .fbkRefCancel p
  | .fbkGetSample => .fbkGetSample p
  | .moveAbs => .moveAbs p
  | .moveRel => .moveRel p
  | .moveVel => .moveVel p
  | .moveHold => .moveHold p
  | .stop => .stop p
  | .stopQuick => .stopQuick p
  | .axisGetSample => .axisGetSample p
  | .pathLine => .pathLine p
  | .pathArc => .pathArc p
  | .pathFlush => .pathFlush p
  | .gearRatio => .gearRatio p
  | .gearCamSwitch => .gearCamSwitch p
  | .gearShift => .gearShift p
  | .evtArm => .evtArm p
  | .evtDisarm => .evtDisarm p
  | .captArm => .captArm p
  | .lclkArm => .lclkArm p
  | .lclkReg => .lclkReg p
  | .lgrpCoefWrite => .lgrpCoefWrite p
  | .lgrpBankSwap => .lgrpBankSwap p
  | .lgrpResetState => .lgrpResetState p
  | .lgrpTakeFlags => .lgrpTakeFlags p
  | .lgrpStepWrite => .lgrpStepWrite p
  | .lgrpStepRead => .lgrpStepRead p
  | .traceArm => .traceArm p
  | .traceStop => .traceStop p
  | .traceRead => .traceRead p
  | .pwmWrite => .pwmWrite p
  | .pwmLoadAll => .pwmLoadAll p
  | .pwmForce => .pwmForce p
  | .dlaneStageReset => .dlaneStageReset p
  | .dlaneGetUplink => .dlaneGetUplink p
  | .fioWriteMask => .fioWriteMask p
  | .fioReset => .fioReset p
  | .fioReadAll => .fioReadAll p
  | .safeReadLog => .safeReadLog p
  | .fabricCommit => .fabricCommit p
  | .portRetrain => .portRetrain p
  | .fabricRouteGet => .fabricRouteGet p
  | .timeAcceptStep => .timeAcceptStep p
  | .timeSet => .timeSet p
  | .timeGet => .timeGet p
  | .dmaStart => .dmaStart p
  | .dmaResume => .dmaResume p
  | .dmaAbort => .dmaAbort p
  | .canTx => .canTx p
  | .canTxCancel => .canTxCancel p
  | .canFiltSwitch => .canFiltSwitch p
  | .canmbRead => .canmbRead p
  | .profWrite => .profWrite p
  | .profCommit => .profCommit p
  | .profErase => .profErase p
  | .profSelectNext => .profSelectNext p
  | .journalSync => .journalSync p
  | .journalClear => .journalClear p
  | .memClaim => .memClaim p
  | .memRelease => .memRelease p
  | .memWrite => .memWrite p
  | .memRead => .memRead p
  | .fwWrite => .fwWrite p
  | .fwVerify => .fwVerify p
  | .fwActivate => .fwActivate p
  | .lcChallenge => .lcChallenge p
  | .lcAdvance => .lcAdvance p
  | .sysReset => .sysReset p
  | .sysIdentify => .sysIdentify p
  | .dbgHalt => .dbgHalt p
  | .dbgResume => .dbgResume p
  | .dbgStep => .dbgStep p
  | .dbgCtxRead => .dbgCtxRead p

/-- The die as a step finds it: nothing has left it yet, and its free values are fresh. -/
def MDie.start (d : MDie) : MDie := { d with out := [], free := d.free + 1 }

/-- The state after a step whose own effect leaves the die in `d`. -/
def State.after (s : State) (d : MDie) : State := { s with md := d.settle s.md }

/-! A packet on a die, whichever way it came: from a ring, a row, another node, or after waiting. -/

/-- The packet as the die that carries it out takes it: `FABRIC_COMMIT` is carried out on the root's own `SYSTEM` (R475). -/
def MDie.ownPkt (d : MDie) (op : Op) (p : Pkt) : Pkt :=
  if op = .fabricCommit then { p with target := mkHandle (hClass p.target) d.fab.node (hGen p.target) (hSlot p.target) } else p

/-- The tick it takes effect at, and whether its stamp is late (R48, R49); `now` for a packet row, whose reach is the tick in progress (log 40). -/
def MDie.takeTick (d : MDie) (now : Bool) (op : Op) (p : Pkt) : Nat × Bool :=
  d.effectTick now (d.targetPeriod (d.ownPkt op p).target) (d.ownPkt op p)

/-- Command level in force between this die and the node the packet comes from (R476). -/
def MDie.levelOf (d : MDie) (p : Pkt) : Nat := (d.pairLevels (if isRemoteClient p.client then p.client.toNat else d.fab.node)).2

/-- It passes checks 2 … 5 of R70 up to the node, its blocks are those its flags announce (R67), and this die carries it out. -/
def MDie.Reaches (d : MDie) (op : Op) (p : Pkt) : Prop :=
  pktNormal p = p ∧ pktHeadOk p = true ∧ 1 ≤ d.levelOf p ∧ pktLengthOk p op = true ∧ unknownClass p.target = false
    ∧ (if op = .fabricCommit then d.isRoot = true ∨ d.boot.stage = 0xF else d.isOwn p.target = true)

/-- The first of checks 5 … 12 that it fails on this die (R70), made against the state that the tick of its effect will find (log 41). -/
def MDie.takeBad (d : MDie) (now : Bool) (op : Op) (p : Pkt) : Bad :=
  (d.projected (d.takeTick now op p).1).ownBad op (d.ownPkt op p) p.client

/-- A packet that is no task passes every check (R70), with an action slot free for it and no packet of its queue before it (R85). -/
def MDie.Accepts (d : MDie) (now : Bool) (op : Op) (p : Pkt) : Prop :=
  d.Reaches op p ∧ p.task = none ∧ d.takeBad now op p = none ∧ d.slotFor p.client = true ∧ d.queueHeld (replyTo op.code p none) = false

/-- The die that the accepted command finds: the last motion command of an axis is noted (R172). -/
def MDie.noted (d : MDie) (op : Op) (p : Pkt) : MDie := d.noteMotion op (d.ownPkt op p).target

/-- The accepted command (R48, R53); a `MOVE_REL` keeps the base it has at acceptance (R172). -/
def MDie.actionOf (d : MDie) (now : Bool) (op : Op) (p : Pkt) (rt : ReplyTo) : Action :=
  let x := d.fixRel op (d.ownPkt op p)
  let b := d.noted op p
  { op := x.1, pkt := x.2.1, chained := x.2.2, rt := rt, charge := p.client, accepted := b.ns, effect := (d.takeTick now op p).1
    seq := b.rm.nextSeq, stamped := p.stamp.isSome, task := none, newSlot := if op = .objectCreate then b.nextSlot else none
    late := lateReply op || ownReply op, okLate := (d.takeTick now op p).2 }

/-- The result in the first reply to a command accepted for a tick ahead (R74): that of its effect, where it is not written later. -/
def MDie.aheadResult (d : MDie) (op : Op) (a : Action) : Result :=
  if a.late = true ∨ op = .lcChallenge ∨ op = .sysReset then noResult else ((d.projected a.effect).eff a a.effect).2

/-- The die once it has accepted the packet for a tick that has not begun. -/
def MDie.queued (d : MDie) (now : Bool) (op : Op) (p : Pkt) (rt : ReplyTo) : MDie :=
  let a := d.actionOf now op p rt
  (d.noted op p).enqueue a (d.aheadResult op a)

/-! A packet as a row. -/

/-- The ring of this die that the packet lies in, where it is one of a host of this lead die (R11, R59). -/
def MDie.ringOf (d : MDie) (p : Pkt) : Option Nat := if d.dieIndex = 0 then (hostOf p.client).map (fun h => queueKey h p.queue.toNat) else none

/-- The packet can be taken from its client (R584, R585), and its queue is free to fetch it: enabled and not halted, two reply records free,
no earlier packet of it waiting, no `FENCE` holding this one (R64, R83, R85, R98). -/
def Comes (p : Pkt) (s : State) : Prop :=
  s.md.takesPackets p = true ∧ s.md.knows p.client = true
    ∧ ∀ k, s.md.ringOf p = some k → s.md.queueRuns k = true ∧ s.md.canFetch k = true ∧ s.md.fenced k p = false
        ∧ s.md.queueHeld (replyTo 0 p none) = false

/-- It comes with a length that R66 allows. -/
def Arrives (p : Pkt) (s : State) : Prop := Comes p s ∧ 2 ≤ p.len.toNat ∧ p.len.toNat ≤ 128

/-- The die once the packet is in hand, and the number of its flight. -/
def packetGot (op : Op) (p : Pkt) (s : State) : MDie × Option Nat :=
  match s.md.ringOf p with
  | some k => s.md.start.fetched k op.code p false
  | none => (s.md.start, none)

def packetDie (op : Op) (p : Pkt) (s : State) : MDie := (packetGot op p s).1

/-- Where its replies go. -/
def packetReply (op : Op) (p : Pkt) (s : State) : ReplyTo := replyTo op.code p (packetGot op p s).2

/-- It comes to the die that carries it out. -/
def Reaches (op : Op) (p : Pkt) (s : State) : Prop := Arrives p s ∧ (packetDie op p s).Reaches op p

/-- It is accepted there. -/
def Accepts (op : Op) (p : Pkt) (s : State) : Prop := Arrives p s ∧ (packetDie op p s).Accepts true op p

/-- It is accepted, and the tick of its effect has begun (R48, R49, log 40). -/
def RunsNow (op : Op) (p : Pkt) (s : State) : Prop :=
  Accepts op p s ∧ ((packetDie op p s).takeTick true op p).1 ≤ (packetDie op p s).ns

/-- The accepted command. -/
def packetAction (op : Op) (p : Pkt) (s : State) : Action := (packetDie op p s).actionOf true op p (packetReply op p s)

/-- The die that its effect finds. -/
def packetBase (op : Op) (p : Pkt) (s : State) : MDie := (packetDie op p s).noted op p

/-- What the accepted command does at its tick: the die it leaves and the result its reply carries. -/
def packetEffect (op : Op) (p : Pkt) (s : State) : MDie × Result := (packetBase op p s).eff (packetAction op p s) (packetAction op p s).effect

/-- The same for one that acts at its acceptance too, before its effect: the result that its reply carries is the one given there, if any. -/
def notedEffect (op : Op) (p : Pkt) (s : State) : MDie × Result :=
  let a := packetAction op p s
  let x := (packetBase op p s).acceptNote a
  let y := x.1.eff a a.effect
  (y.1, x.2.getD y.2)

/-- The state after an accepted packet whose tick has begun, and whose own effect leaves the die and the result of `x`: the reply with that
result, both reservations released, and the axes of the tick follow (R74, R203). -/
def packetDone (op : Op) (p : Pkt) (s : State) (x : MDie × Result) : State :=
  let a := packetAction op p s
  s.after (((((x.1.reply a.rt (if a.okLate then .okLate else .ok) x.2 a.effect).release1 a.rt).release2 a.rt).returnPlace a.rt).follow x.1.ns)

/-- The record the Turnstile keeps of a task packet (R106, R110). -/
def taskOf (op : Op) (p : Pkt) (b : TaskBlock) (s : State) : TaskRec :=
  let d := packetDie op p s
  { op := op, pkt := d.ownPkt op p, rt := packetReply op p s, deps := b.deps.toNat, succs := (taskRefs b).map (fun r => d.succHandle r)
    st := if b.deps = 0 then .ready d.rm.nextReady else .waiting, intake := d.rm.nextSeq, doomed := false }

/-- A task packet that the Turnstile takes into slot `n`: it passes checks 1 … 9, its successors exist, and there is room for it (R105, R109). -/
def TaskFits (op : Op) (p : Pkt) (b : TaskBlock) (n : Nat) (s : State) : Prop :=
  let d := packetDie op p s
  Reaches op p s ∧ p.task = some b ∧ (∀ k st r, d.takeBad true op p = some (k, st, r) → 9 < k)
    ∧ d.succsBad (taskRefs b) = (d, none) ∧ d.taskRoom p.client (taskRefs b).length = true ∧ d.queueHeld (packetReply op p s) = false
    ∧ d.nextSlot = some n

/-- The state once it has taken it: the slot holds the task, and the reply is `QUEUED` with its handle and its tag (R106, R109). -/
def taskTaken (op : Op) (p : Pkt) (b : TaskBlock) (n : Nat) (s : State) : State :=
  let e := (packetDie op p s).occupy n (.task (taskOf op p b s))
  let x : MDie := { e with rm := { e.rm with nextSeq := e.rm.nextSeq + 1 } }
  let rt := packetReply op p s
  s.after (((x.reply rt .queued ⟨(x.handle n).setWidth 64, b.tag.setWidth 64⟩ x.ns).settled rt).returnPlace rt)

/-! The safety island. -/

/-- What holds of the island in every state (R419, R431, R434, R440, R442, R446): its parts are as many as the manual gives, codes lie in
their ranges, a function with a fault of its own, of its STO wires or of its brake is LOCKED, in FAULT both functions are LOCKED, before OPERATE both are in STO, without
supply it does not operate, and 64 log entries at most are held. -/
structure Island.Legal (i : Island) : Prop where
  fns : i.fns.length = 2
  pairs : i.pairs.length = 4
  edms : i.edms.length = 4
  log : i.log.length ≤ 64
  state : i.state ≤ 2
  codes : ∀ x ∈ i.fns, x.st ≤ 3
  locked : ∀ x ∈ i.fns, x.fault ≠ 0 ∨ x.stoFault = true ∨ x.brkFault ≠ 0 → x.st = 3
  fault : i.state = 2 → ∀ x ∈ i.fns, x.st = 3
  starting : i.state = 0 → ∀ x ∈ i.fns, x.st = 2
  off : i.powered = false → i.state = 0

/-! Byte memories. -/

/-- A firmware image written by a host is in the canonical form. -/
def FwImage.memOk : FwImage → Bool
  | .host m => m.wf
  | _ => true

/-- Every byte memory the die holds is in its canonical form: the SRAM, and the Almanac slots and firmware banks of its MRAM. -/
def MDie.memOk (d : MDie) : Bool :=
  d.mem.sram.wf && d.mram.slots.all (fun x => x.data.wf) && d.mram.banks.all (fun b => b.image.memOk)

end Sys2Proof.Machine
end

