-- ==== Sys2Proof/Certificates/Slice0/Obligations.lean ====
section
/-! DEFINITION. The statements for the provers: what the commands and events of the model do, rule by rule of the manual. A statement that rests
on a choice of the model names its log entry. -/

open Sys2Proof Sys2Proof.Machine

/-! ## The machine -/

/-- The rows whose cause lies at the safety island's own balls and clock. -/
def islandRow : Instr → Bool
  | .safetyTick _ | .safeTestPulse _ _ | .discrepancy _ | .ss1TimeElapsed _ | .safeResetFall _ | .resetStuck | .stoTestPulse _
  | .sbcSwitchTest _ _ | .brkPassPulse _ _ | .brakeTestInterval _ | .edmTimeExpiry _ | .configReread _ _ | .supplyLow | .safePowerOn _
  | .islandStop | .islandStartComplete _ _ _ => true
  | _ => false

/-- A step runs the command at the front of the queue with the queue's rest. -/
def Obligations.StepRunsFrontCommand : Prop :=
  ∀ (s : State) (c : Instr) (r : List Instr), s.pending = c :: r → step s = exec c { s with pending := r }

/-- The model's choice (log 43): with no command waiting, the next base tick begins, 4 ns after the last, and nothing but the time and the outputs
of the last step changes unless a sample tick falls into them; then the step is that tick. -/
def Obligations.IdleStepPassesBaseTick : Prop :=
  ∀ s : State, s.pending = [] →
    (s.md.ns + 4 < s.md.nextTick →
      let t := baseCeil (s.md.ns + 4)
      step s = .next { s with md := { s.md with time := ⟨t, 0⟩, upNs := s.md.upNs + (t - s.md.ns), out := [] } }
        ∧ t % 4 = 0 ∧ (s.md.ns % 4 = 0 → t = s.md.ns + 4))
    ∧ (s.md.nextTick ≤ s.md.ns + 4 → step s = .next (s.after s.md.start.sampleTick))

/-- Every command leads to a next state, whatever its operands and the state are, and leaves the queue as it found it. -/
def Obligations.EveryCommandLeadsOn : Prop :=
  ∀ (c : Instr) (s : State), ∃ t, exec c s = .next t ∧ t.pending = s.pending

/-- The state after reset, as far as the manual gives it: no command waits, the queues are closed at boot stage 0, nothing is accepted or held; each
fixed slot holds the object of R25 with generation 0, in the life state of R26; no other slot has been used; the host windows hold the reset
values of R592; the island is without supply until its own power-on. -/
def Obligations.ResetHoldsManualValues : Prop :=
  State.reset.pending = [] ∧ State.reset.md.boot.inReset = false ∧ State.reset.md.boot.stage = 0 ∧ State.reset.md.boot.ready = false
    ∧ State.reset.md.rm.actions = [] ∧ State.reset.md.rm.held = [] ∧ State.reset.md.mem.sram = []
    ∧ (∀ x ∈ State.reset.md.slots, x.1 < 256 ∧ x.2.gen = 0) ∧ State.reset.md.freed = []
    ∧ (∀ n < 256, (State.reset.md.obj? n).map Obj.cls = fixedClass n)
    ∧ (∀ n < 256, (State.reset.md.obj? n).map Obj.life = (fixedClass n).map (fun c =>
        if c = .system ∨ c = .time ∨ c = .safe then Life.enabled else Life.disabled))
    ∧ (∀ p : HostPort, let r := State.reset.md.rm.regs p
        r.q0En = false ∧ r.cmdBase = 0 ∧ r.cmdSize = 4096 ∧ r.rplBase = 0 ∧ r.rplSize = 32 ∧ r.idxAddr = 0 ∧ r.pba = 0
          ∧ r.vecRpl = List.replicate 8 0x80000000
          ∧ r.evr.length = 8 ∧ ∀ e ∈ r.evr, e.base = 0 ∧ e.size = 0 ∧ e.idxAddr = 0 ∧ e.lost = 0 ∧ e.msgOut = false ∧ e.vec = 0x80000000)
    ∧ State.reset.isl.powered = false

/-! ## Command packets (chapters 02 … 04) -/

/-- R48, R49, R70, R74, R85: a packet that passes its checks on the die that carries it out is accepted. Where the tick of its effect has begun, its
row carries it out: the reply with the result of its effect, both reservations released, and the axes of the tick follow (log 40). Where
its stamp lies ahead, it takes an action slot for that tick.

R49, R53: a command accepted for a tick ahead holds an action slot, and nothing of its effect happens before: where its target is no axis, link
or path, whose plans take it into account (R202), no object is touched but the slot of one to be created. A transmit buffer, a
filter list, a life-cycle challenge and the dooming of tasks are what acceptance itself changes (R117, R529, R535, R568). -/
def Obligations.AcceptedPacketRuns : Prop :=
  (∀ (op : Op) (p : Pkt) (s : State), Accepts op p s →
    (RunsNow op p s → exec (op.row p) s = .next (s.after ((packetBase op p s).enact (packetAction op p s))))
    ∧ (RunsNow op p s → op ∉ [Op.sysReset, .journalSync, .canTx, .canFiltSwitch, .lcChallenge, .lcAdvance, .fabricCommit, .taskCancel, .taskCancelAll] →
        exec (op.row p) s = .next (packetDone op p s (packetEffect op p s)))
    ∧ ((packetDie op p s).ns < (packetAction op p s).effect →
        exec (op.row p) s = .next (s.after ((packetDie op p s).queued true op p (packetReply op p s)))))
  ∧ (∀ (d : MDie) (a : Action) (res : Result),
    (∀ n o, d.find a.pkt.target = some (n, o) → o.cls ≠ .axis ∧ o.cls ≠ .gear ∧ o.cls ≠ .path) → a.newSlot = none →
    a.op ∉ [Op.canTx, .canFiltSwitch, .lcChallenge, .lcAdvance, .fabricCommit, .taskCancel, .taskCancelAll] →
    (hostOf a.rt.client).isSome = true → d.dieIndex = 0 →
    let x := d.enqueue a res
    x.rm.actions = d.rm.actions ++ [a] ∧ x.rm.nextSeq = d.rm.nextSeq + 1 ∧ x.slots = d.slots ∧ x.mram = d.mram ∧ x.fab = d.fab ∧ x.mer = d.mer
      ∧ x.field = d.field ∧ x.mem.challenge = d.mem.challenge ∧ x.tick = d.tick)

/-- R106, R109, R110: a task packet that passes checks 1 … 9 and whose successors exist is taken by the Turnstile: it gets a free slot and
the reply `QUEUED` with its handle and its tag, and it is ready at once when no dependence is left: so does a `TASK_WAIT`, which is a task in
every case (R120). One with a successor that fails is refused with its index, and one without room waits. -/
def Obligations.TaskPacketTaken : Prop :=
  ∀ (op : Op) (p : Pkt) (s : State) (b : TaskBlock),
    (∀ n, TaskFits op p b n s → exec (op.row p) s = .next (taskTaken op p b n s))
    ∧ (∀ n, TaskFits .taskWait p b n s → exec (.taskWait p) s = .next (taskTaken .taskWait p b n s))
    ∧ (Reaches op p s → p.task = some b →
        let d := packetDie op p s
        let rt := packetReply op p s
        (∀ k st r, d.takeBad true op p = some (k, st, r) → 9 < k) →
        (∀ x st i, d.succsBad (taskRefs b) = (x, some (st, i)) →
          exec (op.row p) s = .next (s.after (x.turnAway rt st ⟨0, BitVec.ofNat 64 i⟩)))
        ∧ (d.succsBad (taskRefs b) = (d, none) → d.taskRoom p.client (taskRefs b).length = false → exec (op.row p) s = .next (s.after
            { s.md.start with rm := { s.md.rm with held := s.md.rm.held ++
                [{ op := op, pkt := p, rt := replyTo op.code p none, ring := if (s.md.ringOf p).isSome then 2 else 0 }] } })))

/-- R29, R70, R87: the first check a packet fails gives the status of its refusal, in the order of R70: length, header, level, layout, class of the
handle, and then the checks of the die that carries it out. A packet for another node is forwarded where the node is reachable and its window
has a place, and refused `UNREACHABLE` where it is not reachable. A packet that passes while no action slot is free waits (R85), and so does
one whose `FENCE` holds it, or whose reply ring has fewer than two free records (R64, R83); nothing is taken from a queue that does not run. -/
def Obligations.PacketsTurnedAway : Prop :=
  ∀ (op : Op) (p : Pkt) (s : State), s.md.takesPackets p = true → s.md.knows p.client = true →
    let d := packetDie op p s
    let rt := packetReply op p s
    let waits (k : Nat) : MDie :=
      { s.md.start with rm := { s.md.rm with held := s.md.rm.held ++ [{ op := op, pkt := p, rt := replyTo op.code p none, ring := k }] } }
    (∀ k, s.md.ringOf p = some k → s.md.queueRuns k = false → exec (op.row p) s = .next (s.after s.md.start))
    ∧ (∀ k, s.md.ringOf p = some k → s.md.queueRuns k = true → (s.md.fenced k p = true ∨ s.md.canFetch k = false) →
        exec (op.row p) s = .next (s.after (waits 2)))
    ∧ (Comes p s → p.len.toNat < 2 ∨ 128 < p.len.toNat → exec (op.row p) s = .next (s.after (d.badLen op p (packetGot op p s).2)))
    ∧ (Arrives p s → pktNormal p = p →
        (pktHeadOk p = false → exec (op.row p) s = .next (s.after (d.turnAway rt .badParam noResult)))
        ∧ (pktHeadOk p = true → d.levelOf p < 1 → exec (op.row p) s = .next (s.after (d.turnAway rt .levelUnsupported noResult)))
        ∧ (pktHeadOk p = true → 1 ≤ d.levelOf p → pktLengthOk p op = false →
            exec (op.row p) s = .next (s.after (d.turnAway rt .badLength noResult)))
        ∧ (pktHeadOk p = true → 1 ≤ d.levelOf p → pktLengthOk p op = true → unknownClass p.target = true →
            exec (op.row p) s = .next (s.after (d.turnAway rt .badHandle noResult)))
        ∧ (pktHeadOk p = true → 1 ≤ d.levelOf p → pktLengthOk p op = true → unknownClass p.target = false → op ≠ .fabricCommit →
            d.isOwn p.target = false →
            (d.reachable (hNode p.target) = false → exec (op.row p) s =
              .next (s.after ((d.targetUnreachable (hNode p.target) p.client).turnAway rt .unreachable noResult)))
            ∧ (d.reachable (hNode p.target) = true → d.e2eFree (hNode p.target) = true →
              let xtag := rt.queue + 8 * (if isRemoteClient p.client then rt.origin else originOf p.client)
              exec (op.row p) s = .next (s.after (((d.e2eTake (hNode p.target)).send
                (d.packetTo 3 (hNode p.target) xtag 0 (pktEncode p op.code))).markForwarded rt (hNode p.target))))))
    ∧ (Reaches op p s → ∀ k st r, d.takeBad true op p = some (k, st, r) → (p.task = none ∨ k ≤ 9) →
        exec (op.row p) s = .next (s.after ((d.refusalNote op (d.ownPkt op p) r).turnAway rt st r)))
    ∧ (Reaches op p s → p.task = none → d.takeBad true op p = none → d.slotFor p.client = false →
        exec (op.row p) s = .next (s.after (waits (if (s.md.ringOf p).isSome then 2 else 0))))

/-- R29: a refused command has no effect: no object, no accepted command, and nothing of the fabric, of network time, of the retained memory and of the
field changes; a failed `PROF_COMMIT`, a rejected `LC_ADVANCE` and a failed list check alone leave what their rules give them. -/
def Obligations.RefusedCommandHasNoEffect : Prop :=
  ∀ (d : MDie) (rt : ReplyTo) (st : Status) (r : Result) (op : Op) (p : Pkt),
    let x := d.turnAway rt st r
    (x.slots = d.slots ∧ x.freed = d.freed ∧ x.rm.actions = d.rm.actions ∧ x.mram = d.mram ∧ x.fab = d.fab ∧ x.mer = d.mer ∧ x.field = d.field
      ∧ x.dma = d.dma ∧ x.engines = d.engines ∧ x.tick = d.tick)
    ∧ (op ≠ .profCommit → op ≠ .lcAdvance → op ≠ .objectEnable → d.refusalNote op p r = d)

/-- R48, R49: the tick a command takes effect at. An unstamped one, accepted at A, at its reach, the first tick of its class that begins at least
2 µs after A; a stamped one at the first tick at or after its stamp, with `OK`, unless the stamp lies before A or that tick before the
reach: then at the reach, with `OK_LATE`. For a packet row the reach is the tick in progress (log 40). -/
def Obligations.TickOfEffect : Prop :=
  ∀ (d : MDie) (per : Nat) (p : Pkt), 0 < per →
    let A := d.ns * 65536 + d.time.frac.toNat
    let reach := (d.effectTick false per { p with stamp := none }).1
    (reach % per = 0 ∧ A + 2000 * 65536 ≤ reach * 65536 ∧ ∀ t, t % per = 0 → A + 2000 * 65536 ≤ t * 65536 → reach ≤ t)
    ∧ (d.effectTick false per { p with stamp := none }).2 = false
    ∧ (let now := d.effectTick true per { p with stamp := none }
       now.2 = false ∧ now.1 % per = 0 ∧ now.1 ≤ d.ns ∧ d.ns < now.1 + per)
    ∧ (∀ b : StampBlock, let S := b.secs.toNat * 1000000000 + b.nanos.toNat
        let e := d.effectTick false per { p with stamp := some b }
        (S * 65536 < A → e = (reach, true))
        ∧ (S + per ≤ reach → e = (reach, true))
        ∧ (A ≤ S * 65536 → reach ≤ S → e.2 = false ∧ e.1 % per = 0 ∧ S ≤ e.1 ∧ e.1 < S + per))

/-- R66, R67, R68, R102: what lies in a packet's bytes is what it is taken for: decoding the bytes of a packet gives it back, for every opcode
and every value of its fields, whichever blocks it carries. -/
def Obligations.PacketBytesReadBack : Prop :=
  ∀ (op : Op) (p : Pkt), p.task.isSome = taskFlag p → p.stamp.isSome = stampFlag p →
    (∀ t, p.task = some t → t.succs.length = 4 ∧ t.ext.length = 2 * t.next.toNat) →
    pktDecode p.client p.origin.toNat p.queue.toNat (pktEncode p op.code) = (op.code, p)

/-! ## Replies, classes, handles -/

/-- R75: without `ACK_REQ` a record is written only for a status of 0x0010 or above; with it, for every status. -/
def Obligations.ReplyRecordOnlyWhenDue : Prop :=
  ∀ (d : MDie) (rt : ReplyTo) (st : Status) (r : Result) (ns : Nat),
    (replyDue rt st = true ↔ rt.ackReq = true ∨ 0x10 ≤ st.code)
    ∧ (st = .ok ∨ st = .okLate ∨ st = .queued ↔ st.code < 0x10)
    ∧ (d.dieIndex = 0 → (hostOf rt.client).isSome = true → replyDue rt st = false → d.reply rt st r ns = d)
    ∧ (d.dieIndex = 0 → (hostOf rt.client).isSome = true → replyDue rt st = true →
        .reply rt.client rt.origin rt.queue (replyBytes rt st r ns) ∈ (d.reply rt st r ns).out)

/-- R42: the periods of the sample rate classes. -/
def Obligations.SampleClassPeriods : Prop :=
  (classPeriod 0 = 16000 ∧ classPeriod 1 = 32000 ∧ classPeriod 2 = 64000 ∧ classPeriod 3 = 128000 ∧ classPeriod 4 = 256000)
    ∧ ∀ c, c ≤ 4 → classPeriod c = 4 * (4000 * 2 ^ c)

/-- R22: a handle's fields are where the manual puts them, and it is made of nothing else. -/
def Obligations.HandleFields : Prop :=
  (∀ cls node gen slot, cls < 32 → node < 4096 → gen < 8 → slot < 4096 →
    let h := mkHandle cls node gen slot
    h.toNat = cls * 2 ^ 27 + node * 2 ^ 15 + gen * 2 ^ 12 + slot ∧ hClass h = cls ∧ hNode h = node ∧ hGen h = gen ∧ hSlot h = slot)
  ∧ ∀ h : U32, mkHandle (hClass h) (hNode h) (hGen h) (hSlot h) = h

/-! ## What commands do at their tick -/

/-- R28, R30, R88, R89, R92, R93, R95: `NOP` does nothing. An object in CREATED or DISABLED is enabled, one in ENABLED enters DRAINING for the client
that disables it; in any other state neither changes anything. `OBJECT_DESTROY` frees the slot, its generation one further, at the end of
the free list, and leaves every other slot. `PARAM_GET` answers the value with its ID and index and changes nothing; `PARAM_SET` stores
the value, or clears the bits written as 1 of a W1C parameter, answers it, and leaves every other slot. A created object has
the handle the reply names, its class, its owner, and is in CREATED.

R48, R70, R74, R85: every packet command of objects and parameters completes with its own effect, on every state and packet that pass the checks of R70 where the
tick of the effect has begun: both reservations are released, the reply carries the result, and the axes of the tick follow. -/
def Obligations.GeneralCommandEffects : Prop :=
  (∀ (d : MDie) (a : Action) (t : Nat),
    let b := a.pkt.body
    (a.op = .nop ∨ a.op = .taskWait → d.eff a t = (d, noResult))
    ∧ (∀ n c x, a.op = .objectCreate → a.newSlot = some n → classOfCode (rdU b 0 1) = some c → rdU b 2 2 = 0 → c ≠ .cam →
        d.template a.pkt.client c (rdU b 4 4) = some x →
        let y := d.eff a t
        y.1.obj? n = some (newObj (rdU b 4 4) a.pkt.client a.charge a.pkt.origin.toNat x.1 x.2) ∧ (∀ m, m ≠ n → y.1.slot? m = d.slot? m)
          ∧ y.2 = ⟨(y.1.handle n).setWidth 64, 0⟩)
    ∧ (∀ n o, d.find a.pkt.target = some (n, o) →
        (a.op = .objectEnable →
          (o.life = .created ∨ o.life = .disabled → d.eff a t = ((d.setLife n .enabled).classEnableDo n t o.data, noResult))
          ∧ (o.life = .enabled ∨ o.life = .draining → d.eff a t = (d, noResult)))
        ∧ (a.op = .objectDisable →
          (o.life = .enabled → d.eff a t = ((d.toDraining n 0 a.pkt.client).classDrain n t o.data, noResult))
          ∧ (o.life ≠ .enabled → d.eff a t = (d, noResult)))
        ∧ (a.op = .objectDestroy → 256 ≤ n → o.life = .created ∨ o.life = .disabled →
          let x := (d.eff a t).1
          x.slot? n = some ⟨(hGen a.pkt.target + 1) % 8, .free⟩ ∧ x.freed = d.freed ++ [n] ∧ ∀ m, m ≠ n → x.slot? m = d.slot? m)
        ∧ (a.op = .paramGet → rdU b 0 2 = Par.objectEvtRoute ∨ rdU b 0 2 = Par.objectEvtMask → rdU b 2 2 = 0 →
          d.eff a t = (d, ⟨o.params.get (rdU b 0 2), BitVec.ofNat 64 (rdU b 0 2 + 65536 * rdU b 2 2)⟩))
        ∧ (a.op = .paramGet → (rdU b 0 2 = Par.objectState → (d.eff a t).2.r0 = BitVec.ofNat 64 o.life.code)
          ∧ (rdU b 0 2 = Par.objectOwner → (d.eff a t).2.r0 = o.owner.setWidth 64)
          ∧ (d.eff a t).2.r1 = BitVec.ofNat 64 (rdU b 0 2 + 65536 * rdU b 2 2))
        ∧ (∀ r, a.op = .paramSet → rowOf o.cls (rdU b 0 2) = some r → o.cls = .canmb ∨ o.cls = .capt ∨ o.cls = .evt ∨ o.cls = .trace ∨ o.cls = .dmac →
          let v := BitVec.ofNat 64 (rdU b 8 8)
          let x := d.eff a t
          (r.access = .rw ∨ r.access = .rwl → x.1.obj? n = some { o with params := o.params.set (rdU b 0 2) (rdU b 2 2) v })
          ∧ (r.access = .w1c → let w := o.params.get (rdU b 0 2) (rdU b 2 2) &&& ~~~v
              x.1.obj? n = some { o with params := o.params.set (rdU b 0 2) (rdU b 2 2) w })
          ∧ x.2 = ⟨v, 0⟩ ∧ ∀ m, m ≠ n → x.1.slot? m = d.slot? m)))
  ∧ (∀ (p : Pkt) (s : State),
    (RunsNow .nop p s → exec (.nop p) s = .next (packetDone .nop p s (packetEffect .nop p s)))
    ∧ (RunsNow .objectCreate p s → exec (.objectCreate p) s = .next (packetDone .objectCreate p s (packetEffect .objectCreate p s)))
    ∧ (RunsNow .objectDestroy p s → exec (.objectDestroy p) s = .next (packetDone .objectDestroy p s (packetEffect .objectDestroy p s)))
    ∧ (RunsNow .objectEnable p s → exec (.objectEnable p) s = .next (packetDone .objectEnable p s (packetEffect .objectEnable p s)))
    ∧ (RunsNow .objectDisable p s → exec (.objectDisable p) s = .next (packetDone .objectDisable p s (packetEffect .objectDisable p s)))
    ∧ (RunsNow .paramGet p s → exec (.paramGet p) s = .next (packetDone .paramGet p s (packetEffect .paramGet p s)))
    ∧ (RunsNow .paramSet p s → exec (.paramSet p) s = .next (packetDone .paramSet p s (packetEffect .paramSet p s)))
    ∧ (RunsNow .paramSetMulti p s → exec (.paramSetMulti p) s = .next (packetDone .paramSetMulti p s (packetEffect .paramSetMulti p s))))

/-- R153, R160, R171, R190, R195, R200, R247, R252, R269: commands of feedback channels, axes, paths, compare events and captures. `FBK_SET_POS` moves the
channel's offset and the axes bound to it; `FBK_REF_CANCEL` ends a reference and answers whether one was armed; samples are read and change
nothing; a motion command replans its axis from its sample; a path takes a segment while it holds fewer than 64; a disarmed compare
event places no further edge; a capture is armed.

R48, R70, R74, R85: every packet command of feedback, axes, paths, links, compare events, captures and line clocks completes with its own effect, on every state and packet that pass the checks of R70 where the
tick of the effect has begun: both reservations are released, the reply carries the result, and the axes of the tick follow. -/
def Obligations.MotionCommandEffects : Prop :=
  (∀ (d : MDie) (a : Action) (t n : Nat) (o : Obj), d.find a.pkt.target = some (n, o) →
    let b := a.pkt.body
    (∀ f, o.data = .fbk f → o.life = .enabled →
      (a.op = .fbkSetState → d.eff a t = (let r := fbkSetState f (chStateOf (rdU b 0 1)) t
        ((d.setData n (.fbk r.1)).postAll n r.2, noResult)))
      ∧ (a.op = .fbkSetPos → d.eff a t = (let delta := posAt b 0 - f.sample.pos
        ((d.setData n (.fbk (moveOffset f delta))).rollback n delta, ⟨image64 (counts delta), BitVec.ofNat 64 (delta % oneCount).toNat⟩)))
      ∧ (a.op = .fbkRefIndex → d.eff a t =
        (d.setData n (.fbk { f with mon := { f.mon with ref := some (rdI b 0 8 * oneCount, rdU b 8 1, t) } }), noResult))
      ∧ (a.op = .fbkRefCancel → d.eff a t =
        (d.setData n (.fbk { f with mon := { f.mon with ref := none } }), ⟨if f.mon.ref.isSome then 1 else 0, 0⟩))
      ∧ (a.op = .fbkGetSample → d.eff a t =
        (d, ⟨image64 (counts f.sample.pos), BitVec.ofNat 64 ((f.sample.pos % oneCount).toNat + f.sample.status * 2 ^ 32)⟩)))
    ∧ (∀ x c, o.data = .axis x → a.motion = some c → a.op ≠ .objectDisable →
      d.eff a t = (d.axisDo n t c, noResult)
      ∧ (o.life = .enabled → takesCmd x.core.mode c = true → x.core.mode ≠ .geared →
          d.eff a t = (d.axisTake n t 1 x (axisCore o.params x t c), noResult))
      ∧ (∀ q, o.life = .enabled → c = .stop q → x.core.mode = .geared → d.eff a t =
          ((d.axisTake n t 1 { x with ra := x.ra.unlink } (axisCore o.params x t c)).gearRelease n (if q then 2 else 1) t, noResult))
      ∧ (takesCmd x.core.mode c = false → d.eff a t = (d, noResult)))
    ∧ (∀ x, o.data = .axis x → a.op = .axisGetSample → d.eff a t = (d, d.axisSample n o x))
    ∧ (∀ x, o.data = .path x → o.life = .enabled →
      (a.op = .pathLine ∨ a.op = .pathArc → x.queued < 64 → d.pathBlocked o = false → d.eff a t =
        ((d.setData n (.path (x.append o.params (d.memberLims o) (pathSeg a.op o.params b (d.segStart o x)) t))).noteMembers o, noResult))
      ∧ (a.op = .pathFlush → x.mode ≠ 1 → d.eff a t = (d.setData n (.path { x with next := [] }), ⟨BitVec.ofNat 64 x.next.length, 0⟩))
      ∧ (a.op = .stop ∨ a.op = .stopQuick → d.eff a t = (d.pathStop n t (a.op == .stopQuick), noResult)))
    ∧ (∀ g, o.data = .gear g → o.life = .enabled → a.op = .gearCamSwitch → d.eff a t =
        ((d.setData n (.gear { g with camArmed := some (BitVec.ofNat 32 (rdU b 0 4)) })).noteSlave o, noResult))
    ∧ (∀ g, o.data = .gear g → o.life = .enabled → g.engaged = false →
      (a.op = .gearShift → d.eff a t = ((d.setData n (.gear { g with
          heldShift := some (((g.heldShift.map (fun x => x.1)).getD 0) + posAt b 0, rdU b 16 8 * 2 ^ 32) })).noteSlave o, noResult))
      ∧ (a.op = .gearRatio →
        let c : RatioChange := { pos := rdI b 0 8 * oneCount, num := rdI b 8 4, den := rdU b 12 4, blend := rdU b 16 8 * 2 ^ 32
                                 dir := rdU b 24 1 % 4, immediate := bitOf (rdU b 24 1) 2, late := false, waits := none }
        d.eff a t = ((d.setData n (.gear { g with heldRatio := some c })).noteSlave o, noResult)))
    ∧ (∀ c, o.data = .evt c → o.life = .enabled →
      (a.op = .evtDisarm → ∃ r, d.eff a t = (d.setData n (.evt { c with st := 0, placed := [] }), r))
      ∧ (a.op = .evtArm → d.eff a t = (d.evtArm n t b, noResult)))
    ∧ (∀ c, o.data = .capt c → o.life = .enabled → a.op = .captArm → d.eff a t = (d.setData n (.capt { c with armed := true }), noResult))
    ∧ (∀ l, o.data = .lclk l → o.life = .enabled →
      (a.op = .lclkArm → d.eff a t = ((d.setData n (.lclk (l.arm o.params (posAt b 0) (rdU b 12 4) (d.srcSample (o.params.h Par.lclkSource) t).p t))).lclkPlace
          n (max t d.ns) 4, noResult))
      ∧ (a.op = .lclkReg → d.eff a t = (d.lclkRegDo n t b, noResult))))
  ∧ (∀ (p : Pkt) (s : State),
    (RunsNow .fbkSetState p s → exec (.fbkSetState p) s = .next (packetDone .fbkSetState p s (packetEffect .fbkSetState p s)))
    ∧ (RunsNow .fbkSetPos p s → exec (.fbkSetPos p) s = .next (packetDone .fbkSetPos p s (packetEffect .fbkSetPos p s)))
    ∧ (RunsNow .fbkRefIndex p s → exec (.fbkRefIndex p) s = .next (packetDone .fbkRefIndex p s (packetEffect .fbkRefIndex p s)))
    ∧ (RunsNow .fbkRefCancel p s → exec (.fbkRefCancel p) s = .next (packetDone .fbkRefCancel p s (packetEffect .fbkRefCancel p s)))
    ∧ (RunsNow .fbkGetSample p s → exec (.fbkGetSample p) s = .next (packetDone .fbkGetSample p s (packetEffect .fbkGetSample p s)))
    ∧ (RunsNow .moveAbs p s → exec (.moveAbs p) s = .next (packetDone .moveAbs p s (packetEffect .moveAbs p s)))
    ∧ (RunsNow .moveRel p s → exec (.moveRel p) s = .next (packetDone .moveRel p s (packetEffect .moveRel p s)))
    ∧ (RunsNow .moveVel p s → exec (.moveVel p) s = .next (packetDone .moveVel p s (packetEffect .moveVel p s)))
    ∧ (RunsNow .moveHold p s → exec (.moveHold p) s = .next (packetDone .moveHold p s (packetEffect .moveHold p s)))
    ∧ (RunsNow .stop p s → exec (.stop p) s = .next (packetDone .stop p s (packetEffect .stop p s)))
    ∧ (RunsNow .stopQuick p s → exec (.stopQuick p) s = .next (packetDone .stopQuick p s (packetEffect .stopQuick p s)))
    ∧ (RunsNow .axisGetSample p s → exec (.axisGetSample p) s = .next (packetDone .axisGetSample p s (packetEffect .axisGetSample p s)))
    ∧ (RunsNow .pathLine p s → exec (.pathLine p) s = .next (packetDone .pathLine p s (packetEffect .pathLine p s)))
    ∧ (RunsNow .pathArc p s → exec (.pathArc p) s = .next (packetDone .pathArc p s (packetEffect .pathArc p s)))
    ∧ (RunsNow .pathFlush p s → exec (.pathFlush p) s = .next (packetDone .pathFlush p s (packetEffect .pathFlush p s)))
    ∧ (RunsNow .gearRatio p s → exec (.gearRatio p) s = .next (packetDone .gearRatio p s (packetEffect .gearRatio p s)))
    ∧ (RunsNow .gearCamSwitch p s → exec (.gearCamSwitch p) s = .next (packetDone .gearCamSwitch p s (packetEffect .gearCamSwitch p s)))
    ∧ (RunsNow .gearShift p s → exec (.gearShift p) s = .next (packetDone .gearShift p s (packetEffect .gearShift p s)))
    ∧ (RunsNow .evtArm p s → exec (.evtArm p) s = .next (packetDone .evtArm p s (packetEffect .evtArm p s)))
    ∧ (RunsNow .evtDisarm p s → exec (.evtDisarm p) s = .next (packetDone .evtDisarm p s (packetEffect .evtDisarm p s)))
    ∧ (RunsNow .captArm p s → exec (.captArm p) s = .next (packetDone .captArm p s (packetEffect .captArm p s)))
    ∧ (RunsNow .lclkArm p s → exec (.lclkArm p) s = .next (packetDone .lclkArm p s (packetEffect .lclkArm p s)))
    ∧ (RunsNow .lclkReg p s → exec (.lclkReg p) s = .next (packetDone .lclkReg p s (packetEffect .lclkReg p s))))

/-- R286 … R288, R295, R326, R331, R334, R352, R361, R392, R408, R446: commands of loop groups, traces, PWM groups, drive lanes, field channels and safety
objects. A coefficient write goes to the standby bank of its section, a swap exchanges the banks; a taken flag is cleared; a step list
changes in DISABLED alone; a trace is armed, and stops with cause 3; a forced pair keeps its level until it is released; a stage
reset is asked of the lane; reads change nothing.

R48, R70, R74, R85: every packet command of loop groups, traces, PWM groups, lanes, field channels and safety logs completes with its own effect, on every state and packet that pass the checks of R70 where the
tick of the effect has begun: both reservations are released, the reply carries the result, and the axes of the tick follow. -/
def Obligations.DriveCommandEffects : Prop :=
  (∀ (d : MDie) (a : Action) (t n : Nat) (o : Obj), d.find a.pkt.target = some (n, o) →
    let b := a.pkt.body
    (∀ g, o.data = .lgrp g →
      (a.op = .lgrpCoefWrite → d.eff a t = (d.setData n (.lgrp (g.coefWrite (rdU b 0 1) (rdU b 4 4) ((b.drop 8).take (rdU b 2 2)))), noResult))
      ∧ (a.op = .lgrpBankSwap → o.life = .enabled ∨ o.life = .draining → d.eff a t =
          (d.setData n (.lgrp { g with active := 1 - g.active, swapNow := true }), ⟨BitVec.ofNat 64 (1 - g.active), 0⟩))
      ∧ (a.op = .lgrpBankSwap → o.life = .created ∨ o.life = .disabled → d.eff a t =
          ((d.setData n (.lgrp { g with active := 1 - g.active, swapNow := false })).post n (report Evt.bankSwapped t (d8 (1 - g.active) ++ [0, 0])),
            ⟨BitVec.ofNat 64 (1 - g.active), 0⟩))
      ∧ (a.op = .lgrpResetState → o.life = .enabled → d.eff a t =
          (d.setData n (.lgrp (g.resetState (bitOf (rdU b 0 1) 0) (bitOf (rdU b 0 1) 1) (bitOf (rdU b 0 1) 2))), noResult))
      ∧ (a.op = .lgrpTakeFlags → g.gateTick ≠ some t → d.eff a t =
          (d.setData n (.lgrp { g with satFlags := g.satFlags - (g.satFlags &&& g.satFlags), satStart := 0 }), ⟨BitVec.ofNat 64 g.satFlags, 0⟩))
      ∧ (a.op = .lgrpStepWrite → o.life = .enabled ∨ o.life = .draining → d.eff a t = (d, noResult))
      ∧ (a.op = .lgrpStepWrite → o.life = .created ∨ o.life = .disabled → rdU b 0 1 = 0 →
          let new := (List.range (rdU b 2 2 / 8)).map (fun i => BitVec.ofNat 64 (rdU b (8 + 8 * i) 8))
          d.eff a t = (d.setData n (.lgrp { g with inner := { g.inner with steps := writeSteps g.inner.steps (rdU b 4 4 / 8) new } }), noResult))
      ∧ (a.op = .lgrpStepRead → (d.eff a t).1 = d))
    ∧ (∀ x, o.data = .trace x →
      (a.op = .traceArm → o.life = .enabled → d.eff a t = (d.setData n (.trace x.arm), noResult))
      ∧ (a.op = .traceStop → d.eff a t = ((d.setData n (.trace (x.halt t 3).1)).postAll n (x.halt t 3).2, ⟨BitVec.ofNat 64 ((x.halt t 3).1.writeIdx % 2 ^ 32), 0⟩))
      ∧ (a.op = .traceRead → (d.eff a t).1 = d))
    ∧ (∀ g, o.data = .pwmg g → o.life = .enabled →
      (a.op = .pwmLoadAll → d.eff a t = (d.setData n (.pwmg (g.loadAll 0)), noResult))
      ∧ (a.op = .pwmForce →
          let v := if bitOf (rdU b 3 1) 0 then none else some (rdU b 2 1)
          d.eff a t = (d.setData n (.pwmg { g with force := (pairsOf (rdU b 0 2)).foldl (fun l i => l.set i v) g.force }), noResult))
      ∧ (a.op = .pwmWrite → bitOf (rdU b 2 1) 0 = false → bitOf (rdU b 2 1) 1 = true → rdU b 0 2 = 0 →
          d.eff a t = (d.pwmShadow n t [(Par.pwmgPeriod, 0, BitVec.ofNat 64 (rdU b 4 2))], noResult)))
    ∧ (∀ l, o.data = .dlane l →
      (a.op = .dlaneStageReset → d.eff a t = (d.setData n (.dlane { l with lctrl := l.lctrl ||| rdU b 0 1 }), noResult))
      ∧ (a.op = .dlaneGetUplink → d.eff a t = (d, l.uplinkWords (rdU b 0 1))))
    ∧ (∀ k ch, o.data = .fio k → o.life = .enabled → a.op = .fioReset → d.field.chans[n - 32]? = some ch → d.obj? (32 + (n - 32)) = some o →
        d.eff a t = (d.setChan (n - 32) ch.reset, noResult))
    ∧ (o.data = .system → a.op = .fioReadAll → d.eff a t = (d, d.fioAll))
    ∧ (o.data = .system → a.op = .fioWriteMask → rdU b 0 4 = 0 → d.eff a t = (d, noResult))
    ∧ (∀ k, o.data = .safe k → a.op = .safeReadLog → d.eff a t = (d, d.safeLog b)))
  ∧ (∀ (p : Pkt) (s : State),
    (RunsNow .lgrpCoefWrite p s → exec (.lgrpCoefWrite p) s = .next (packetDone .lgrpCoefWrite p s (packetEffect .lgrpCoefWrite p s)))
    ∧ (RunsNow .lgrpBankSwap p s → exec (.lgrpBankSwap p) s = .next (packetDone .lgrpBankSwap p s (packetEffect .lgrpBankSwap p s)))
    ∧ (RunsNow .lgrpResetState p s → exec (.lgrpResetState p) s = .next (packetDone .lgrpResetState p s (packetEffect .lgrpResetState p s)))
    ∧ (RunsNow .lgrpTakeFlags p s → exec (.lgrpTakeFlags p) s = .next (packetDone .lgrpTakeFlags p s (packetEffect .lgrpTakeFlags p s)))
    ∧ (RunsNow .lgrpStepWrite p s → exec (.lgrpStepWrite p) s = .next (packetDone .lgrpStepWrite p s (packetEffect .lgrpStepWrite p s)))
    ∧ (RunsNow .lgrpStepRead p s → exec (.lgrpStepRead p) s = .next (packetDone .lgrpStepRead p s (packetEffect .lgrpStepRead p s)))
    ∧ (RunsNow .traceArm p s → exec (.traceArm p) s = .next (packetDone .traceArm p s (packetEffect .traceArm p s)))
    ∧ (RunsNow .traceStop p s → exec (.traceStop p) s = .next (packetDone .traceStop p s (packetEffect .traceStop p s)))
    ∧ (RunsNow .traceRead p s → exec (.traceRead p) s = .next (packetDone .traceRead p s (packetEffect .traceRead p s)))
    ∧ (RunsNow .pwmWrite p s → exec (.pwmWrite p) s = .next (packetDone .pwmWrite p s (packetEffect .pwmWrite p s)))
    ∧ (RunsNow .pwmLoadAll p s → exec (.pwmLoadAll p) s = .next (packetDone .pwmLoadAll p s (packetEffect .pwmLoadAll p s)))
    ∧ (RunsNow .pwmForce p s → exec (.pwmForce p) s = .next (packetDone .pwmForce p s (packetEffect .pwmForce p s)))
    ∧ (RunsNow .dlaneStageReset p s → exec (.dlaneStageReset p) s = .next (packetDone .dlaneStageReset p s (packetEffect .dlaneStageReset p s)))
    ∧ (RunsNow .dlaneGetUplink p s → exec (.dlaneGetUplink p) s = .next (packetDone .dlaneGetUplink p s (packetEffect .dlaneGetUplink p s)))
    ∧ (RunsNow .fioWriteMask p s → exec (.fioWriteMask p) s = .next (packetDone .fioWriteMask p s (packetEffect .fioWriteMask p s)))
    ∧ (RunsNow .fioReset p s → exec (.fioReset p) s = .next (packetDone .fioReset p s (packetEffect .fioReset p s)))
    ∧ (RunsNow .fioReadAll p s → exec (.fioReadAll p) s = .next (packetDone .fioReadAll p s (packetEffect .fioReadAll p s)))
    ∧ (RunsNow .safeReadLog p s → exec (.safeReadLog p) s = .next (packetDone .safeReadLog p s (packetEffect .safeReadLog p s))))

/-- R475, R479, R493, R499, R508, R510, R515, R518, R529, R534 … R537, R541: commands of the fabric, network time, DMA channels, CAN controllers and
mailboxes. A commit sets the switch time at the root and sends `LEVEL` to every node with a route; an accepted step moves MTIME; a DMA channel
fetches its first descriptor, fetches a waiting one again, or ends its chain; a frame takes a free buffer; the standby filter list
comes into force with its address and count; a mailbox is read, and taken where asked; reads change nothing.

R48, R70, R74, R85: every packet command of the fabric, network time, DMA channels, CAN controllers and mailboxes completes with its own effect, on every state and packet that pass the checks of R70 where the
tick of the effect has begun: both reservations are released, the reply carries the result, and the axes of the tick follow. What a `FABRIC_COMMIT`, a `CAN_TX` and a `CAN_FILT_SWITCH` do at acceptance comes before their effect (R475, R529, R535). -/
def Obligations.NetworkCommandEffects : Prop :=
  (∀ (d : MDie) (a : Action) (t n : Nat) (o : Obj), d.find a.pkt.target = some (n, o) →
    let b := a.pkt.body
    (a.op = .fabricCommit → d.fab.routes = [] →
        let T := switchTime d.ns (a.pkt.stamp.map (fun s => s.secs.toNat * 1000000000 + s.nanos.toNat))
        d.acceptNote a = ({ d with fab := { d.fab with switch := some (rdU b 0 1, T) } },
          some ⟨BitVec.ofNat 64 (T / 1000000000 % 2 ^ 32 + T % 1000000000 * 2 ^ 32), 0⟩))
    ∧ (o.data = .system → a.op = .fabricCommit → d.eff a t = (d, noResult))
    ∧ (∀ now S, switchTime now none % 1000000 = 0 ∧ now + 10000000 ≤ switchTime now none ∧ switchTime now none < now + 11000000
        ∧ (now + 5000000 ≤ S → switchTime now (some S) = S) ∧ (S < now + 5000000 → switchTime now (some S) = switchTime now none))
    ∧ (o.data = .system → a.op = .fabricRouteGet → d.eff a t = (d, d.routeGet b))
    ∧ (∀ k, o.data = .port k → a.op = .portRetrain → (o.life = .enabled → d.eff a t = (d.portRetrain k, noResult))
        ∧ (o.life ≠ .enabled → d.eff a t = (d, noResult)))
    ∧ (o.data = .time →
        (a.op = .timeGet → d.eff a t = (d, ⟨BitVec.ofNat 64 (d.tick / 1000000000), BitVec.ofNat 64 (d.tick % 1000000000 + d.mer.st * 2 ^ 32)⟩))
        ∧ (a.op = .timeSet → d.eff a t = ({ d with mer := { d.mer with setSecs := some (rdU b 0 8) } }, noResult))
        ∧ (a.op = .timeAcceptStep → let r := d.mer.acceptStep d.tick d.upNs
          d.eff a t = (d.merDo (r.1, r.2.1, some r.2.2), ⟨image64 r.2.2, 0⟩)))
    ∧ (∀ c, o.data = .dmac c → o.life = .enabled →
        (a.op = .dmaStart → c.phase = .idle → d.eff a t = ((d.setDmac n (c.start (rdU b 0 8))).dmaIssue n, noResult))
        ∧ (a.op = .dmaResume → c.phase = .wait → d.eff a t = (d.dmaIssue n, noResult))
        ∧ (a.op = .dmaResume → c.phase ≠ .wait → d.eff a t = (d, noResult))
        ∧ (∀ len, a.op = .dmaAbort → c.phase = .burst len →
          d.eff a t = (d.setDmac n { c with abort := some 1, pending := 0 }, ⟨BitVec.ofNat 64 c.moved, 0⟩))
        ∧ (a.op = .dmaAbort → c.phase = .idle → d.eff a t = (d, ⟨BitVec.ofNat 64 c.moved, 0⟩)))
    ∧ (∀ c, o.data = .canc c → o.life = .enabled →
        (∀ y i, a.op = .canTx → c.submit (CanRec.decode b) d.ns (some a.seq) = some (y, i) →
          d.acceptNote a = (d.setCanc n y, some ⟨BitVec.ofNat 64 (i + 65536 * (CanRec.decode b).tag), 0⟩))
        ∧ (∀ l, a.op = .canFiltSwitch → d.filtRead (rdU b 0 4) (rdU b 4 2) = .ok l → d.acceptNote a = (d.setCanc n { c with standby := l }, none))
        ∧ (a.op = .canTx → d.eff a t = (d.setCanc n (c.due true a.seq t), noResult))
        ∧ (a.op = .canTxCancel → let r := c.cancel o.params (rdU b 0 1) d.ns t d.free
          d.eff a t = ((d.setCanc n r.1).postAll n r.2.1, ⟨BitVec.ofNat 64 r.2.2, 0⟩))
        ∧ (a.op = .canFiltSwitch → d.eff a t = (((d.setCanc n { c with filters := c.standby }).setPar n Par.cancFiltAddr 0
            (BitVec.ofNat 64 (rdU b 0 4))).setPar n Par.cancFiltCount 0 (BitVec.ofNat 64 (rdU b 4 2)), noResult)))
    ∧ (∀ m, o.data = .canmb m → o.life = .enabled → a.op = .canmbRead →
        (bitOf (rdU b 1 1) 0 = true → d.eff a t = (d.setData n (.canmb { m with taken := true }), m.read (rdU b 0 1)))
        ∧ (bitOf (rdU b 1 1) 0 = false → d.eff a t = (d, m.read (rdU b 0 1)))))
  ∧ (∀ (p : Pkt) (s : State),
    (RunsNow .fabricCommit p s → exec (.fabricCommit p) s = .next (packetDone .fabricCommit p s (notedEffect .fabricCommit p s)))
    ∧ (RunsNow .portRetrain p s → exec (.portRetrain p) s = .next (packetDone .portRetrain p s (packetEffect .portRetrain p s)))
    ∧ (RunsNow .fabricRouteGet p s → exec (.fabricRouteGet p) s = .next (packetDone .fabricRouteGet p s (packetEffect .fabricRouteGet p s)))
    ∧ (RunsNow .timeAcceptStep p s → exec (.timeAcceptStep p) s = .next (packetDone .timeAcceptStep p s (packetEffect .timeAcceptStep p s)))
    ∧ (RunsNow .timeSet p s → exec (.timeSet p) s = .next (packetDone .timeSet p s (packetEffect .timeSet p s)))
    ∧ (RunsNow .timeGet p s → exec (.timeGet p) s = .next (packetDone .timeGet p s (packetEffect .timeGet p s)))
    ∧ (RunsNow .dmaStart p s → exec (.dmaStart p) s = .next (packetDone .dmaStart p s (packetEffect .dmaStart p s)))
    ∧ (RunsNow .dmaResume p s → exec (.dmaResume p) s = .next (packetDone .dmaResume p s (packetEffect .dmaResume p s)))
    ∧ (RunsNow .dmaAbort p s → exec (.dmaAbort p) s = .next (packetDone .dmaAbort p s (packetEffect .dmaAbort p s)))
    ∧ (RunsNow .canTx p s → exec (.canTx p) s = .next (packetDone .canTx p s (notedEffect .canTx p s)))
    ∧ (RunsNow .canTxCancel p s → exec (.canTxCancel p) s = .next (packetDone .canTxCancel p s (packetEffect .canTxCancel p s)))
    ∧ (RunsNow .canFiltSwitch p s → exec (.canFiltSwitch p) s = .next (packetDone .canFiltSwitch p s (notedEffect .canFiltSwitch p s)))
    ∧ (RunsNow .canmbRead p s → exec (.canmbRead p) s = .next (packetDone .canmbRead p s (packetEffect .canmbRead p s))))

/-- R117, R120, R330, R548, R553, R554, R564, R567, R568, R572, R587, R598, R599: commands of tasks, Almanac slots, claimed memory, firmware banks, the life cycle, the
system and debug. A write marks its slot WRITTEN or its bank UNVERIFIED; a commit or a verification marks it by its check; a claim
takes a granule once; `MEM_WRITE` stores, except into the table of an enabled cam; `LC_ADVANCE` starts the wipe; `SYS_RESET` commits the
journal and resets with cause 6; a halt, a resume and a step wait for their boundary; `SYS_IDENTIFY` changes nothing.

R48, R70, R74, R85: every packet command of tasks, Almanac slots, the journal, claimed memory, firmware, the life cycle, the system and debug completes with its own effect, on every state and packet that pass the checks of R70 where the
tick of the effect has begun: both reservations are released, the reply carries the result, and the axes of the tick follow. What a task cancellation and the life-cycle commands do at acceptance comes before their effect, a `JOURNAL_SYNC` is answered by the journal, and a `SYS_RESET` is answered before the reset (R117, R548, R568, R587). -/
def Obligations.SystemCommandEffects : Prop :=
  (∀ (d : MDie) (a : Action) (t : Nat),
    let b := a.pkt.body
    (a.op = .taskCancelAll → d.eff a t = (let r := d.cancelTasks (fun t => t.doomed && t.rt.client.toNat == rdU b 0 2); (r.1, ⟨BitVec.ofNat 64 r.2, 0⟩)))
    ∧ (a.op = .taskCancelAll → d.acceptNote a = (let r := d.doom (fun _ t => t.rt.client.toNat == rdU b 0 2); (r.1, some ⟨BitVec.ofNat 64 r.2, 0⟩)))
    ∧ (a.op = .taskCancel → d.acceptNote a = ((d.doom (fun n _ => decide (n = hSlot a.pkt.target))).1, none))
    ∧ (a.op = .lcAdvance → d.acceptNote a = (if rdU b 0 1 = 3 then { d with mem := { d.mem with challenge := none } } else d, none))
    ∧ (∀ k x, d.findTask a.pkt.target = some (k, x) →
        (a.op = .taskCancel → d.eff a t = (d.cancelTask k (bitOf (rdU b 0 1) 0), noResult))
        ∧ (a.op = .taskSignal → x.st = .waiting → rdU b 0 1 < x.deps →
          d.eff a t = (d.setTask k { x with deps := x.deps - rdU b 0 1 }, ⟨1, 0⟩)))
    ∧ (∀ n o, d.find a.pkt.target = some (n, o) →
        (∀ k, o.data = .prof k →
          let put (f : ProfSlot → ProfSlot) : MDie := { d with mram := { d.mram with slots := listMod d.mram.slots (profIx n) f } }
          (a.op = .profWrite → d.eff a t =
            (put (fun s => { st := 1, data := s.data.writeN (rdU b 0 4) ((b.drop 8).take (rdU b 4 2)), bad := stillBad s.bad (rdU b 0 4) (rdU b 4 2) }), noResult))
          ∧ (a.op = .profCommit → d.eff a t = (put (fun s => { s with st := if s.check.isNone then 2 else 3 }), noResult))
          ∧ (a.op = .profErase → d.eff a t = (put (fun _ => ⟨0, [], []⟩), noResult))
          ∧ (a.op = .profSelectNext → d.eff a t = ({ d with mram := { d.mram with nextSlot := some (profIx n) } }, noResult)))
        ∧ (o.data = .system →
          (a.op = .sysIdentify → d.eff a t = (d, d.identify))
          ∧ (a.op = .sysReset → d.eff a t = (d.sysReset, noResult) ∧ (d.boot.inReset = false → d.sysReset.mram.resetCause = 6
              ∧ d.sysReset.boot.inReset = true))
          ∧ (a.op = .journalSync → d.eff a t = (d.journalSync a.rt t, noResult))
          ∧ (a.op = .journalClear → rdU b 0 1 = 1 → d.eff a t =
              ((d.setJournal (d.mram.journal.clear [] d.boot.bootSlot d.heldBase)).jSyncs, noResult))
          ∧ (a.op = .memClaim → ∀ m, d.mem.claim (rdU b 0 1) = .ok m → d.mem.claimed.contains (rdU b 0 1) = false →
              d.eff a t = (({ d with mem := m } : MDie).jnote [{ jrec 5 with cword := rdU b 0 1 }], noResult))
          ∧ (a.op = .memRelease → d.mem.claimed.contains (rdU b 0 1) = false → d.eff a t = ({ d with mem := d.mem.unclaim (rdU b 0 1) }, noResult))
          ∧ (a.op = .memWrite → d.camLocked = [] → d.eff a t =
              ({ d with mem := d.mem.write (rdU b 0 4) ((b.drop 8).take (rdU b 4 2)) }, noResult))
          ∧ (a.op = .memRead → let x := d.mem.sram.readN (rdU b 0 4) 16
              d.eff a t = (d, ⟨BitVec.ofNat 64 (rdU x 0 8), BitVec.ofNat 64 (rdU x 8 8)⟩))
          ∧ (a.op = .fwWrite →
              let put (k : FwBank) : FwBank := k.write (rdU b 0 4) ((b.drop 8).take (rdU b 4 2))
              d.eff a t = ({ d with mram := { d.mram with banks := listMod d.mram.banks d.otherBank put } }, noResult))
          ∧ (a.op = .fwVerify →
              let m : Mram := { d.mram with banks := listMod d.mram.banks d.otherBank (fun k => { k with st := 2 }) }
              d.eff a t = ({ d with mram := m }, ⟨BitVec.ofNat 64 (((d.mram.banks[d.otherBank]?).map FwBank.svn).getD 0), 0⟩))
          ∧ (a.op = .fwActivate → rdU b 0 1 = d.mram.fwNext → d.eff a t = (d, noResult))
          ∧ (a.op = .fwActivate → rdU b 0 1 ≠ d.mram.fwNext →
              d.eff a t = ({ d with mram := { d.mram with fwNext := rdU b 0 1, fwFails := 0 } }, noResult))
          ∧ (a.op = .lcChallenge → ∃ v, (d.acceptNote a).1.mem.challenge = some (v, d.upNs + 60000000000) ∧ v.length = 16)
          ∧ (a.op = .lcAdvance → rdU b 0 1 ≠ 1 → d.eff a t = ({ d with
              mram := { d.mram with lcIntent := some (rdU b 0 1), lcBad := [false, false] }
              mem := { d.mem with wiping := some (d.upNs + 2000000000) } }, noResult))
          ∧ (∀ x, d.engines[rdU b 0 1]? = some x →
            (a.op = .dbgHalt → x.halted = false →
              d.eff a t = ({ d with engines := d.engines.set (rdU b 0 1) { x with haltReq := true } }, noResult))
            ∧ (a.op = .dbgResume → x.halted = true →
              d.eff a t = ({ d with engines := d.engines.set (rdU b 0 1) { x with resumeReq := true } }, noResult))
            ∧ (a.op = .dbgStep →
              let y : Engine := { x with stepping := some (rdU b 1 1, rdU b 2 1, hSlot (BitVec.ofNat 32 (rdU b 4 4))) }
              d.eff a t = ({ d with engines := d.engines.set (rdU b 0 1) y }, noResult))
            ∧ (a.op = .dbgCtxRead → (d.eff a t).1 = if rdU b 1 1 = 1 then { d with free := d.free + 1 } else d)))))
  ∧ (∀ (p : Pkt) (s : State),
    (RunsNow .taskCancel p s → exec (.taskCancel p) s = .next (packetDone .taskCancel p s (notedEffect .taskCancel p s)))
    ∧ (RunsNow .taskSignal p s → exec (.taskSignal p) s = .next (packetDone .taskSignal p s (packetEffect .taskSignal p s)))
    ∧ (RunsNow .taskCancelAll p s → exec (.taskCancelAll p) s = .next (packetDone .taskCancelAll p s (notedEffect .taskCancelAll p s)))
    ∧ (RunsNow .profWrite p s → exec (.profWrite p) s = .next (packetDone .profWrite p s (packetEffect .profWrite p s)))
    ∧ (RunsNow .profCommit p s → exec (.profCommit p) s = .next (packetDone .profCommit p s (packetEffect .profCommit p s)))
    ∧ (RunsNow .profErase p s → exec (.profErase p) s = .next (packetDone .profErase p s (packetEffect .profErase p s)))
    ∧ (RunsNow .profSelectNext p s → exec (.profSelectNext p) s = .next (packetDone .profSelectNext p s (packetEffect .profSelectNext p s)))
    ∧ (RunsNow .journalSync p s → exec (.journalSync p) s = .next (s.after (packetEffect .journalSync p s).1))
    ∧ (RunsNow .journalClear p s → exec (.journalClear p) s = .next (packetDone .journalClear p s (packetEffect .journalClear p s)))
    ∧ (RunsNow .memClaim p s → exec (.memClaim p) s = .next (packetDone .memClaim p s (packetEffect .memClaim p s)))
    ∧ (RunsNow .memRelease p s → exec (.memRelease p) s = .next (packetDone .memRelease p s (packetEffect .memRelease p s)))
    ∧ (RunsNow .memWrite p s → exec (.memWrite p) s = .next (packetDone .memWrite p s (packetEffect .memWrite p s)))
    ∧ (RunsNow .memRead p s → exec (.memRead p) s = .next (packetDone .memRead p s (packetEffect .memRead p s)))
    ∧ (RunsNow .fwWrite p s → exec (.fwWrite p) s = .next (packetDone .fwWrite p s (packetEffect .fwWrite p s)))
    ∧ (RunsNow .fwVerify p s → exec (.fwVerify p) s = .next (packetDone .fwVerify p s (packetEffect .fwVerify p s)))
    ∧ (RunsNow .fwActivate p s → exec (.fwActivate p) s = .next (packetDone .fwActivate p s (packetEffect .fwActivate p s)))
    ∧ (RunsNow .lcChallenge p s →
        let x := (packetBase .lcChallenge p s).acceptNote (packetAction .lcChallenge p s)
        exec (.lcChallenge p) s = .next (packetDone .lcChallenge p s (x.1, x.2.getD noResult)))
    ∧ (RunsNow .lcAdvance p s → exec (.lcAdvance p) s = .next (packetDone .lcAdvance p s (notedEffect .lcAdvance p s)))
    ∧ (RunsNow .sysReset p s →
        let a := packetAction .sysReset p s
        exec (.sysReset p) s = .next (s.after ((((packetBase .sysReset p s).reply a.rt (if a.okLate then .okLate else .ok) noResult a.effect).returnPlace
          a.rt).sysReset)))
    ∧ (RunsNow .sysIdentify p s → exec (.sysIdentify p) s = .next (packetDone .sysIdentify p s (packetEffect .sysIdentify p s)))
    ∧ (RunsNow .dbgHalt p s → exec (.dbgHalt p) s = .next (packetDone .dbgHalt p s (packetEffect .dbgHalt p s)))
    ∧ (RunsNow .dbgResume p s → exec (.dbgResume p) s = .next (packetDone .dbgResume p s (packetEffect .dbgResume p s)))
    ∧ (RunsNow .dbgStep p s → exec (.dbgStep p) s = .next (packetDone .dbgStep p s (packetEffect .dbgStep p s)))
    ∧ (RunsNow .dbgCtxRead p s → exec (.dbgCtxRead p) s = .next (packetDone .dbgCtxRead p s (packetEffect .dbgCtxRead p s))))

/-! ## Host ports, TAP (chapters 03 and 21) -/

/-- R62, R593: a command-tail doorbell of an enabled queue whose value lies in its ring sets the tail; a value beyond the ring halts the
queue. R63, R80, R593: a reply-head doorbell within the ring sets the head and clears the outstanding mark.

R80, R593: a head within an event ring frees its records and clears the mark; a legal size sets the ring up empty; another size changes
nothing. -/
def Obligations.DoorbellsAndRings : Prop :=
  (∀ (s : State) (p : HostPort) (q : Nat) (v : U32) (c : QueueCfg) (rt : QueueRt),
    s.md.boot.inReset = false → s.md.dieIndex = 0 → s.md.queueCfg (queueKey p q) = some c → s.md.queue? (queueKey p q) = some rt →
    s.md.doorsOpen (queueKey p q) = true →
    (c.on = true → v.toNat < c.cmdSize / 8 →
      exec (.dbCmdTail p q v) s = .next (s.after (s.md.start.setQueue (queueKey p q) { rt with tail := v.toNat, partly := false })))
    ∧ (c.on = true → c.cmdSize / 8 ≤ v.toNat → exec (.dbCmdTail p q v) s = .next (s.after (s.md.start.queueHalt (queueKey p q) 2 0)))
    ∧ (s.md.queueBegun (queueKey p q) = true → v.toNat < c.rplSize →
      exec (.dbRplHead p q v) s = .next (s.after (s.md.start.setQueue (queueKey p q) { rt with rplHead := v.toNat, msgOut := false })))
    ∧ (s.md.queueBegun (queueKey p q) = true → c.rplSize ≤ v.toNat →
      exec (.dbRplHead p q v) s = .next (s.after (s.md.start.queueHalt (queueKey p q) 2 0))))
  ∧ (∀ (s : State) (p : HostPort) (r : Nat) (v : U32) (e : EvRing),
    s.md.boot.inReset = false → s.md.dieIndex = 0 → (s.md.rm.regs p).evr[r]? = some e →
    (v.toNat < e.size → exec (.evrHead p r v) s = .next (s.after
      (s.md.start.setRegs p (fun h => { h with evr := h.evr.set r { e with head := v.toNat, msgOut := false } }))))
    ∧ (v.toNat = 0 ∨ (∃ k, 5 ≤ k ∧ k ≤ 15 ∧ v.toNat = 2 ^ k) → exec (.evrSize p r v) s = .next (s.after
      (s.md.start.setRegs p (fun h => { h with evr := h.evr.set r { e with size := v.toNat, head := 0, tail := 0 } }))))
    ∧ (v.toNat ≠ 0 → (∀ k, 5 ≤ k → k ≤ 15 → v.toNat ≠ 2 ^ k) → exec (.evrSize p r v) s = .next (s.after s.md.start)))

/-- R592, R593: `HOST_CTRL` of queue 0: its enable bit, and its restart, which empties the command ring and ends the halt. Writes of the window
that are no aligned word of 32 or 64 bits are discarded. While queue 0 is off an aligned command-ring base is taken from a PCI Express
host, half by half; while it is on it is not.

R594, R595: a QSPI transaction that is not of whole aligned words in the two windows is answered with zeros or discarded and sets `ERR`;
one that lies in the ring window writes or reads the SRAM behind it. The status instruction returns `READY`, `IRQ` and `ERR` and
clears `ERR`. -/
def Obligations.HostWindowAndQspi : Prop :=
  (∀ (s : State) (p : HostPort), s.md.boot.inReset = false → s.md.dieIndex = 0 →
    (∀ on, exec (.q0En p on) s = .next (s.after (s.md.start.setRegs p (fun r => { r with q0En := on }))))
    ∧ (∀ rt, s.md.queue? (queueKey p 0) = some rt → exec (.q0Restart p) s =
        .next (s.after ((s.md.start.dropHeld (queueKey p 0)).setQueue (queueKey p 0)
          { rt with head := 0, tail := 0, halted := false, partly := false, behind := false })))
    ∧ (∀ off b, ¬ (b.length = 4 ∧ off % 4 = 0) → ¬ (b.length = 8 ∧ off % 8 = 0) →
        exec (.hostWindowWrite p off b) s = .next (s.after s.md.start))
    ∧ (s.md.boot.stage ≠ 0xE → ∀ b, b.length = 4 →
        ((s.md.rm.regs p).q0En = true → exec (.hostWindowWrite p 0x1000 b) s = .next (s.after s.md.start))
        ∧ ((s.md.rm.regs .pcie).q0En = false → rdU b 0 4 % 4096 = 0 → exec (.hostWindowWrite .pcie 0x1000 b) s = .next (s.after
            (s.md.start.setRegs .pcie (fun r => { r with cmdBase := BitVec.ofNat 64 (r.cmdBase.toNat / 2 ^ 32 * 2 ^ 32 + rdU b 0 4) }))))))
  ∧ (∀ (s : State) (a : U32), s.md.boot.inReset = false → s.md.dieIndex = 0 →
    (∀ b, qspiOk a.toNat b.length = false →
      exec (.qspiWrite a b) s = .next (s.after (s.md.start.setRegs .qspi (fun r => { r with err := true }))))
    ∧ (∀ n, qspiOk a.toNat n = false → exec (.qspiRead a n) s =
        .next (s.after ((s.md.start.setRegs .qspi (fun r => { r with err := true })).emit (.qspi (List.replicate n 0)))))
    ∧ (∀ b : List Byte, b.length = 4 → a.toNat % 4 = 0 → 0x10000 ≤ a.toNat → a.toNat < 0x20000 → exec (.qspiWrite a b) s =
        .next (s.after { s.md.start with mem := s.md.mem.write (0x3F0000 + (a.toNat - 0x10000)) b }))
    ∧ (a.toNat % 4 = 0 → 0x10000 ≤ a.toNat → a.toNat < 0x20000 → exec (.qspiRead a 4) s =
        .next (s.after (s.md.start.emit (.qspi (s.md.mem.sram.readN (0x3F0000 + (a.toNat - 0x10000)) 4)))))
    ∧ exec .qspiStatus s = .next (s.after ((s.md.start.setRegs .qspi (fun r => { r with err := false })).emit (.qspi [BitVec.ofNat 8
        ((if s.md.boot.ready then 1 else 0) + (if s.md.qspiIrq then 2 else 0) + (if s.md.rm.qspi.err then 4 else 0))]))))

/-- R591, R624: `PCIE_PERST_N` low and a loss of the data link reset the PCI Express client, as a function-level reset does: its window registers
read as after reset; DL_Up comes back with the link.

R596, R597: `IDCODE` selects the identification register, `BYPASS` the bypass bit; `SAMPLE/PRELOAD` takes the boundary register; these
leave the dies running. Where the life-cycle state permits it, `EXTEST`, `CLAMP` and `HIGHZ` are selected and hold the die in reset; where
it does not they act as `BYPASS`. -/
def Obligations.LinkResetsAndTap : Prop :=
  (∀ s : State, s.md.boot.inReset = false → s.md.dieIndex = 0 →
    exec .pciePerstLow s = .next (s.after { s.md.start with rm := { s.md.rm with perstN := false, dlUp := false } }.pcieReset)
    ∧ exec .pcieLinkDown s = .next (s.after { s.md.start with rm := { s.md.rm with dlUp := false } }.pcieReset)
    ∧ exec .pcieFlr s = .next (s.after s.md.start.pcieReset)
    ∧ exec .pcieLinkUp s = .next (s.after { s.md.start with rm := { s.md.rm with dlUp := true, perstN := true } })
    ∧ ((∀ q < 8, ∀ rt, s.md.queue? (queueKey .pcie q) = some rt → rt.halted = true) → s.md.slotsOf .dmac = [] → s.md.start.pcieReset = s.md.start.setRegs .pcie (fun _ => HostRegs.create)))
  ∧ (∀ (s : State), s.md.boot.inReset = false →
    exec .idcode s = .next (s.after ({ s.md.start with tap := { s.md.tap with ir := 1 } }.emit
        (.tap ((List.range 32).map (fun i => (idcodeOf s.md.nDies).testBit i)))))
    ∧ exec .bypass s = .next (s.after ({ s.md.start with tap := { s.md.tap with ir := 0xFF } }.emit (.tap [false])))
    ∧ (∀ bits, exec (.samplePreload bits) s = .next (s.after ({ s.md.start with tap := ⟨2, bits⟩ }.emit (.tap bits))))
    ∧ (∀ c i, (c, i) ∈ [(Instr.extest, 0), (Instr.clamp, 4), (Instr.highz, 5)] →
        (s.md.mram.lc = 0 ∨ s.md.mram.lc = 1 ∨ s.md.mram.lc = 3 →
          ∃ t, exec c s = .next t ∧ t.md.boot.inReset = true ∧ t.md.tap = ⟨i, s.md.tap.boundary⟩ ∧ t.md.mram.resetCause = 2)
        ∧ (s.md.mram.lc = 2 ∨ s.md.mram.lc = 4 →
          exec c s = .next (s.after ({ s.md.start with tap := { s.md.tap with ir := 0xFF } }.emit (.tap [false]))))))

/-! ## Queues, held packets, stamps, boundaries (chapters 02 and 03) -/

/-- R62, R84, R87: a read error of the command ring whose turn it is halts its queue with cause 2; an error of a write-back halts an open queue that
writes replies with cause 3, whether or not it can fetch.

R62, R64, R83, R84: the packet that lies whole at the head of the command ring whose turn it is (log 63), its queue enabled and with two reply
records free, and that no `FENCE` holds, is fetched:
its reservations are made, the head moves past it, and it goes through its checks on this die or is forwarded. Where it is dealt with, that
is the step: one that passes its checks takes an action slot for the tick of its effect, which lies ahead (R48). -/
def Obligations.PacketsFetchedFromRings : Prop :=
  (∀ (s : State) (queue : Nat) (c : QueueCfg) (q : QueueRt),
    s.md.boot.inReset = false → queue < 8 → s.md.queueCfg queue = some c → s.md.queue? queue = some q →
    (s.md.turnKey = some queue → exec (.packetFetch .pcie queue .error) s = .next (s.after (s.md.start.queueHalt queue 2 0)))
    ∧ (q.halted = false → s.md.doorsOpen queue = true → s.md.writesReplies queue = true →
        exec (.packetFetch .pcie queue .writeError) s = .next (s.after (s.md.start.queueHalt queue 3 0)))
    ∧ (∀ b, s.md.turnKey ≠ some queue → exec (.packetFetch .pcie queue (.data b)) s = .next (s.after s.md.start)))
  ∧ (∀ (s : State) (port : HostPort) (queue : Nat) (c : QueueCfg) (q : QueueRt) (ring b : List Byte) (x : MDie),
    let key := queueKey port queue
    let got := (pktDecode (clientOf port) 0 queue b)
    s.md.boot.inReset = false → queue < 8 → s.md.queueCfg key = some c → s.md.queue? key = some q → s.md.turnKey = some key →
    (port = .qspi → ring = s.md.qspiRing c q) →
    2 ≤ rdU ring 2 1 → rdU ring 2 1 ≤ 128 → 8 * rdU ring 2 1 ≤ ring.length → 8 * rdU ring 2 1 ≤ c.avail q → b = ring.take (8 * rdU ring 2 1) →
    s.md.fenced key got.2 = false →
    let d := s.md.start.fetched key got.1 got.2 true
    (d.1.take false got.1 got.2 d.2 = .done x → exec (.packetFetch port queue (.data ring)) s = .next (s.after x))
    ∧ (∀ op : Op, got.1 = op.code → d.1.Accepts false op got.2 →
        exec (.packetFetch port queue (.data ring)) s = .next (s.after (d.1.queued false op got.2 (replyTo op.code got.2 d.2)))))

/-- R64, R83, R85: a packet that waits is checked again, and leaves the waiting packets when it is dealt with: one of another node at once, one of a host
once its queue can fetch it and no `FENCE` holds it; it is fetched then. One that passes its checks now takes an action slot for the tick of its
effect. While none waits the row changes nothing.

R64, R86: a forwarded command whose reply has not come by its time is answered `TIMEOUT`, and both its reservations are released. -/
def Obligations.HeldAndForwardedPackets : Prop :=
  (∀ s : State, s.md.boot.inReset = false →
    (s.md.rm.held = [] → exec .heldPacketAccept s = .next (s.after s.md.start))
    ∧ (∀ (h : Held) (x : MDie), s.md.rm.held = [h] → hostOf h.rt.client = none →
        ({ s.md.start with rm := { s.md.rm with held := [] } } : MDie).take false h.rt.opcode.toNat h.pkt none = .done x →
        exec .heldPacketAccept s = .next (s.after x))
    ∧ (∀ (h : Held) (op : Op), s.md.rm.held = [h] → hostOf h.rt.client = none → h.rt.opcode.toNat = op.code →
        let d : MDie := { s.md.start with rm := { s.md.rm with held := [] } }
        d.Accepts false op h.pkt → exec .heldPacketAccept s = .next (s.after (d.queued false op h.pkt (replyTo op.code h.pkt none))))
    ∧ (∀ (h : Held) (port : HostPort) (x : MDie), s.md.rm.held = [h] → hostOf h.rt.client = some port → h.ring ≠ 0 →
        let key := queueKey port h.rt.queue
        let got := ({ s.md.start with rm := { s.md.rm with held := [] } } : MDie).fetched key h.rt.opcode.toNat h.pkt (h.ring == 1)
        s.md.canFetch key = true → s.md.fenced key h.pkt = false → got.1.take false h.rt.opcode.toNat h.pkt got.2 = .done x →
        exec .heldPacketAccept s = .next (s.after x)))
  ∧ (∀ (s : State) (pid key node due : Nat) (l r : List (Nat × QueueRt)) (q : QueueRt) (f : Flight) (d : MDie),
    s.md.boot.inReset = false → s.md.rm.queues = l ++ (key, q) :: r →
    (∀ x ∈ l ++ r, x.2.flights.find? (fun f => decide (f.pid = pid) && !f.settled) = none) →
    q.flights.find? (fun f => decide (f.pid = pid) && !f.settled) = some f → f.fwd = some (node, due) → s.md.start.passUp due = some d →
    let rt : ReplyTo := { client := clientOf (portOfKey key), origin := 0, queue := key % 8, seq := f.seq, opcode := f.opcode, ackReq := f.ack,
                          pid := some pid }
    exec (.cmdTimeoutExpiry pid) s = .next (s.after (((d.reply rt .timeout noResult d.ns).release1 rt).release2 rt)))

/-- R49, R52, R53: an accepted command whose tick has begun takes effect and gives its action slot back; one whose tick is the next one takes
effect in that sample tick.

R42, R43: a class `k` tick begins every 16 µs times two to the `k`, class 0 … 3; the next tick of the die begins 16 µs after the last
one where time has not left it behind; and a `SAMPLE_TICK` row is that tick. A die in reset only lets time pass. -/
def Obligations.TicksAndPendingCommands : Prop :=
  (∀ (s : State) (a : Action), s.md.boot.inReset = false →
    (let x := ({ s.md.start with rm := { s.md.rm with actions := [] } } : MDie).apply a s.md.tick
     s.md.rm.actions = [a] → a.effect ≤ s.md.tick → x.rm.actions = [] → exec .stampReached s = .next (s.after x))
    ∧ (a ∈ s.md.rm.actions → a.stamped = true → a.effect = s.md.nextTick →
      exec .stampReached s = .next (s.after s.md.start.sampleTick)))
  ∧ (∀ s : State, exec .sampleTick s = .next (s.after s.md.start.sampleTick)
    ∧ (s.md.ns < s.md.tick + 16000 → s.md.nextTick = s.md.tick + 16000)
    ∧ (s.md.boot.inReset = true → s.md.start.sampleTick =
        { (s.md.start.fioRun s.md.nextTick).passTo s.md.nextTick with tick := s.md.nextTick }))

/-- R31: the clean boundary of a draining object. An axis at rest whose plan has ended, and a lane without link, are DISABLED; a feedback channel
and a trace at the next class 0 tick, a recording trace
stopping with a free cause (log 156); an object that does not drain stays as it is. -/
def Obligations.CleanBoundaryEndsDrain : Prop :=
  ∀ (s : State) (n : Nat) (o : Obj), s.md.boot.inReset = false → s.md.obj? n = some o →
    let T := s.md.nextTick
    (o.life ≠ .draining → exec (.cleanBoundaryReached n) s = .next (s.after s.md.start))
    ∧ (o.life = .draining →
        (∀ a, o.data = .axis a → a.core.draining = true → atRest a.cur = true → a.core.plan.endsAt ≤ s.md.tickOf n →
          exec (.cleanBoundaryReached n) s = .next (s.after (s.md.start.axisEnd n (s.md.tickOf n))))
        ∧ (∀ f, o.data = .fbk f → exec (.cleanBoundaryReached n) s =
            .next (s.after (((s.md.start.passTo T).setData n (.fbk (fbkInvalid f))).toIdle n T)))
        ∧ (∀ x, o.data = .trace x → x.st ≠ 1 → x.st ≠ 2 → exec (.cleanBoundaryReached n) s =
            .next (s.after ((((s.md.start.passTo T).setData n (.trace (x.halt T 0).1)).postAll n (x.halt T 0).2).toIdle n T)))
        ∧ (∀ x, o.data = .trace x → x.st = 1 ∨ x.st = 2 → exec (.cleanBoundaryReached n) s =
            .next (s.after (let k := (s.md.start.passTo T).draw 256
              ((k.1.setData n (.trace (x.halt T k.2).1)).postAll n (x.halt T k.2).2).toIdle n T)))
        ∧ (∀ l, o.data = .dlane l → l.link < 2 → exec (.cleanBoundaryReached n) s =
            .next (s.after (((s.md.start.passTo T).setData n (.dlane { l with link := 0, drain := none })).toIdle n T))))

/-! ## The Turnstile (chapter 04) -/

/-- R111, R112: the ready task that goes first is dispatched as the Turnstile client: its command passes the checks against the state its tick will
find, takes an action slot, and the task waits for its effect; one that fails a check is refused and ends with cause 1, and one without a slot
stands first from then on. A `TASK_WAIT` is checked as a `NOP` is. With no task ready the row changes nothing. -/
def Obligations.ReadyTaskDispatched : Prop :=
  ∀ s : State, s.md.boot.inReset = false →
    (s.md.nextTask = none → exec .taskDispatch s = .next (s.after s.md.start))
    ∧ (∀ (n : Nat) (t : TaskRec), s.md.start.nextTask = some (n, t) →
        let d := s.md.start
        let p := { t.pkt with task := none, flags := t.pkt.flags &&& 0xFD }
        let eff := d.effectTick false (d.targetPeriod p.target) p
        let chk := (d.projected eff.1).ownBad (if t.op = .taskWait then .nop else t.op) p clientTurnstile
        (chk = none → d.slotFor clientTurnstile = true → exec .taskDispatch s = .next (s.after
          ((d.setTask n { t with st := .dispatched eff.1 (if eff.2 then Status.okLate.code else Status.ok.code) }).enlist
            (d.projected eff.1) false t.op p t.rt clientTurnstile (some n) eff)))
        ∧ (chk = none → d.slotFor clientTurnstile = false →
          exec .taskDispatch s = .next (s.after { d with rm := { s.md.rm with stalled := some t.intake } }))
        ∧ (∀ k st r, t.op ≠ .taskWait → chk = some (k, st, r) → exec .taskDispatch s = .next (s.after
          (let x := (((d.refusalNote t.op p r).reply t.rt st r d.ns).release1 t.rt).release2 t.rt
           { x with rm := { x.rm with ended := x.rm.ended ++ [(n, 1, st.code)] } }))))

/-- R110, R116: a completion from another node is acknowledged each time and applied once: it lowers the count of the waiting task it names, and
at 0 the task is ready. A cancellation cancels that task with its successors (R114).

R116: an acknowledgement ends the holding of a completion for another node; without one by its deadline the completion is given up and its loss
reported, that of a cancellation without a report. -/
def Obligations.RemoteTaskCompletions : Prop :=
  (∀ (s : State) (succ : U32) (node token : Nat), s.md.boot.inReset = false →
    let d := s.md.start.emit (.taskAck node token)
    let d' := { d with rm := { s.md.rm with taken := s.md.rm.taken ++ [(node, token)] } }
    ((node, token) ∈ s.md.rm.taken →
      exec (.taskCompletionReceived succ node token) s = .next (s.after d) ∧ exec (.successorCancelReceived succ node token) s = .next (s.after d))
    ∧ ((node, token) ∉ s.md.rm.taken → ∀ n t, s.md.findTask succ = some (n, t) →
      (t.st = .waiting → 1 < t.deps →
        exec (.taskCompletionReceived succ node token) s = .next (s.after (d'.setTask n { t with deps := t.deps - 1 })))
      ∧ (t.st = .waiting → t.deps = 1 → exec (.taskCompletionReceived succ node token) s =
          .next (s.after (d'.setTask n { t with deps := 0, st := .ready s.md.rm.nextReady })))
      ∧ exec (.successorCancelReceived succ node token) s = .next (s.after (d'.cancelTask n true))))
  ∧ (∀ (s : State) (token : Nat), s.md.boot.inReset = false →
    exec (.taskCompletionAck token) s = .next (s.after
      { s.md.start with rm := { s.md.rm with remote := s.md.rm.remote.filter (fun r => decide (r.token ≠ token)) } })
    ∧ (∀ (r : RemoteDone) (d : MDie), s.md.rm.remote.find? (fun r => decide (r.token = token)) = some r → s.md.start.passUp r.deadline = some d →
        let d' := { d with rm := { d.rm with remote := d.rm.remote.filter (fun x => decide (x.token ≠ token)) } }
        exec (.taskSuccAckTimeout token) s = .next (s.after (if r.cancel then d' else
          d'.postTo r.pred (faultEv Evt.taskSuccLost d'.tick (d16 r.tag.toNat ++ d16 r.client.toNat ++ d32 r.succ.toNat)) r.client r.ring))))

/-! ## Feedback (chapter 06) -/

/-- R126, R134, R152, R157: a snapshot is taken at a multiple of 500 ns; an enabled sin/cos channel counts its amplitude window, what is found
standing until the tick; an index crossed is checked against the one before it; once the speed timeout has run since the last base the
published speed is 0, with status bit 7 set and bit 6 clear, and the 1/T method stands next. An index whose tick has its snapshot completes
the reference at that tick (R153).

R138, R139: the read of an idle, enabled SSI channel starts at its cadence, with the level of its data line; the frame it returns is taken
as the channel's parameters say and moves the compare events of the channel. -/
def Obligations.FeedbackRows : Prop :=
  (∀ (s : State) (n : Nat) (o : Obj) (f : Fbk), s.md.boot.inReset = false → s.md.fbk? n = some (o, f) →
    (∀ t srcs, t % 500 = 0 → s.md.ns ≤ t → t ≤ s.md.nextTick →
      exec (.fbkSnapshot t srcs) s = .next (s.after ((s.md.start.passTo t).snapshot t srcs)))
    ∧ (o.life = .enabled → f.type = 0 →
      exec (.ampFiltCount n) s = .next (s.after (s.md.start.setData n (.fbk { f with mon := ampFilter o.params f.mon }))))
    ∧ exec (.indexCrossing n) s = .next (s.after (s.md.start.setData n (.fbk (checkIndices o.params f))))
    ∧ (let due := (f.spd.baseTime + o.params.u Par.fbkSpeedTimeout * 1000 : Int).toNat
       o.life = .enabled → f.type ≠ 3 → due ≤ s.md.nextTick → exec (.speedTimeoutExpiry n) s =
        .next (s.after ((s.md.start.passTo due).setData n (.fbk { f with
          spd := (speedZero { f.spd with methodT := false } true).sp
          sample := { f.sample with speed := 0, status := f.sample.status % 64 + f.sample.status / 256 * 256 + 128 } })))))
  ∧ (∀ (s : State) (n : Nat) (o : Obj) (f : Fbk), s.md.boot.inReset = false → s.md.fbk? n = some (o, f) → o.life = .enabled → f.type = 3 →
    (∀ high, f.cnt.ssiBusy = none → exec (.ssiReadStart n high) s =
      .next (s.after ((s.md.start.passTo (ssiStart o.params f.cnt.ssiNext)).setData n (.fbk (ssiReadStart o.params f high)))))
    ∧ (∀ frame, exec (.ssiReadComplete n frame) s = .next (s.after
        ((s.md.start.setData n (.fbk (ssiReadComplete o.params f frame.toNat))).fbkMoved n f))))

/-- R148, R411: when the pair link goes down every F-die source and every field channel in use loses it; when it comes up again on a die past
boot stage 2 the F die takes its settings back. -/
def Obligations.PairLinkRowsComplete : Prop :=
  ∀ s : State, s.md.boot.inReset = false →
    (s.md.pairLink = true → exec .pairLinkLoss s =
      .next (s.after ((({ s.md.start with pairLink := false } : MDie).fbkPairLost s.md.tick).fioLinkLost s.md.tick)))
    ∧ (s.md.pairLink = false → exec .pairLinkLoss s = .next (s.after s.md.start))
    ∧ (s.md.pairLink = false → 3 ≤ s.md.boot.stage → s.md.boot.stage ≤ 5 →
      exec .pairLinkRestored s = .next (s.after ({ s.md.start with pairLink := true } : MDie).logicReturn))
    ∧ (s.md.pairLink = true → exec .pairLinkRestored s = .next (s.after s.md.start))

/-! ## Motion, streams, position events (chapters 07 … 09) -/

/-- R54, R184: at the class 0 tick in progress the Planner sees the SS1 wires, each wire as it stood 1 µs before
it; each axis is then held by
the wires it names, and its horizon follows.

R224, R261: an enabled axis that follows a source of another node and has run on prediction for more than `AXIS.PRED_LIMIT` samples faults with
`STREAM_LOST`; a line clock likewise once its run has reached `LCLK.PRED_LIMIT`, with its source and the length of the run. -/
def Obligations.PlannerConditions : Prop :=
  (∀ s : State, s.md.boot.inReset = false →
    (let d := s.md.start.seeSs1 s.md.tick
     let d' := (d.slotsOf .axis).foldl (fun d n => d.axisCond n d.tick) d
     exec .ss1WireChangeSeen s = .next (s.after (d'.follow d'.tick)))
    ∧ (∀ (d : MDie) (t : Nat) (new old : List (Nat × Nat)) (x : Nat × Nat),
        (d.ss1Wire = new ++ x :: old → (∀ y ∈ new, t < y.2 + 1000) → x.2 + 1000 ≤ t → d.seeSs1 t = { d with ss1Seen := x.1, ss1Wire := new ++ [x] })
        ∧ ((∀ y ∈ d.ss1Wire, t < y.2 + 1000) → d.seeSs1 t = d)))
  ∧ (∀ (s : State) (n : Nat), s.md.boot.inReset = false →
    (∀ o a h, s.md.axis? n = some (o, a) → s.md.sourceOf n a = some h → s.md.isRemote h = true → o.life = .enabled →
      o.params.u Par.axisPredLimit < a.ra.predRun → exec (.predLimitReached n) s = .next (s.after (s.md.start.axisFault n
        (faultEv Evt.streamLost s.md.tick (d32 h.toNat ++ d16 a.ra.predRun)) (s.md.tickOf n))))
    ∧ (∀ o l, s.md.lclk? n = some (o, l) → o.life = .enabled → 0 < l.predRun → o.params.u Par.lclkPredLimit ≤ l.predRun →
      exec (.lclkPredLimit n) s = .next (s.after (s.md.start.lclkLost n s.md.ns l.predRun))))

/-- R246, R251, R257: the first placed edge of a compare event or of a line clock leaves at its time once nothing else is to happen at an output
before it; a pulse ends at its time likewise, and that of a field output. A line-clock edge drives its ball to the active level.

R136, R252, R253: an edge at a capture input changes its level and is offered, with its pin time and the width of its pulse, to the channels that
name the input. A level of less than 5 ns is ignored (one of 5 to 10 ns may be, log 12), and so is the return from it; what is no edge changes
nothing. -/
def Obligations.PositionEdges : Prop :=
  (∀ (s : State) (n : Nat) (o : Obj), s.md.boot.inReset = false → s.md.obj? n = some o →
    (∀ c e r, o.data = .evt c → c.placed = e :: r → firstDue s.md.edgeDue = some (e.leave, 1, n) → e.leave ≤ s.md.nextTick →
      exec (.evtFire n) s = .next (s.after ((s.md.start.passTo e.leave).evtFire n)))
    ∧ (∀ l e r, o.data = .lclk l → l.placed = e :: r → firstDue s.md.edgeDue = some (e.leave, 1, n) → e.leave ≤ s.md.nextTick →
      exec (.lclkEdge n) s = .next (s.after ((s.md.start.passTo e.leave).lclkFire n))
      ∧ ((s.md.start.passTo e.leave).lclkFire n).lclkOut = s.md.lclkOut.set l.output true)
    ∧ (∀ c t, o.data = .evt c → c.pulseEnd = some t → firstDue s.md.edgeDue = some (t, 0, n) → t ≤ s.md.nextTick →
      exec (.pulseEnd n) s = .next (s.after ((s.md.start.passTo t).evtPulseEnd n)))
    ∧ (∀ l t, o.data = .lclk l → l.pulseEnd = some t → firstDue s.md.edgeDue = some (t, 0, n) → t ≤ s.md.nextTick →
      exec (.pulseEnd n) s = .next (s.after ((s.md.start.passTo t).lclkPulseEnd n)))
    ∧ (∀ k ch t, o.data = .fio k → s.md.field.chans[k]? = some ch → ch.out.pulseEnd = some t → t ≤ s.md.nextTick →
      exec (.pulseEnd n) s = .next (s.after ((s.md.start.passTo t).fioTimers k t))))
  ∧ (∀ (s : State) (ball pin width : Nat) (rising : Bool), s.md.boot.inReset = false → ball < 8 →
    let d : MDie := { s.md.start.passTo pin with capIn := s.md.capIn.set ball rising }
    (s.md.capIn.getD ball false ≠ rising → pin ≤ s.md.nextTick →
      exec (.capInEdge ball pin rising width) s = .next (s.after ((s.md.start.passTo pin).capBall ball rising pin width)))
    ∧ (10 ≤ width → s.md.capSeen.getD ball false ≠ rising → (s.md.start.passTo pin).capBall ball rising pin width =
        ({ d with capSeen := s.md.capSeen.set ball rising } : MDie).captEdge 0 ball rising pin width)
    ∧ (width < 5 ∨ s.md.capSeen.getD ball false = rising → (s.md.start.passTo pin).capBall ball rising pin width = d)
    ∧ (s.md.capIn.getD ball false = rising → exec (.capInEdge ball pin rising width) s = .next (s.after s.md.start)))

/-! ## Loops, PWM, drive lanes (chapters 10 … 12) -/

/-- R330, R598: a requested halt takes effect at a step boundary: the engine halts, the request is over, and `ENGINE_HALTED` says so; without a request
the row changes nothing.

R282, R290, R291: the gate of a loop group comes 1 µs after its tick; a following error that has stood for its time faults the group; axes that
have rested long enough end the drain of a group. -/
def Obligations.EnginesAndLoops : Prop :=
  (∀ (s : State) (e : Nat) (x : Engine), s.md.boot.inReset = false → s.md.engines[e]? = some x →
    (x.haltReq = true → exec (.engineHaltTakesEffect e) s = .next (s.after
      (({ s.md.start with engines := (s.md.engines.set e { x with haltReq := false, halted := true, resumeReq := false, since := s.md.upNs, stepping := none }) } : MDie).post 0
        (report Evt.engineHalted s.md.tick (d8 e ++ d8 1 ++ d16 0 ++ d32 0)))))
    ∧ (x.haltReq = false → exec (.engineHaltTakesEffect e) s = .next (s.after s.md.start)))
  ∧ (∀ (s : State) (n : Nat) (o : Obj) (g : Lgrp), s.md.boot.inReset = false → s.md.lgrp? n = some (o, g) →
    (∀ x, s.md.engines[g.engine]? = some x → x.haltReq = false → x.halted = false → x.stepping = none →
      exec (.loopGate n) s = .next (s.after ((s.md.start.passTo (s.md.tick + 1000)).lgrpGate n s.md.tick)))
    ∧ (∀ i, i < 4 → o.life = .enabled → s.md.lgrpHalted g = false → o.params.u Par.lgrpFeLimit i ≠ 0 → 0 < g.feCount.getD i 0 →
      o.params.u Par.lgrpFeTime i ≤ g.feCount.getD i 0 →
      exec (.feTimeReached n i) s =
        .next (s.after ((s.md.start.setData n (.lgrp { g with feHit := g.feHit.set i true })).lgrpFeFault n i (s.md.tickOf n))))
    ∧ (o.life = .draining → s.md.lgrpHalted g = false → g.dropAt = none → o.params.u Par.lgrpSettle ≤ g.settle →
      exec (.settleReached n) s = .next (s.after (((s.md.start.lgrpAxes n).foldl (fun d x => d.axisStill x.2.1) s.md.start).toIdle n (s.md.tickOf n)))))

/-- R344, R348: the next boundary of a PWM group, and the next firing of a trigger, come at their clock; the firings reach the DMA engine.

R349 … R351, R354: a fault input acts after the carrier boundaries that lie before it. One that goes low is low for every group; of a die with
one PWM group that selects the input and whose filter the low time exceeds, the group faults in mode 0, and the pairs are driven anew within
10 counter clocks (25 ns; which is free, log 137); a pulse under two of them may pass unseen. High again, a held group starts its clear time once all inputs it selects are high. Inputs
above 3 do not exist.

R338, R340: a pair that the centre-aligned carrier drives, whose interval W fits the period and is no dropped pulse: the low side is off from
C/2 − ⌊W/2⌋, the high side is on from `DEAD` later to C/2 + ⌈W/2⌉, the low side is on `DEAD` after that. R337, R349, R351, R352: a fault comes
before a force pattern, that before a standstill, that before the carrier, and a group that is not ENABLED or DRAINING drives `SAFE` (log 137).

R356 … R358: the bits of a sigma-delta input, as many as its decimation takes, form its result at the instant of the result. It reaches the
Loop island 150 to 300 ns later (R354; which is free, log 158). -/
def Obligations.PwmAndSigmaDelta : Prop :=
  (∀ (s : State) (n : Nat) (o : Obj) (g : Pwmg), s.md.boot.inReset = false → s.md.pwmg? n = some (o, g) →
    (nsOfCc g.next ≤ s.md.nextTick →
      exec (.pwmBoundary n) s = .next (s.after (MDie.fired ((s.md.start.passTo (nsOfCc g.next)).pwmBoundary n) n)))
    ∧ (∀ trig f, o.life = .enabled → s.md.frozen = false →
        (g.triggers o.params (ccOf s.md.nextTick)).2.find? (fun f => decide (f.1 = trig)) = some f → nsOfCc f.2 ≤ s.md.nextTick →
        exec (.pwmTriggerFire n trig) s = .next (s.after (MDie.fired ((s.md.start.passTo (nsOfCc f.2)).pwmTriggers n f.2) n))))
  ∧ (∀ (s : State) (i clocks n : Nat) (o : Obj) (g : Pwmg), s.md.boot.inReset = false →
    let r : MDie := s.md.start.pwmBefore (s.md.ns + 1)
    r.slotsOf .pwmg = [n] → r.pwmg? n = some (o, g) →
    let low : MDie := { r with pwmFault := r.pwmFault.set i true, free := r.free + (if clocks < 2 then 2 else 1) }
    let seen : Prop := 2 ≤ clocks ∨ Config.free (r.free + 1) 2 % 2 = 1
    let high : MDie := { r with pwmFault := r.pwmFault.set i false }
    let k := Config.free r.free 11 % 11
    (i < 4 → o.life = .enabled → r.frozen = false → bitOf (o.params.u Par.pwmgFaultSel) i = true → o.params.u Par.pwmgFaultFilt < clocks →
      o.params.u Par.pwmgFaultMode = 0 → seen → exec (.pwmFaultInputLow i clocks) s = .next (s.after
        ((low.pwmFaultNow n (low.faultLow &&& o.params.u Par.pwmgFaultSel) r.tick).gatesSet 0xFFF
          (ccOf (low.pwmFaultNow n (low.faultLow &&& o.params.u Par.pwmgFaultSel) r.tick).ns + k))))
    ∧ (i < 4 → r.frozen = false → clocks ≤ o.params.u Par.pwmgFaultFilt ∨ ¬ seen →
      exec (.pwmFaultInputLow i clocks) s = .next (s.after (low.gatesSet 0xFFF (ccOf r.ns + k))))
    ∧ (i < 4 → g.faultHold = true → high.faultLow &&& o.params.u Par.pwmgFaultSel = 0 → g.highAt = none →
      exec (.pwmFaultInputHigh i) s = .next (s.after (high.setData n (.pwmg { g with highAt := some r.ns }))))
    ∧ (4 ≤ i → exec (.pwmFaultInputLow i clocks) s = .next (s.after s.md.start) ∧ exec (.pwmFaultInputHigh i) s = .next (s.after s.md.start)))
  ∧ (∀ (ps : Params) (g : Pwmg) (v : PwmSet) (x : GatePair) (i b off : Nat),
    let dead := (v.pairs.getD i ⟨0, 0, 0⟩).dead
    let C := 2 * v.period * pwmPresc ps
    let W := (v.pairs.getD i ⟨0, 0, 0⟩).on * pwmPresc ps
    let safe := patternLevel (ps.u Par.pwmgSafe i)
    (x.src = .carrier → x.offAt = (none, none) → g.active = some v → g.start = some b → ps.u Par.pwmgMode = 0 → 0 < W →
      W + dead + ps.u Par.pwmgMinPulse ≤ C → dead + ps.u Par.pwmgMinPulse ≤ W →
      x.levelAt ps (some g) i (b + off) = (decide (C / 2 - W / 2 + dead ≤ off ∧ off < C / 2 + (W + 1) / 2),
        decide (off < C / 2 - W / 2 ∨ C / 2 + (W + 1) / 2 + dead ≤ off)))
    ∧ (∀ life, g.faultHold = true ∨ life = false → pairSource ps g life i = .pattern safe.1 safe.2)
    ∧ (∀ p, g.faultHold = false → g.force.getD i none = some p → pairSource ps g true i = .pattern (patternLevel p).1 (patternLevel p).2)
    ∧ (∀ m, g.faultHold = false → g.force.getD i none = none → g.still.getD i none = some m →
      pairSource ps g true i = .pattern false (decide (m = 1)))
    ∧ (g.faultHold = false → g.force.getD i none = none → g.still.getD i none = none → g.active = some v → g.start = some b →
      pairSource ps g true i = .carrier))
  ∧ (∀ (s : State) (k t : Nat) (o : Obj) (x : Sdin) (bits : List Bool), s.md.boot.inReset = false → s.md.sdin? (64 + k) = some (o, x) →
    o.life = .enabled → s.md.frozen = false → s.md.sdinInstant o x = some t → t ≤ s.md.nextTick → bits.length = sdinBits o.params →
    let r := x.form o.params bits t (t / 16000 * 16000)
    let d := (s.md.start.passTo t).draw 151
    exec (.sdinResult k bits) s = .next (s.after
      ((((d.1.setData (64 + k) (.sdin (r.1.deliver d.2))).orPar (64 + k) Par.sdinFlags r.2.2).postAll (64 + k) r.2.1))))

/-- R366, R374, R377, R379: a lane in training that has seen its valid sets is trained; one that is not UP by its timeout, and one without an uplink
for its loss limit, loses its link with causes 1 and 2; uplink frames with a wrong CRC, late ones and those that answer another frame are counted
or flagged, and not used. -/
def Obligations.LaneLinkRowsComplete : Prop :=
  ∀ (s : State) (k : Nat) (o : Obj) (l : Lane), s.md.boot.inReset = false → s.md.lane? (72 + k) = some (o, l) → o.life = .enabled →
    (l.link = 1 → exec (.laneTrained k) s = .next (s.after (s.md.start.setData (72 + k) (.dlane { l with link := 2, valid := 0 }))))
    ∧ (let due := l.since + o.params.u Par.dlaneTrainTimeout * 1000000
       l.link = 1 ∨ l.link = 2 → due ≤ s.md.nextTick → exec (.dlaneTrainTimeout k) s = .next (s.after
        ((s.md.start.passTo due).laneFault (72 + k) (faultEv Evt.laneLost s.md.tick (d8 1)) s.md.tick)))
    ∧ (l.link = 3 → o.params.u Par.dlaneLossLimit ≤ l.lossRun → exec (.lossLimitReached k) s = .next (s.after
        (s.md.start.laneFault (72 + k) (faultEv Evt.laneLost s.md.tick (d8 2)) s.md.tick)))
    ∧ (∀ code sof eof b, 2 ≤ l.link → l.frame ≠ [] → l.pendingUp = none →
        (l.judge o.params code eof b = [.crc] → eof ≤ 16000 → exec (.uplinkFrame k code sof eof b) s = .next (s.after
          ((s.md.start.passTo (s.md.tick + eof)).bump (72 + k) Par.dlaneUlCrcErrors 0 1)))
        ∧ (l.judge o.params code eof b = [.late] → 16000 < eof →
          exec (.uplinkFrame k code sof eof b) s = .next (s.after (s.md.start.bump (72 + k) Par.dlaneUlLate 0 1)))
        ∧ (l.judge o.params code eof b = [.seq] → eof ≤ 16000 → exec (.uplinkFrame k code sof eof b) s = .next (s.after
          ((s.md.start.passTo (s.md.tick + eof)).orPar (72 + k) Par.dlaneFlags 4)))
        ∧ (l.judge o.params code eof b = [] → eof ≤ 16000 →
          let a := l.accept sof s.md.tick b
          let r := a.1.reports o.params b s.md.tick
          let d := (((s.md.start.passTo (s.md.tick + eof)).setData (72 + k) (.dlane r.1)).orPar (72 + k) Par.dlaneFlags r.2.2.1).postAll (72 + k) (a.2 ++ r.2.1)
          exec (.uplinkFrame k code sof eof b) s = .next (s.after (match r.2.2.2 with
            | some e => d.laneEnd (72 + k) e.code s.md.tick
            | none => d))))

/-- R379, R387: slots stale for their limit, and not yet reported, are reported by `UL_STALE` with their mask, and the channels they feed are told; a slot
that has rested for its hold delay takes the content of a hold. -/
def Obligations.LaneSlotRowsComplete : Prop :=
  ∀ (s : State) (k i : Nat) (o : Obj) (l : Lane) (x : LaneSlot), s.md.boot.inReset = false → s.md.lane? (72 + k) = some (o, l) → o.life = .enabled →
    l.slots[0]? = some x → laneAxes o.params = 1 →
    (2 ≤ l.link → x.stale = true → x.staleReported = false → o.params.u Par.dlaneStaleLimit ≤ x.staleRun →
      let l' : Lane := { l with slots := l.slots.set 0 { x with staleReported := true } }
      exec (.staleLimitReached k) s = .next (s.after
        (((s.md.start.setData (72 + k) (.dlane l')).post (72 + k) (report Evt.ulStale s.md.tick (d8 1))).laneChannel o l' (72 + k) 0 s.md.tick false)))
    ∧ (i = 0 → l.link = 3 → o.params.u Par.dlaneSlotMode 0 = 2 → s.md.frozen = false → o.params.u Par.dlaneHoldDelay 0 ≤ x.rest →
      let r := s.md.start.slotContent s.md.tick o l 0 { x with rest := x.rest - 1 }
      r.2 = none → exec (.holdDelayReached k i) s = .next (s.after
        ((s.md.start.setData (72 + k) (.dlane { l with slots := l.slots.set 0 r.1 })).orPar (72 + k) Par.dlaneFlags 0)))

/-- R419: no command, link, reset, supply, debug, life-cycle or boundary-scan step changes anything of the island.

A step of the island reaches the motion side only as its request wires, its status frames and the reports that wait for the next frame: everything else of
the die is left, but for the outputs of the step before. -/
def Obligations.IslandStandsApart : Prop :=
  (∀ (c : Instr) (s t : State), islandRow c = false → exec c s = .next t → t.isl = s.isl)
  ∧ (∀ (c : Instr) (s t : State), islandRow c = true → exec c s = .next t →
    t.md = { s.md with out := [], ss1Wire := t.md.ss1Wire, safe := { s.md.safe with queue := t.md.safe.queue, missed := t.md.safe.missed } }
    ∧ (t.md.ss1Wire = s.md.ss1Wire ∨ t.md.ss1Wire = (t.isl.wires, s.md.ns) :: s.md.ss1Wire)
    ∧ (t.md.safe.queue = s.md.safe.queue ∨ ∃ f, t.md.safe.queue = s.md.safe.queue ++ [(s.md.ns, f)]))

/-- The island is in a legal state after reset. -/
def Obligations.IslandLegalAtReset : Prop :=
State.reset.isl.Legal

/-- Every step of the machine keeps the island in a legal state: two functions with a code 0 … 3, a function with a fault LOCKED, in FAULT both
LOCKED, before OPERATE both in STO, no operation without supply, at most 64 log entries. -/
def Obligations.StepKeepsIslandLegal : Prop :=
  ∀ s t : State, s.isl.Legal → step s = .next t → t.isl.Legal

/-- R435, R436: whatever the state, an STO wire is on only in OPERATE in RUN or SS1, a brake is energised only with it, and the safe-link output
is high only while every function that drives it runs. -/
def Obligations.OutputsOffOutsideRunAndSs1 : Prop :=
  ∀ (i : Island) (f : Nat),
    (i.stoOn f = true → i.powered = true ∧ i.state = 1 ∧ (i.fn f).st ≤ 1)
    ∧ (i.sbcOn f = true → i.stoOn f = true ∧ i.sbcUsed f = true ∧ (i.fn f).brkFault = 0)
    ∧ (i.linkOn = true → i.state = 1 ∧ ∀ g < 2, i.option g 3 = true → (i.fn g).st = 0)
    ∧ (i.ss1Req f = false ↔ i.powered = true ∧ i.state = 1 ∧ (i.fn f).st = 0)

/-! ## The safety island (chapter 14) -/

/-- R442: power-on starts the island afresh, every output off; an island that runs is not started again. R441: without supply nothing of its state
survives. R442: where both channels read the same codes and the self-test finds nothing, the island enters OPERATE with these codes and
both functions still in STO; where they differ it is in FAULT with both functions LOCKED. R426: a reading that agrees changes nothing; one
that does not is a class 3 fault. -/
def Obligations.IslandStartsAndStops : Prop :=
  ∀ s : State, s.isl.Legal →
    (s.isl.powered = false → ∀ mv, exec (.safePowerOn mv) s = .next (s.setIsl { Island.off with powered := true, supplyMv := mv }).quiet)
    ∧ (s.isl.powered = true → ∀ mv, exec (.safePowerOn mv) s = .next (s.setIsl s.isl).quiet)
    ∧ exec .islandStop s = .next (s.setIsl Island.off).quiet
    ∧ (s.isl.powered = true → s.isl.state = 0 → ∀ a b test,
        (∀ x, readCodes a = some x → readCodes b = some x → test = 0 →
          ∃ t, exec (.islandStartComplete a b test) s = .next t ∧ t.isl.state = 1 ∧ t.isl.codes = x ∧ t.isl.fns = s.isl.fns
            ∧ ∀ f < 2, t.isl.stoOn f = false)
        ∧ ((∀ x, ¬ (readCodes a = some x ∧ readCodes b = some x)) → ∃ t, exec (.islandStartComplete a b test) s = .next t ∧ t.isl.state = 2
            ∧ ∀ f < 2, (t.isl.fn f).st = 3 ∧ (t.isl.fn f).fault = 16)
        ∧ (∀ x, readCodes a = some x → readCodes b = some x → 16 ≤ test → test ≤ 19 →
          ∃ t, exec (.islandStartComplete a b test) s = .next t ∧ t.isl.state = 2 ∧ t.isl.codes = x
            ∧ ∀ f < 2, (t.isl.fn f).st = 3 ∧ (t.isl.fn f).fault = test))
    ∧ (s.isl.state = 1 → ∀ a b,
        (readCodes a = some s.isl.codes → readCodes b = some s.isl.codes →
          exec (.configReread a b) s = .next (s.setIsl s.isl).quiet)
        ∧ (readCodes a ≠ some s.isl.codes ∨ readCodes b ≠ some s.isl.codes →
          ∃ t, exec (.configReread a b) s = .next t ∧ t.isl.state = 2 ∧ ∀ f < 2, (t.isl.fn f).st = 3))

/-- R433: a reset that was high for 100 ms to 3 s is a valid one, a shorter or longer one is none; one that stays high is logged as code 32.
R437: a pulse of 100 … 500 ms on `BRK_PASS` records the pass of the brake; another one is logged as code 33; an interval that has
elapsed without a pass makes the test due. -/
def Obligations.IslandResetAndBrakeTests : Prop :=
  ∀ s : State, s.isl.Legal → s.isl.state ≠ 0 →
    (∀ us, (100000 ≤ us ∧ us ≤ 3000000 → exec (.safeResetFall us) s = .next (s.setIsl { s.isl with resetEdge := true }).quiet)
      ∧ (us < 100000 ∨ 3000000 < us → exec (.safeResetFall us) s = .next (s.setIsl s.isl).quiet))
    ∧ (∃ t, exec .resetStuck s = .next t ∧ t.isl.fns = s.isl.fns ∧ t.isl.logCount = (s.isl.logCount + 1) % 2 ^ 32
        ∧ t.isl.log = (⟨s.isl.logCount, s.isl.tick % 2 ^ 32, 32, 0, 88⟩ :: s.isl.log).take 64)
    ∧ (∀ f ms, f < 2 →
        (100 ≤ ms ∧ ms ≤ 500 → ∃ t, exec (.brkPassPulse f ms) s = .next t
          ∧ t.isl.fns = s.isl.fns.set f { s.isl.fn f with brkPass := s.isl.tick, brkDue := false } ∧ t.isl.log = s.isl.log)
        ∧ (ms < 100 ∨ 500 < ms → ∃ t, exec (.brkPassPulse f ms) s = .next t ∧ t.isl.fns = s.isl.fns
          ∧ t.isl.log = (⟨s.isl.logCount, s.isl.tick % 2 ^ 32, 33, 0, 95 + f⟩ :: s.isl.log).take 64))
    ∧ (∀ f sec, f < 2 → s.isl.sbcUsed f = true → (s.isl.fn f).brkDue = false → s.isl.brkInterval = some sec →
        sec ≤ (s.isl.tick - (s.isl.fn f).brkPass) / 2000 → ∃ t, exec (.brakeTestInterval f) s = .next t
          ∧ t.isl.fns = s.isl.fns.set f { s.isl.fn f with brkDue := true } ∧ t.isl.state = s.isl.state)

/-- R435, R436, R438, R440, R441: a switch of an energised brake that fails its test, and a switched-off wire that reads high, lock their function with
codes 8 and 5; an `EDM` input that has not followed in time locks it with code 9; a supply below 17 V for two ticks takes every running
function to STO. What passes its test changes nothing.

R428, R430, R431, R444: an input pair whose inputs have disagreed for the limit faults with code 1 and locks each function it is a source of; once
the SS1 time is over the function is in STO and its outputs are off; a test pulse that finds both inputs of a pair as they should be is
recorded; each safety tick counts one and sends a status frame to a die that is up. -/
def Obligations.IslandInputsAndOutputs : Prop :=
  (∀ s : State, s.isl.Legal → s.isl.state = 1 →
    (∀ f, f < 2 → exec (.sbcSwitchTest f true) s = .next (s.setIsl s.isl).quiet
      ∧ (s.isl.sbcOn f = true → ∃ t, exec (.sbcSwitchTest f false) s = .next t ∧ (t.isl.fn f).st = 3 ∧ (t.isl.fn f).brkFault = 8
          ∧ t.isl.sbcOn f = false ∧ t.isl.stoOn f = false))
    ∧ (exec (.stoTestPulse [false, false, false]) s = .next (s.setIsl s.isl).quiet)
    ∧ (s.isl.stoOn 0 = true → ∃ t, exec (.stoTestPulse [true, false, false]) s = .next t ∧ (t.isl.fn 0).st = 3 ∧ (t.isl.fn 0).fault = 5
        ∧ t.isl.stoOn 0 = false ∧ t.isl.fn 1 = s.isl.fn 1)
    ∧ (∀ k e, k < 4 → s.isl.edms[k]? = some e → s.isl.edmUsed k = true → e.followed = false → e.fault = 0 →
        e.since + s.isl.edmTicks < s.isl.tick → ∃ t, exec (.edmTimeExpiry k) s = .next t ∧ (t.isl.fn (k % 2)).st = 3)
    ∧ (2 ≤ s.isl.lowTicks → s.isl.supplyOff = false → ∃ t, exec .supplyLow s = .next t ∧ t.isl.supplyOff = true
        ∧ (∀ f < 2, (s.isl.fn f).st ≤ 1 → (t.isl.fn f).st = 2) ∧ ∀ f < 2, t.isl.stoOn f = false))
  ∧ (∀ s : State, s.isl.Legal → s.isl.state = 1 → s.isl.powered = true →
    (∀ k p, s.isl.pairs[k]? = some p → p.fault = 0 → s.isl.limit ≤ p.disc → ∃ t, exec (.discrepancy k) s = .next t
        ∧ (t.isl.pairs[k]?.map SafePair.fault) = some 1 ∧ ∀ f < 2, s.isl.source f k = true → (t.isl.fn f).st = 3)
    ∧ (∀ f, f < 2 → (s.isl.fn f).st = 1 → (s.isl.fn f).ss1 = 0 → ∃ t, exec (.ss1TimeElapsed f) s = .next t ∧ (t.isl.fn f).st = 2
        ∧ t.isl.stoOn f = false ∧ t.isl.ss1Req f = true ∧ t.isl.pairs = s.isl.pairs)
    ∧ (∀ low p, s.isl.mode 0 = 1 → s.isl.mode 1 ≠ 1 → s.isl.mode 2 ≠ 1 → s.isl.mode 3 ≠ 1 → s.isl.pairs[0]? = some p →
        low.getD 0 false = true → p.othA = false → p.ownB = true → p.fault < 2 ∨ (p.resB = 0 ∧ p.resOthA = 0) → exec (.safeTestPulse false low) s = .next (s.setIsl
          { s.isl with pairs := s.isl.pairs.set 0 { p with ownA := true, othB := low.getD 1 false, resA := 0, resOthB := 0 } }).quiet)
    ∧ (∀ r, ∃ t, exec (.safetyTick r) s = .next t ∧ t.isl = { s.isl.step r with notes := [] } ∧ t.isl.tick = s.isl.tick + 1
        ∧ (s.md.pairLink = true → s.md.boot.inReset = false → t.md.safe.queue = s.md.safe.queue ++ [(s.md.ns,
          { (s.isl.step r).frame with isl := { s.isl.step r with notes := s.md.safe.missed ++ (s.isl.step r).notes } })])))

/-- R431 … R434: at a tick, a demand takes a running function to SS1 where its option says so and to STO otherwise, and one that begins is counted; a
running function with no demand goes on; the SS1 time runs down; a function in STO or, its fault gone, in LOCKED runs again only on
the conditions of a restart with a valid reset (in STO also by automatic restart). -/
def Obligations.DemandAndRestartRules : Prop :=
  ∀ (i : Island) (f : Nat) (reset : Bool), i.Legal → f < 2 →
    ((i.fn f).st = 0 → ∀ k, i.demandSrc f = some k → ((i.fnStep f reset).fn f).st = if i.option f 0 then 1 else 2)
    ∧ ((i.fn f).st = 0 → i.demandSrc f = none → i.fnStep f reset = { i with fns := i.fns.set f { i.fn f with dem := false } })
    ∧ ((i.fn f).st = 1 → ((i.fnStep f reset).fn f).st = 1 ∧ ((i.fnStep f reset).fn f).ss1 = (i.fn f).ss1 - 1)
    ∧ ((i.fnStep f reset).fn f).demands = (if (i.demandSrc f).isSome ∧ (i.fn f).dem = false then ((i.fn f).demands + 1) % 2 ^ 32 else (i.fn f).demands)
    ∧ ((i.fn f).st = 2 → (((i.fnStep f reset).fn f).st = 0 ↔ i.ready f = true ∧ (reset = true ∨ i.option f 1 = true)))
    ∧ ((i.fn f).st = 3 → (((i.fnStep f reset).fn f).st = 0 ↔ i.ready f = true ∧ reset = true))
    ∧ (∀ g, g ≠ f → (i.fnStep f reset).fn g = i.fn g)

/-- R444: the oldest status frame that left the island before the tick in progress is taken into account: it is what the `SAFE` objects read from then
on. Without a frame for 8 ms the state reads UNKNOWN, once, with `SAFE_STATUS_LOST`. -/
def Obligations.StatusFramesMirrored : Prop :=
  ∀ s : State, s.md.boot.inReset = false →
    (∀ x r, s.md.safe.queue = x :: r → x.1 < s.md.tick → exec .safeStatusFrame s = .next (s.after
      (({ s.md.start with safe := { s.md.safe with queue := r } } : MDie).safeTake x.1 x.2 s.md.tick)))
    ∧ (∀ (d : MDie) sent f t, (d.safeTake sent f t).safe.last = some f ∧ (d.safeTake sent f t).safe.unknown = false
        ∧ (d.safeTake sent f t).safe.at_ = sent ∧ (d.safeTake sent f t).safe.queue = d.safe.queue)
    ∧ (s.md.safe.lost = false → s.md.safe.queue = [] → s.md.ns ≤ s.md.safe.at_ + 8000000 → s.md.safe.at_ + 8000000 ≤ s.md.nextTick →
        exec .safeStatusTimeout s = .next (s.after
          (({ s.md.start.passTo (s.md.safe.at_ + 8000000) with safe := { s.md.safe with unknown := true, lost := true } } : MDie).post 88
            (report Evt.safeStatusLost ((s.md.safe.at_ + 8000000) / 16000 * 16000) []))))

/-! ## Field I/O (chapter 13) -/

/-- R396 … R400, R404: at a sample instant of a live channel the output is checked, or the input is classified and filtered, a comparator edge being
resolved to 10 ns either way (R398, log 10); the filter of a
continuously sampled input runs out at its time and the input takes its new level; an off-test pulse is due at its channel's place in
the cycle. -/
def Obligations.FieldSamplesComplete : Prop :=
  ∀ (s : State) (c : Nat) (o : Obj) (ch : Chan), s.md.chan? c = some (o, ch) → o.life = .enabled → s.md.fieldLive = true →
    (∀ t mv ua ma, fioInstant o.params t = true → s.md.ns ≤ t → t ≤ s.md.nextTick →
      let u := if fioPeriod o.params = 0 then (10 * divOpen 19 t 10).toNat else t
      (ch.role = 3 →
        let r := ch.sampleOut o.params mv ma u (!s.md.field.low)
        exec (.fioSample c t mv ua ma) s = .next (s.after ((s.md.start.passTo t).fioTook c ch r.1 r.2)))
      ∧ (ch.role ≠ 3 → s.md.field.low = false →
        let r := ch.sampleIn o.params mv ua u
        exec (.fioSample c t mv ua ma) s = .next (s.after ((s.md.start.passTo t).fioTook c ch r.1 r.2))))
    ∧ (∀ b, ch.inp.start = some b → fioPeriod o.params = 0 → ch.role ≠ 3 →
        let due := b + o.params.u Par.fioFilter * 1000
        due ≤ s.md.nextTick →
        let r := ch.take o.params (!ch.inp.level) b due
        exec (.fioFilterExpiry c) s = .next (s.after ((s.md.start.passTo due).fioTook c ch r.1 r.2)))
    ∧ (c < 32 → ch.role = 3 → offTestAt c s.md.ns ≤ s.md.nextTick → exec (.fioOffTestPulse c) s = .next (s.after
        ((s.md.start.passTo (offTestAt c s.md.ns)).setChan c (ch.offTest o.params (offTestAt c s.md.ns)))))

/-- R405, R406: a thermal shutdown switches an output that is on off and is reported; an output that is off is left; a retry comes at its time;
while the sum of the currents keeps to its limit no output is switched off for it, and one output that alone exceeds it is switched off.

R409 … R411: a field supply that falls below its threshold, and one that comes back, are recorded and reported once; when the regulator stops
every channel loses its settings, and when it restarts under a living logic side the enabled channels are loaded again.

R410, R411: a silent logic side leaves every channel to its hold settings, from that moment; an output that is held with a timeout takes its
fallback when the timeout has run; when the logic side returns to a die that boots, what was held is kept for the report. -/
def Obligations.FieldOverloadsAndSupply : Prop :=
  (∀ (s : State) (c : Nat) (o : Obj) (ch : Chan), s.md.chan? c = some (o, ch) → ch.role = 3 →
    (ch.out.on = true →
      let r := ch.shutdown 1 s.md.ns s.md.fieldLive
      exec (.fioThermalShutdown c) s = .next (s.after ((s.md.start.setChan c r.1).postAll (32 + c) (r.2.map (fun e => { e with ns := s.md.tick })))))
    ∧ (ch.out.on = false → exec (.fioThermalShutdown c) s = .next (s.after s.md.start))
    ∧ (∀ a, ch.retryDue = some a → a ≤ s.md.nextTick →
      let r := ch.retry a
      let es := if s.md.field.silent.isSome then [] else r.2.map (fun e => { e with ns := s.md.tick })
      exec (.fioRetryExpiry c) s = .next (s.after (((s.md.start.passTo a).setChan c r.1).postAll (32 + c) es)))
    ∧ (∀ mas : List Nat, (List.range 32).foldl (fun n k => n + mas.getD k 0) 0 ≤ 4000 →
      exec (.fioTotalCurrentLimit mas) s = .next (s.after s.md.start))
    ∧ (∀ mas : List Nat, c < 32 → ch.out.on = true → (∀ k x, k < 32 → k ≠ c → s.md.chan? k = some x → x.2.role ≠ 3 ∨ x.2.out.on = false) →
        4000 < mas.getD c 0 →
      let r := ch.shutdown 2 s.md.ns s.md.fieldLive
      exec (.fioTotalCurrentLimit mas) s =
        .next (s.after ((s.md.start.setChan c r.1).postAll (32 + c) (r.2.map (fun e => { e with ns := s.md.tick }))))))
  ∧ (∀ (s : State) (mv : Nat),
    (s.md.field.low = false → exec (.fieldUndervoltage mv) s = .next (s.after
      (({ s.md.start with field := { s.md.field with mv := mv, low := true } } : MDie).fieldSupply 1 false)))
    ∧ (s.md.field.low = true → exec (.fieldUndervoltage mv) s = .next (s.after { s.md.start with field := { s.md.field with mv := mv } }))
    ∧ (s.md.field.low = true → exec (.fieldSupplyRestored mv) s = .next (s.after
      (({ s.md.start with field := { s.md.field with mv := mv, low := false } } : MDie).fieldSupply 1 true)))
    ∧ (s.md.field.low = true → exec .fieldRegulatorStop s = .next (s.after
      { s.md.start with field := { s.md.field with mv := 0, regulator := false, chans := s.md.field.chans.map Chan.lose } }))
    ∧ (s.md.field.regulator = true → exec .fieldRegulatorRestart s = .next (s.after s.md.start))
    ∧ (s.md.field.regulator = false → s.md.field.silent = none → ∃ x : MDie, exec .fieldRegulatorRestart s = .next (s.after x)
        ∧ x.field.regulator = true ∧ x.field.reload = true ∧ ∀ c o ch, c < 32 → s.md.chan? c = some (o, ch) → o.life = .enabled →
          x.chan? c = some (o, let y := ch.enable o.params s.md.ns; { y with out := { y.out with cmd := ch.out.cmd, on := false } }))
    ∧ (s.md.field.regulator = false → s.md.field.silent.isSome = true → exec .fieldRegulatorRestart s =
      .next (s.after { s.md.start with field := { s.md.field with regulator := true } })))
  ∧ (∀ s : State,
    (s.md.pairLink = false → s.md.field.silent = none → exec .logicSideSilent s = .next (s.after
      { s.md.start with field := { s.md.field with silent := some s.md.upNs, chans := s.md.field.chans.map Chan.silence } }))
    ∧ (s.md.pairLink = true → s.md.boot.inReset = false → exec .logicSideSilent s = .next (s.after s.md.start))
    ∧ (∀ c ch since d, s.md.field.silent = some since → s.md.field.chans[c]? = some ch → ch.held = true → ch.holdMode = true →
        ch.fellBack = false → s.md.start.passBoot (since + ch.holdMs * 1000000) = some d →
        exec (.fioHoldTimeout c) s = .next (s.after (d.setChan c (ch.holdTimeout since (since + ch.holdMs * 1000000)))))
    ∧ (∀ since, s.md.pairLink = true → s.md.boot.inReset = false → s.md.boot.ready = false → s.md.field.silent = some since →
        exec .logicSideReturn s = .next (s.after { s.md.start with field := { s.md.field with
          silent := none
          holdReport := some (chanMask s.md.field.chans (fun c => c.held && !c.fellBack && c.out.cmd),
            chanMask s.md.field.chans (fun c => c.fellBack), (s.md.upNs - since) / 1000000) } })))

/-! ## Ports, links, fabric (chapter 15) -/

/-- The rows of packets that are routed by their destination, with their types (R462, R463). -/
def routedRows (k : Nat) (p : FabPkt) : List (Instr × Nat) :=
  [(.streamPacket k p, 2), (.cmdPacket k p, 3), (.replyPacket k p, 4), (.eventPacket k p, 5), (.bindPacket k p, 6), (.e2eCreditPacket k p, 7),
   (.levelPacket k p, 11), (.bulkWritePacket k p, 12), (.bulkAckPacket k p, 13), (.bulkReadPacket k p [], 14), (.bulkDataPacket k p, 15)]

/-- R451, R452, R457: a `TRAIN` block in training records the readiness, preset and credits it carries, and an external lane that has settled and has
seen readiness 16 times comes UP, as an on-package one does at the end of its deskew; a lane that is not UP by its timeout is reported once,
and trains again every 100 ms; a port in service whose block lock is lost trains again with cause 2, one whose frame has been sent 8 times
with cause 3. -/
def Obligations.PortTrainingRows : Prop :=
  ∀ (s : State) (k : Nat) (p : Port), s.md.boot.inReset = false → s.md.ports[k]? = some p →
    (∀ valid eqOk b, p.link = 1 → bitOf (rdU b 2 1) 1 = false →
      let settled : Bool := decide (64 ≤ valid) && eqOk
      let p' : Port := { p with
        ready := if bitOf (rdU b 2 1) 0 then p.ready + 1 else p.ready
        preset := bitsOf (rdU b 2 1) 5 2
        credits := (List.range 4).map (fun c => rdU b (3 + c) 1 + 1) }
      let d := (s.md.start.setPort k p').emit (.line k (.train settled false))
      exec (.trainBlock k valid eqOk b) s = .next (s.after (if settled = true ∧ 16 ≤ p'.ready ∧ k < 2 then d.portCameUp k else d)))
    ∧ (p.link = 1 → 2 ≤ k → exec (.deskewComplete k) s = .next (s.after
        ((s.md.start.setPort k { p with credits := rxUnits, peerSerial := s.md.serial.toNat }).portCameUp k)))
    ∧ (let due := p.since + (s.md.portPs k).u Par.portTrainTimeout * 1000000
       ∀ d, p.link = 1 → k < 2 → p.timedOut = false → s.md.start.passBoot due = some d →
        exec (.portTrainTimeout k) s = .next (s.after
          ((d.setPort k { p with timedOut := true, since := due }).post (6 + k) (report Evt.portDown s.md.tick (d8 1 ++ [0] ++ d16 p.peerNode)))))
    ∧ (∀ d, p.link = 1 → p.timedOut = true → s.md.start.passBoot (p.since + 100000000) = some d →
        exec (.portRetrainTimer k) s = .next (s.after
          ((d.setPort k { p.train (p.since + 100000000) with timedOut := true }).emit (.line k (.train false false)))))
    ∧ (∀ o, p.link = 2 → s.md.obj? (6 + k) = some o → o.life = .enabled →
        exec (.blockLockLost k) s = .next (s.after (s.md.start.portWentDown k 2 1))
        ∧ (p.replayLimit = true → exec (.replayLimit k) s = .next (s.after (s.md.start.portWentDown k 3 1)))
        ∧ (p.replayLimit = false → exec (.replayLimit k) s = .next (s.after s.md.start)))

/-- R455, R456: on a port in service an `ACK` frees the frames it covers, a `NAK` sends the others again and is counted, `CREDIT` raises the credits of
two classes, and what these let through is sent (R459: in the order that the bulk share leaves it); an owed `ACK` leaves at least every µs. A port that is not UP takes none of these.

R454 … R456: a frame in sequence with a good CRC is accepted: its packet arrives, and its credits go back, every sixteenth with an `ACK`; a frame
with a bad CRC is counted and answered by a `NAK`; one out of sequence by one `NAK` until the sequence goes on (log 161). -/
def Obligations.LinkLayerRows : Prop :=
  (∀ (s : State) (k : Nat) (p : Port), s.md.boot.inReset = false → s.md.ports[k]? = some p →
    let q : Port := p.clock (match s.md.obj? (6 + k) with | some o => o.params.u Par.portBulkMin | none => 0) s.md.upNs
    (p.link = 2 →
      (∀ lseq, let r := q.ack (lseq % 4096)
        (r.1.sent ≠ [] ∨ p.withdraw = none → exec (.ackBlock k lseq) s = .next (s.after (s.md.start.putSent k r.1 r.2)))
        ∧ (∀ w, r.1.sent = [] → p.withdraw = some w → exec (.ackBlock k lseq) s =
            .next (s.after (s.md.start.putSent k { r.1 with withdraw := some (min w s.md.upNs) } r.2))))
      ∧ (∀ lseq, let r := p.nak (lseq % 4096)
          let d := s.md.start.putPort k r.1 r.2.1
          exec (.nakBlock k lseq) s = .next (s.after (if r.1.sent = [] then d else d.bump (6 + k) Par.portReplays 0 1)))
      ∧ (∀ a n b m, exec (.creditBlock k a n b m) s =
          .next (s.after (s.md.start.putSent k ((q.credit a n).1.credit b m).1 ((q.credit a n).2 ++ ((q.credit a n).1.credit b m).2))))
      ∧ (p.ackOwed ≠ 0 → exec (.ackTimer k) s =
          .next (s.after (s.md.start.putPort k { p with ackOwed := 0 } [.ack ((p.rxSeq + 4095) % 4096)]))))
    ∧ (p.link ≠ 2 → ∀ lseq a n b m, exec (.ackBlock k lseq) s = .next (s.after s.md.start) ∧ exec (.nakBlock k lseq) s = .next (s.after s.md.start)
        ∧ exec (.creditBlock k a n b m) s = .next (s.after s.md.start)))
  ∧ (∀ (s : State) (k cls : Nat) (b host : List Byte) (p : Port), s.md.boot.inReset = false → s.md.ports[k]? = some p → p.link = 2 →
    (∀ m, p.rxSeq < 4096 → parsePacket b = some m → p.ackOwed < 15 →
      exec (.linkFrame k p.rxSeq cls true b host) s = .next (s.after
        ((s.md.start.putPort k { p with rxSeq := (p.rxSeq + 1) % 4096, nakSent := false, ackOwed := p.ackOwed + 1 }
          [.credit cls ((b.length + 63) / 64)]).arrived k m host)))
    ∧ (∀ m, p.rxSeq < 4096 → parsePacket b = some m → p.ackOwed = 15 →
      exec (.linkFrame k p.rxSeq cls true b host) s = .next (s.after
        ((s.md.start.putPort k { p with rxSeq := (p.rxSeq + 1) % 4096, nakSent := false, ackOwed := 0 }
          [.ack p.rxSeq, .credit cls ((b.length + 63) / 64)]).arrived k m host)))
    ∧ (∀ lseq, exec (.linkFrame k lseq cls false b host) s = .next (s.after
        ((s.md.start.putPort k { p with nakSent := true } [.nak p.rxSeq]).bump (6 + k) Par.portCrcErrors 0 1)))
    ∧ (∀ lseq, lseq % 4096 ≠ p.rxSeq → exec (.linkFrame k lseq cls true b host) s =
        .next (s.after (s.md.start.putPort k { p with nakSent := true } (if p.nakSent then [] else [.nak p.rxSeq])))))

/-- R465, R472: a packet that arrives without hops left is dropped and counted; one for another node goes out by the port of its route with one hop
less, or is dropped and counted where no port of its route is UP; one that arrives at a port that is not UP is not taken. -/
def Obligations.RoutedPacketsForwarded : Prop :=
  ∀ (s : State) (k ty : Nat) (p : FabPkt) (c : Instr), s.md.boot.inReset = false → (c, ty) ∈ routedRows k p →
    (s.md.portUp k = true → p.hops = 0 → exec c s = .next (s.after (s.md.start.bump (6 + k) Par.portDropped 0 1)))
    ∧ (s.md.portUp k = true → p.hops ≠ 0 → p.dst ≠ s.md.fab.node →
        (∀ j, s.md.fab.portFor s.md.portUp p.dst = some j →
          exec c s = .next (s.after (s.md.start.sendOn j ⟨ty, { p with hops := p.hops - 1 }⟩)))
        ∧ (s.md.fab.portFor s.md.portUp p.dst = none → exec c s = .next (s.after (s.md.start.bump (6 + k) Par.portDropped 0 1))))
    ∧ (s.md.portUp k = false → exec c s = .next (s.after s.md.start))

/-- R217, R231, R461, R463, R464, R475, R81: what a packet for this node does. Stream records wait for the next class 0 tick; `BIND` removes a
receiver, or adds one and sends it the samples held; a command of a remote client goes through its checks, and takes an action slot where it passes;
a reply record is written for the host it names, an event record to the
ring it names; credits open places of the command window; `LEVEL` sets the time of the switch. -/
def Obligations.PacketsForThisNode : Prop :=
  ∀ (s : State) (k : Nat) (p : FabPkt), s.md.boot.inReset = false → s.md.portUp k = true → p.hops ≠ 0 → p.dst = s.md.fab.node →
    s.md.fab.node ≠ 0xFFFF →
    (let rs := (List.range (min p.xtag (p.payload.length / 48))).map (fun i => decodeRecord ((p.payload.drop (48 * i)).take 48))
     exec (.streamPacket k p) s = .next (s.after { s.md.start with streamIn := s.md.streamIn ++ rs }))
    ∧ (∀ n o o' a, s.md.find p.xaux = some (n, o') → s.md.axis? n = some (o, a) → p.xtag % 2 = 0 → exec (.bindPacket k p) s = .next (s.after
        (s.md.start.setData n (.axis { a with ra := { a.ra with receivers := a.ra.receivers.filter (fun r => decide (r.1 ≠ p.src)) } }))))
    ∧ (∀ n o o' a, s.md.find p.xaux = some (n, o') → s.md.axis? n = some (o, a) → p.xtag % 2 = 1 →
        let others := a.ra.receivers.filter (fun r => decide (r.1 ≠ p.src))
        let rs := s.md.bindRecords n o a
        others.length < 32 → exec (.bindPacket k p) s = .next (s.after
          ((s.md.start.setData n (.axis { a with ra := { a.ra with receivers := others ++ [(p.src, rs.isEmpty)] } })).sendRecords p.src rs)))
    ∧ (s.md.boot.ready = true →
        let r := pktDecode (s.md.cmdClient p.src (bitsOf p.xtag 4 3)) (bitsOf p.xtag 4 3) (p.xtag % 8) p.payload
        exec (.cmdPacket k p) s = .next (s.after (s.md.start.orHold (s.md.start.take false r.1 r.2 none) r.1 r.2 none 0))
        ∧ (∀ op : Op, r.1 = op.code → s.md.start.Accepts false op r.2 →
            exec (.cmdPacket k p) s = .next (s.after (s.md.start.queued false op r.2 (replyTo op.code r.2 none)))))
    ∧ (∀ port, originHost (bitsOf p.xtag 4 3) = some port → p.xaux = 1 → exec (.replyPacket k p) s = .next (s.after
        (s.md.start.takeReplyRec port (p.xtag % 8) (fitBytes 32 p.payload))))
    ∧ (p.xaux = 1 → exec (.eventPacket k p) s = .next (s.after (s.md.start.toOrigin (bitsOf p.xtag 4 3) (p.xtag % 8) (fitBytes 32 p.payload))))
    ∧ (let e := alSet s.md.fab.e2e p.src ((alGet s.md.fab.e2e p.src).getD 0 - p.xtag)
       exec (.e2eCreditPacket k p) s = .next (s.after { s.md.start with fab := { s.md.fab with e2e := e } }))
    ∧ (let w := some (p.xtag % 256, rdU p.payload 0 8 * 1000000000 + rdU p.payload 8 4)
       exec (.levelPacket k p) s = .next (s.after { s.md.start with fab := { s.md.fab with switch := w } }))

/-- R467, R468: a die that is not the candidate passes a `TOPO` report toward it; a `ROUTE` segment of a version in progress joins the segments held,
and with the sixteenth the table is in force. (The holder of a refused base, which the segment does not name, is free, log 104.)

R467: a `DISC` packet that carries the candidate held, with no newer heartbeat, from a neighbour whose base is known and whose level is recorded
already, only names the neighbour; one with a lower key makes that key the candidate, which is passed on at once. -/
def Obligations.DiscoveryAndTopology : Prop :=
  (∀ (s : State) (k : Nat) (p : FabPkt), s.md.boot.inReset = false → s.md.portUp k = true → p.hops ≠ 0 →
    (∀ j, (Topo.decode p.payload).disc.heldBase = 0xFFFF → s.md.fab.cand ≠ s.md.fab.own → s.md.fab.candPort = some j → s.md.portUp j = true →
      exec (.topoPacket k p) s = .next (s.after (s.md.start.sendOn j ⟨9, { p with hops := p.hops - 1 }⟩)))
    ∧ (p.dst = s.md.fab.node → p.xaux.toNat = s.md.fab.inVersion → p.xtag % 16 ∉ s.md.fab.inSegs → s.md.fab.inSegs.length < 15 →
      let f : Fab := { s.md.fab with
        inSegs := p.xtag % 16 :: s.md.fab.inSegs
        inRoutes := decodeSegment p.payload (p.xtag % 16) s.md.fab.inRoutes }
      exec (.routePacket k p) s = .next (s.after { s.md.start with fab := f }))
    ∧ (p.dst = s.md.fab.node → p.xaux.toNat = s.md.fab.inVersion → p.xtag % 16 ∉ s.md.fab.inSegs → s.md.fab.inSegs.length = 15 →
      let rs := decodeSegment p.payload (p.xtag % 16) s.md.fab.inRoutes
      let d : MDie := { s.md.start with free := s.md.free + 2, fab := { s.md.fab with inSegs := [], inRoutes := [] } }
      exec (.routePacket k p) s = .next (s.after (d.applyRoutes p.dst p.xaux.toNat p.src s.md.fab.cand rs (Config.free (s.md.free + 1) (2 ^ 64) % 2 ^ 64)))))
  ∧ (∀ (s : State) (k : Nat) (p : FabPkt) (q : Port), s.md.boot.inReset = false → s.md.portUp k = true → s.md.ports[k]? = some q →
    let x := Disc.decode p.payload
    let d := s.md.start.setPort k { q with peerNode := 0xFFFF, peerSerial := x.serial }
    x.heldBase = 0xFFFF →
    (x.cand.lt s.md.fab.cand = false → x.cand ≠ s.md.fab.cand → exec (.discPacket k p) s = .next (s.after d))
    ∧ (x.cand.lt s.md.fab.cand = true → x.cand ≠ s.md.fab.cand →
      let f : Fab := { s.md.fab with
        st := 1
        cand := x.cand
        heartbeat := x.heartbeat
        seenAt := s.md.upNs
        candPort := some k
        since := s.md.upNs
        reported := false
        reports := [] }
      exec (.discPacket k p) s = .next (s.after (({ d with fab := f } : MDie).sendDisc none))))

/-- R460, R467, R468, R471, R475: the timers of the fabric, each at its time. A bulk round renews the budgets and sends what was held; every 100 µs
`DISC` leaves on the UP ports, with a new heartbeat of a candidate's own; a candidate without a heartbeat for 1 ms gives way to the own key;
a candidate held for `DISC_SETTLE` is sent the report; a package without an external lane forms its own fabric; the commit level switches
at its time, and is recorded (R555). -/
def Obligations.FabricTimers : Prop :=
  ∀ (s : State) (d : MDie), s.md.boot.inReset = false →
    (s.md.start.passBoot (s.md.fab.bulkRound + 10000) = some d → s.md.fab.bulkHeld = [] → exec .bulkRound s = .next (s.after
      { d with fab := { d.fab with bulkSent := [], bulkOld := [], bulkHeld := [], bulkRound := d.upNs / 10000 * 10000 } }))
    ∧ (s.md.start.passBoot (s.md.fab.lastDisc + 100000) = some d → s.md.fab.cand = s.md.fab.own → exec .discTimer s = .next (s.after
        (({ d with fab := { d.fab with lastDisc := d.upNs, ownHb := (d.fab.ownHb + 1) % 2 ^ 32, heartbeat := (d.fab.ownHb + 1) % 2 ^ 32 } } : MDie).sendDisc none)))
    ∧ (s.md.start.passBoot (s.md.fab.seenAt + 1000000) = some d → s.md.fab.cand ≠ s.md.fab.own → exec .candidateStale s = .next (s.after
        (({ d with fab := { d.fab.ownCand d.upNs with st := 1 } } : MDie).sendDisc none)))
    ∧ (s.md.start.passBoot s.md.settleDue = some d → s.md.fab.reported = false → exec .discSettleExpiry s = .next (s.after d.sendTopo))
    ∧ (s.md.start.passBoot s.md.aloneDue = some d → 3 ≤ s.md.boot.stage → s.md.fab.alone = false → s.md.portUp 0 = false → s.md.portUp 1 = false →
        (s.md.fab.node ≠ 0xFFFF → exec .ownFabricTimeout s = .next (s.after { d with fab := { d.fab with alone := true } }))
        ∧ (s.md.fab.node = 0xFFFF → s.md.dieIndex = 0 →
          let e : MDie := { d with fab := { d.fab with alone := true } }
          let base := if s.md.fab.reqBase = 0xFFFF then 0 else s.md.fab.reqBase
          let x := e.applyRoutes base ((s.md.fab.version + 1) % 2 ^ 32) base s.md.fab.own (ringRoutes base 0 s.md.nDies) 0
          exec .ownFabricTimeout s = .next (s.after x)))
    ∧ (∀ v t, s.md.fab.switch = some (v, t) → t ≤ s.md.nextTick →
        let d := (((({ s.md.start.passTo t with fab := { s.md.fab with commit := v, switch := none } } : MDie)).setPar 0 Par.systemCommitLevel 0 (BitVec.ofNat 64 v)).post 0
          (report Evt.levelCommitted s.md.tick (d8 v ++ d8 s.md.fab.commit)))
        exec .levelSwitchTime s = .next (s.after (if v = s.md.fab.commit then d else d.jnote [{ jrec 7 with value := BitVec.ofNat 64 v }])))

/-! ## Network time (chapter 16) -/

/-- R485 … R488: time messages that arrive at an UP port. A `SYNC` that is not of the port and grandmaster in force is not taken; one that is gives
an offset to the servo, and is passed on through the other UP ports with the time it stayed (which is free, log 112). `ANNOUNCE` of a die that may not be grandmaster is not taken; the first
candidate is followed and passed on. `PDELAY_REQ` is answered with its turnaround; `PDELAY_RESP` is a delay sample of the outstanding
request, of which the last 16 are kept. -/
def Obligations.TimeMessagesReceived : Prop :=
  ∀ (s : State) (k arr : Nat) (b : List Byte), s.md.boot.inReset = false → s.md.portUp k = true → arr ≤ s.md.nextTick →
    let d := s.md.start.passTo arr
    let msg := TimeMsg.decode b
    (s.md.mer.isGm = true ∨ d.syncPort ≠ some k ∨ msg.gmNode ≠ s.md.mer.candNode → exec (.syncMessage k arr b) s = .next (s.after d))
    ∧ (s.md.mer.isGm = false → d.syncPort = some k → msg.gmNode = s.md.mer.candNode →
        let out := d.mer.forward d.timePs k msg (Config.free d.free 131072001 % 131072001 : Nat)
        let x := (d.upPorts.filter (fun j => decide (j ≠ k))).foldl (fun (d : MDie) j => d.sendTime j out) { d with free := d.free + 1 }
        exec (.syncMessage k arr b) s = .next (s.after
          (({ x with free := x.free + 1 } : MDie).merDo (x.mer.sync x.timePs k arr msg x.tick x.upNs x.free))))
    ∧ (msg.key.prio = 255 → exec (.announceMessage k arr b) s = .next (s.after d))
    ∧ (s.md.mer.cand = none → s.md.mer.isGm = false → msg.key.prio ≠ 255 → d.gmKey = none →
        exec (.announceMessage k arr b) s = .next (s.after
          ((d.merSet (d.mer.follow (some msg.key) msg.gmNode msg.heartbeat (some k) d.tick d.upNs)).timeOnPorts
            (d.upPorts.filter (fun j => decide (j ≠ k))) 2)))
    ∧ (let r := d.mer.compose 4 0 (((d.ns : Int) - arr) * 65536)
       exec (.pdelayReqMessage k arr) s = .next (s.after (({ d with mer := r.1 } : MDie).sendTime k r.2)))
    ∧ (∀ l t1, s.md.mer.lanes[k]? = some l → l.req = some t1 →
        let x : PdLane := ⟨((((arr : Int) - t1) * 65536 - msg.corr) :: l.samples).take 16, none⟩
        exec (.pdelayRespMessage k arr b) s = .next (s.after { d with mer := { d.mer with lanes := d.mer.lanes.set k x } }))

/-- R483, R486, R488, R490, R494, R495: the timers of Meridian, each at its time, and the edges of `PPS_IN`. The grandmaster sends `SYNC` on every UP
port each interval, another die none; on an external port that is UP a delay measurement begins, without one none; a grandmaster's heartbeat goes on every millisecond;
a candidate not seen for 4 ms is dropped, and a die that may be grandmaster becomes it; without `SYNC` for its limit a following die enters holdover, and a disciplined grandmaster without
`PPS_IN` for 2 s reads LOCKING; an edge is stamped in mode 1 and ignored in mode 0. -/
def Obligations.TimeTimers : Prop :=
  ∀ (s : State) (d : MDie), s.md.boot.inReset = false →
    let ps := s.md.timePs
    (s.md.start.passBoot (s.md.mer.syncAt + ps.u Par.timeSyncInterval * 1000) = some d →
      let d' : MDie := { d with mer := { d.mer with syncAt := d.upNs } }
      exec .syncIntervalTimer s = .next (s.after (if s.md.mer.isGm then d'.timeOnPorts d'.upPorts 1 else d')))
    ∧ (s.md.start.passBoot (s.md.mer.pdelAt + ps.u Par.timePdelayInterval * 1000000) = some d → d.upPorts.filter isExtPort = [] →
        exec .pdelayTimer s = .next (s.after { d with mer := { d.mer with pdelAt := d.upNs } }))
    ∧ (∀ k, s.md.start.passBoot (s.md.mer.pdelAt + ps.u Par.timePdelayInterval * 1000000) = some d → d.upPorts.filter isExtPort = [k] →
        let d' : MDie := { d with mer := { d.mer with
          pdelAt := d.upNs
          lanes := listMod d.mer.lanes k (fun l => { l with req := some d.ns }) } }
        exec .pdelayTimer s = .next (s.after (d'.timeOnPorts [k] 3)))
    ∧ (s.md.start.passBoot (s.md.mer.annAt + 1000000) = some d → ∀ k c, d.gmKey = some k → s.md.mer.cand = some c → s.md.mer.isGm = true →
        let d' : MDie := { d with mer := { d.mer with
          annAt := d.upNs
          cand := some k
          candNode := d.fab.node
          heartbeat := (d.mer.heartbeat + 1) % 2 ^ 32
          seenAt := d.upNs } }
        exec .announceTimer s = .next (s.after (d'.timeOnPorts d'.upPorts 2)))
    ∧ (s.md.start.passBoot (s.md.mer.seenAt + 4000000) = some d →
        (s.md.mer.isGm = true → exec .gmCandidateStale s = .next (s.after d))
        ∧ (s.md.mer.isGm = false → ∀ c, s.md.mer.cand = some c → d.gmKey = none →
          exec .gmCandidateStale s = .next (s.after (d.merSet (d.mer.candStale none d.fab.node d.tick d.upNs))))
        ∧ (s.md.mer.isGm = false → ∀ c k, s.md.mer.cand = some c → d.gmKey = some k →
          let x := d.merSet (d.mer.becomeGm k d.fab.node d.tick d.upNs)
          exec .gmCandidateStale s = .next (s.after (x.timeOnPorts x.upPorts 2))))
    ∧ (s.md.start.passBoot (s.md.mer.lastSync + ps.u Par.timeSyncLoss * ps.u Par.timeSyncInterval * 1000) = some d →
        s.md.mer.isGm = false → (s.md.mer.st = 1 ∨ s.md.mer.st = 2) →
        exec .syncLossTimeout s = .next (s.after (d.merSet (d.mer.enter 3 1 d.tick d.upNs))))
    ∧ (∀ t, s.md.mer.ppsAt = some t → s.md.start.passBoot (t + 2000000000) = some d → s.md.mer.isGm = true → s.md.mer.st = 2 →
        exec .ppsSilence s = .next (s.after (d.merSet (d.mer.enter 1 0 d.tick d.upNs))))
    ∧ (∀ pin, pin ≤ s.md.nextTick →
        let e := s.md.start.passTo pin
        (ps.u Par.timePpsMode = 0 → exec (.ppsInEdge pin) s = .next (s.after { e with free := e.free + 1 }))
        ∧ (ps.u Par.timePpsMode = 1 → s.md.mer.ppsAt = none → exec (.ppsInEdge pin) s = .next (s.after
            (({ e with
                free := e.free + 1
                mer := { e.mer with
                  ppsAt := some e.upNs
                  ppsLast := BitVec.ofNat 64 (pin / 1000000000 % 2 ^ 32 * 2 ^ 32 + pin % 1000000000) } } : MDie).post 1
              (pinEv Evt.ppsCaptured pin (d32 (pin % 1000000000)))))))

/-- R490 … R492: the first offset of a die that has none steps MTIME by its negative, and the state becomes LOCKING; a later offset beyond
`TIME.JUMP_LIMIT` never steps, but leads to STEP_REFUSED; any other offset leaves LOCKING or LOCKED, without a step, with a frequency correction
within `TIME.SLEW_MAX`. -/
def Obligations.ServoNeverJumpsByItself : Prop :=
  ∀ (ps : Params) (m : Meridian) (num d : Int) (pps : Bool) (ns now free : Nat), m.st ≤ 4 →
    let r := m.take ps num d pps ns now free
    let jump : Int := ps.u Par.timeJumpLimit
    (m.st = 0 → r.1.st = 1 ∧ r.2.2 = some (-(divOpen 162 num d)))
    ∧ (m.st ≠ 0 → jump * d < num.natAbs → r.1.st = 4 ∧ r.2.2 = none ∧ r.1.isGm = m.isGm ∧ r.1.cand = m.cand)
    ∧ (m.st ≠ 0 → num.natAbs ≤ jump * d → r.2.2 = none ∧ (r.1.st = 1 ∨ r.1.st = 2)
        ∧ r.1.freqAdj.natAbs ≤ 1000 * ps.u Par.timeSlewMax ∧ r.1.isGm = m.isGm ∧ r.1.cand = m.cand)

/-! ## Bulk packets and the DMA engine (chapter 17) -/

/-- R463, R504, R510: a `BULK_WRITE` to an address it may reach is stored in the SRAM and acknowledged where it asks for it, one that may not reach its
address is answered by an error; a `BULK_READ` of at most 512 bytes is answered with the bytes of the SRAM, rounded up to whole groups of 8;
an acknowledgement lowers the count its channel owes, and the last one completes the descriptor that waits for it; data go to the channel that waits for them.

R502, R506, R508, R510, R512, R513: a request pulse of an enabled channel is counted, and lost when the count is full; a fetched descriptor without
`VALID` leaves the channel waiting, a good one makes it ready; a burst from SRAM to SRAM copies its bytes, and the engine is free; a finished descriptor completes and
the next is fetched; a fetch from outside the die that has no answer in time, and one answered by an error, are bus errors of causes 1 and 2. -/
def Obligations.BulkAndDmaRows : Prop :=
  (∀ (s : State) (k : Nat) (p : FabPkt) (host : List Byte), s.md.boot.inReset = false → s.md.portUp k = true → p.hops ≠ 0 →
    p.dst = s.md.fab.node → s.md.fab.node ≠ 0xFFFF →
    let a := rdU p.payload 0 8
    let data := p.payload.drop 8
    (s.md.bulkOk p.src a data.length = false →
      exec (.bulkWritePacket k p) s = .next (s.after (s.md.start.emit (.bulkError p.src p.xaux.toNat))))
    ∧ (s.md.bulkOk p.src a data.length = true → dmaRegion a = 0 →
        let d := s.md.start.sramStore (bitsOf a 22 0) data
        exec (.bulkWritePacket k p) s = .next (s.after (if bitOf p.xtag 0 then d.send (d.packetTo 13 p.src 0 p.xaux []) else d)))
    ∧ (512 < p.xtag ∨ s.md.bulkOk p.src a p.xtag = false →
        exec (.bulkReadPacket k p host) s = .next (s.after (s.md.start.emit (.bulkError p.src p.xaux.toNat))))
    ∧ (p.xtag ≤ 512 → s.md.bulkOk p.src a p.xtag = true → dmaRegion a = 0 → s.md.mem.badIn 0 (bitsOf a 22 0) p.xtag = none →
        exec (.bulkReadPacket k p host) s = .next (s.after (s.md.start.send (s.md.start.packetTo 15 p.src 0 p.xaux
          (fitBytes ((p.xtag + 7) / 8 * 8) (s.md.mem.sram.readN (bitsOf a 22 0) p.xtag))))))
    ∧ (∀ n c, s.md.dmaOfTag p.xaux = some (n, c) → 2 ≤ c.acks →
        exec (.bulkAckPacket k p) s = .next (s.after (s.md.start.setDmac n { c with acks := c.acks - 1 })))
    ∧ (∀ n c, s.md.dmaOfTag p.xaux = some (n, c) → c.acks = 1 → c.phase = .finish →
        exec (.bulkAckPacket k p) s = .next (s.after ((s.md.start.setDmac n { c with acks := 0 }).dmaComplete n)))
    ∧ (∀ n c x, s.md.dmaOfTag p.xaux = some (n, c) → c.phase = .fetch x →
        exec (.bulkDataPacket k p) s = .next (s.after (s.md.start.setDmac n { c with inData := c.inData ++ p.payload }))))
  ∧ (∀ (s : State) (n : Nat) (o : Obj) (c : Dmac) (host : List Byte), s.md.boot.inReset = false → s.md.dmac? n = some (o, c) →
    (o.life = .enabled → o.params.u Par.dmacReqSrc = 1 ∨ o.params.u Par.dmacReqSrc = 2 ∨ o.params.u Par.dmacReqSrc = 5 →
      let r := c.pulse s.md.tick
      let d := (s.md.start.setDmac n r.1).postAll n r.2.1
      exec (.dmaRequestPulse n) s = .next (s.after (if r.2.2 then d.orPar n Par.dmacFlags 1 else d)))
    ∧ (o.life ≠ .enabled → exec (.dmaRequestPulse n) s = .next (s.after s.md.start))
    ∧ (∀ a, c.phase = .fetch a → dmaRegion a = 0 → s.md.mem.badIn 0 (bitsOf a 22 0) 48 = none →
        let r := c.fetched o.params (s.md.mem.sram.readN (bitsOf a 22 0) 48) s.md.tick
        r.2 = .waiting → exec (.descFetchComplete n host) s =
          .next (s.after ((s.md.start.setDmac n r.1).post n (report Evt.chainWait s.md.tick (d64 r.1.cur)))))
    ∧ (∀ a, c.phase = .fetch a → dmaRegion a = 0 → s.md.mem.badIn 0 (bitsOf a 22 0) 48 = none →
        let r := c.fetched o.params (s.md.mem.sram.readN (bitsOf a 22 0) 48) s.md.tick
        r.2 = .run → r.1.phase = .ready → exec (.descFetchComplete n host) s = .next (s.after (s.md.start.setDmac n r.1)))
    ∧ (∀ len x m, c.phase = .burst len → c.desc = some x → s.md.dmaGood c x len = (m, none) → dmaRegion x.src = 0 → x.srcInc = true →
        x.dstInc = true → x.fence = false → c.abort = none →
        let src := dmaAddr x.src true x.srcW c.moved
        let dst := dmaAddr x.dst true x.dstW c.moved
        dmaRegion dst = 0 →
        let d := s.md.start.sramStore (bitsOf dst 22 0) (s.md.mem.sram.readN (bitsOf src 22 0) m)
        exec (.dmaBurstEnd n host) s = .next (s.after ((d.setDmac n { c.burstDone m with
          acks := c.acks
          sentAt := c.sentAt
          since := s.md.upNs }).dmaFree n)))
    ∧ (∀ x, c.phase = .finish → c.acks = 0 → c.abort = none → c.desc = some x → x.wb = false →
        let r := c.complete x s.md.tick
        let d := (s.md.start.setDmac n r.1).postAll n r.2
        exec (.descComplete n) s = .next (s.after (match r.1.phase with
          | .fetch _ => d.dmaIssue n
          | _ => d)))
    ∧ (∀ a d, c.phase = .fetch a → dmaRegion a ≠ 0 → s.md.start.passBoot (c.since + o.params.u Par.dmacBusTimeout * 1000) = some d →
        exec (.dmaBusTimeout n) s = .next (s.after (d.dmaBusErr n a false 0 1)))
    ∧ (∀ a, c.phase = .fetch a → exec (.errorAnswer n) s = .next (s.after (s.md.start.dmaBusErr n a false 0 2)))
    ∧ (c.phase = .idle → exec (.errorAnswer n) s = .next (s.after s.md.start)))

/-! ## CAN FD controllers (chapter 18) -/

/-- R521 … R524, R526, R527, R533, R536: what a controller on the bus takes from it. A frame that no filter accepts is counted and kept nowhere, one that a filter
sends to a FIFO is pushed there, one for a mailbox waits there for the next tick, or is counted where the mailbox is not; a pending frame that was sent completes its buffer, one whose attempt failed stays or ends as its rules say;
each time the error counters take the values of the bus. A controller that is not on the bus takes nothing.

R524, R525, R531: an enabled controller that may recover by itself goes bus off with its event and stays ENABLED, and comes back after its recovery;
one that integrates is on the bus after 11 recessive bits; a beat read from a receive window takes it from the oldest record, and one
written to the transmit window is kept until its record is whole, which is then submitted as `CAN_TX` would, or lost with its flag. -/
def Obligations.CanRows : Prop :=
  (∀ (s : State) (ctrl : Nat) (o : Obj) (c : Canc) (sof tec rxc lec : Nat), s.md.boot.inReset = false → s.md.canc? (cancSlot ctrl) = some (o, c) →
    let n := cancSlot ctrl
    let t := s.md.tick
    (∀ cid dlc data,
      let r0 : CanRec := { cid := cid % 2 ^ 32, dlc := dlc % 64, rcnt := 0, tag := 0xFFFF, txf := 0, stampNs := sof % 1000000000
                           data := fitBytes (dlcLen dlc) data }
      let x := c.route o.params r0
      let c' : Canc := { c with rxCount := (c.rxCount + 1) % 2 ^ 32 }
      let fd : Bool := bitOf dlc 4 && o.params.u Par.cancFdEn == 0
      (o.canOn c = false → exec (.canFrameReceived ctrl cid dlc data sof tec rxc) s = .next (s.after s.md.start))
      ∧ (o.canOn c = true → fd = false → x.1 = 0 → exec (.canFrameReceived ctrl cid dlc data sof tec rxc) s =
          .next (s.after ((s.md.start.setCanc n c').canCounters n tec rxc c.lec t)))
      ∧ (o.canOn c = true → fd = false → (x.1 = 1 ∨ x.1 = 2) →
          let y := c'.push o.params (x.1 - 1) { r0 with tag := x.2.2 } t
          let d := ((s.md.start.setCanc n c').setCanc n y.1).postAll n y.2.1
          exec (.canFrameReceived ctrl cid dlc data sof tec rxc) s = .next (s.after
            ((if y.2.2 then d.orPar n Par.cancFlags 1 else d).canCounters n tec rxc c.lec t)))
      ∧ (o.canOn c = true → fd = false → x.1 = 3 →
          let box (y : Nat × Obj) : Bool := match y.2.data with
            | .canmb m => y.2.life == .enabled && m.ctrl + 10 == n && m.index == x.2.1
            | _ => false
          ((s.md.start.setCanc n c').objects.find? box = none → exec (.canFrameReceived ctrl cid dlc data sof tec rxc) s = .next (s.after
              (((s.md.start.setCanc n c').bump n Par.cancMbMiss 0 1).canCounters n tec rxc c.lec t)))
          ∧ (∀ k y m, (s.md.start.setCanc n c').objects.find? box = some (k, y) → y.data = .canmb m →
              exec (.canFrameReceived ctrl cid dlc data sof tec rxc) s = .next (s.after
                (((s.md.start.setCanc n c').setData k (.canmb { m with staged := m.staged ++ [({ r0 with tag := x.2.2 }, sof)] })).canCounters n tec rxc c.lec t)))))
    ∧ (∀ i b, c.seen o sof = some i → c.bufs[i]? = some (some b) →
        (o.params.u Par.cancMode = 0 →
          let r := c.sent i sof none
          exec (.canTxComplete ctrl sof none tec rxc) s = .next (s.after
            ((((s.md.start.setCanc n r.1).postAll n r.2).canCounters n tec rxc c.lec t).cancSettle n t)))
        ∧ (let r := c.failed o.params i t (o.life == .draining)
           exec (.canTxAttemptFailed ctrl sof lec tec rxc) s = .next (s.after
            ((((s.md.start.setCanc n r.1).postAll n r.2).canCounters n tec rxc (if lec = 0 then c.lec else lec) t).cancSettle n t))))
    ∧ (o.canOn c = true → exec (.canErrorDetected ctrl lec tec rxc) s = .next (s.after (s.md.start.canCounters n tec rxc lec t)))
    ∧ (o.canOn c = false → o.life ≠ .enabled → exec (.canErrorDetected ctrl lec tec rxc) s = .next (s.after s.md.start)))
  ∧ (∀ (s : State) (ctrl : Nat) (o : Obj) (c : Canc), s.md.boot.inReset = false → s.md.canc? (cancSlot ctrl) = some (o, c) →
    let n := cancSlot ctrl
    let t := s.md.tick
    (∀ lec, o.canOn c = true → o.life = .enabled → o.params.u Par.cancBusoffMode = 1 →
      exec (.canBusOff ctrl lec) s = .next (s.after ((s.md.start.setCanc n (c.busOff (min lec 6) t).1).post n (c.busOff (min lec 6) t).2)))
    ∧ (∀ lec, o.canOn c = false → exec (.canBusOff ctrl lec) s = .next (s.after s.md.start))
    ∧ (o.life = .enabled → c.st = 2 →
        exec (.canBusoffRecovery ctrl) s = .next (s.after ((s.md.start.setCanc n (c.recovered t).1).post n (c.recovered t).2)))
    ∧ (o.life = .enabled → exec (.canIntegrationDone ctrl) s =
        .next (s.after ((s.md.start.setCanc n (c.integrated t).1).postAll n (c.integrated t).2)))
    ∧ (let r := c.readBeat
       exec (.canWindowRead ctrl) s = .next (s.after
        (if r.2.2 then (s.md.start.setCanc n r.1).orPar n Par.cancFlags 2 else s.md.start.setCanc n r.1)))
    ∧ (∀ b, (c.writeBeat (fitBytes 8 b)).2 = none →
        exec (.canWindowWrite ctrl b) s = .next (s.after (s.md.start.setCanc n (c.writeBeat (fitBytes 8 b)).1)))
    ∧ (∀ b r y i, c.writeBeat (fitBytes 8 b) = (y, some r) → o.life = .enabled → canTxCheck o.params r = none →
        (∀ z, y.submit (CanRec.decode r) s.md.ns none = some (z, i) → exec (.canWindowWrite ctrl b) s = .next (s.after (s.md.start.setCanc n z)))
        ∧ (y.submit (CanRec.decode r) s.md.ns none = none →
          exec (.canWindowWrite ctrl b) s = .next (s.after ((s.md.start.setCanc n y).orPar n Par.cancFlags 4)))))

/-! ## Memories, reset, boot (chapters 19 and 20) -/

/-- R545, R557, R558: a corrected error is counted, and reported at most once per second; an uncorrectable one that the scrubber finds in
coefficient or data RAM is counted and reported; the oldest waiting command's records are committed while no
compaction is due; a full journal takes a snapshot, or is FULL where that does not fit; a finished compaction makes its half active. A
challenge ends at its time. -/
def Obligations.MemoryRowsComplete : Prop :=
  ∀ s : State, s.md.boot.inReset = false →
    (∀ mem addr reader slot area, mem ≤ 3 →
      let d := s.md.start.bump 0 Par.systemMemCe mem 1
      let n := d.mem.ceSince.getD mem 0 + 1
      (∀ t, d.mem.cePost.getD mem none = some t → d.upNs < t + 1000000000 →
        exec (.memoryErrorDetected mem addr false reader slot area) s =
          .next (s.after { d with mem := { d.mem with ceSince := d.mem.ceSince.set mem n } }))
      ∧ ((d.mem.cePost.getD mem none).all (fun t => decide (t + 1000000000 ≤ d.upNs)) = true → exec (.memoryErrorDetected mem addr false reader slot area) s = .next (s.after
          (({ d with mem := { d.mem with ceSince := d.mem.ceSince.set mem 0, cePost := d.mem.cePost.set mem (some d.upNs) } } : MDie).post 0
            (report Evt.memCorrected d.tick (d8 mem ++ [0, 0, 0] ++ d32 n))))))
    ∧ (∀ mem addr slot area, mem = 1 ∨ mem = 2 →
        let d := s.md.start.bump 0 Par.systemMemUe mem 1
        exec (.memoryErrorDetected mem addr true false slot area) s = .next (s.after
          (({ d with mem := { d.mem with lastAddr := mem * 2 ^ 28 + addr % 2 ^ 28 } } : MDie).post 0
            (faultEv Evt.memUncorrectable d.tick (d8 mem ++ [0, 0, 0] ++ d32 addr)))))
    ∧ exec .journalRecordsCommitted s = .next (s.after ((s.md.start.setJournal s.md.mram.journal.commit).jSyncs))
    ∧ (s.md.mram.journal.full = true → s.md.mram.journal.st = 0 → s.md.mram.journal.snap = none →
        let r := s.md.mram.journal.compact s.md.start.jSnapshot s.md.tick (s.md.upNs + 20000000)
        exec .journalCompaction s = .next (s.after ((s.md.start.setJournal r.1).postAll 0 r.2).jSyncs))
    ∧ (s.md.mram.journal.full = false → exec .journalCompaction s = .next (s.after s.md.start))
    ∧ exec .compactionComplete s = .next (s.after ((s.md.start.setJournal s.md.mram.journal.compacted).jSyncs))
    ∧ (∀ b t d, s.md.mem.challenge = some (b, t) → s.md.start.passUp t = some d →
        exec .challengeExpiry s = .next (s.after { d with mem := { d.mem with challenge := none } }))

/-- R568, R576 … R579: a low `RESET_N`, a supply below its threshold, a PLL that loses lock, a watchdog and a completed wipe put the die into reset, and
`SYSTEM.RESET_CAUSE` reads 2, 1, 3, 5 and 7; the island and `MTIME` go on.

R576, R577, R583: a die in reset that only `RESET_N` held leaves reset at its rising edge, and one that only a supply held 1 ms after the
supplies are good: MTIME then counts from zero and boot is at stage 0. One that something else still holds stays in reset. -/
def Obligations.ResetsEnterAndRelease : Prop :=
  (∀ (s : State) (c : Instr) (cause : Nat), s.md.boot.inReset = false →
    (c, cause) ∈ [(Instr.resetNLow, 2), (.pllUnlock s.md.dieIndex, 3), (.watchdog s.md.dieIndex, 5)]
      ∨ (∃ rail, rail < 4 ∧ c = .supplyDip rail ∧ cause = 1)
      ∨ (c = .lifecycleWipeComplete ∧ cause = 7 ∧ s.md.mem.wiping.isSome = true ∧ s.md.mram.lcIntent.isSome = true) →
    ∃ t, exec c s = .next t ∧ t.md.mram.resetCause = cause ∧ t.md.rm.actions = [] ∧ t.md.boot.ready = false
      ∧ t.isl = s.isl)
  ∧ (∀ s : State, s.md.boot.inReset = true → tapHolds s.md.tap.ir = false →
    (s.md.boot.supplyOk = [true, true, true, true] → ∃ t, exec .resetNRise s = .next t ∧ t.md.boot.inReset = false
        ∧ t.md.boot.stage = 0 ∧ t.md.ns = 0 ∧ t.md.mram = s.md.mram)
    ∧ (s.md.boot.resetN = true → s.md.boot.supplyOk.all id = false → ∃ t, exec .supplyRestored s = .next t ∧ t.md.boot.inReset = false
        ∧ t.md.boot.supplyOk = [true, true, true, true] ∧ t.md.boot.stage = 0 ∧ t.md.ns = 0)
    ∧ (s.md.boot.supplyOk.all id = false → ∃ t, exec .resetNRise s = .next t ∧ t.md.boot.inReset = true ∧ t.md.boot.resetN = true))

/-- R565, R581, R583, R584: the stages of boot of this die, in their order, and what the lead die learns of another one; a boot that has not
reached stage 5 after 5 s has failed and resets the die with cause 8; a lead die with all dies up opens its queues, sets READY and
posts `BOOT_DONE`. -/
def Obligations.BootRowsComplete : Prop :=
  ∀ (s : State) (prof cause us : Nat), s.md.boot.inReset = false →
    (s.md.boot.ready = false → us ≤ 5000000 → s.md.upNs ≤ s.md.boot.released + 5000000000 →
      let d := s.md.start.bootAt us
      (s.md.boot.stage = 0 → exec (.bootStageComplete s.md.dieIndex prof cause us) s = .next (s.after (d.bootRom prof)))
      ∧ (s.md.boot.stage = 1 → exec (.bootStageComplete s.md.dieIndex prof cause us) s = .next (s.after d.bootFirmware))
      ∧ (s.md.boot.stage = 2 → exec (.bootStageComplete s.md.dieIndex prof cause us) s = .next (s.after d.bootProfile))
      ∧ (s.md.boot.stage = 3 → d.ownFabric.fab.node ≠ 0xFFFF →
          exec (.bootStageComplete s.md.dieIndex prof cause us) s = .next (s.after (d.ownFabric.setStage 4)))
      ∧ (s.md.boot.stage = 4 → exec (.bootStageComplete s.md.dieIndex prof cause us) s = .next (s.after d.bootReplay.bootComplete)))
    ∧ (∀ die, s.md.dieIndex = 0 → die ≠ 0 → die < s.md.nDies → exec (.bootStageComplete die prof cause us) s =
        .next (s.after (({ s.md.start with diesUp := if s.md.diesUp.contains die then s.md.diesUp else s.md.diesUp ++ [die] } : MDie).post 0
          (report Evt.dieReset s.md.tick (d8 die ++ d8 cause ++ [0, 0] ++ d32 us)))))
    ∧ (5 ≤ s.md.boot.stage → exec .bootTimeout s = .next (s.after s.md.start))
    ∧ (s.md.boot.stage < 5 → exec .bootTimeout s = .next (s.after
        (let d := s.md.start.bootAt 5000000
         ({ d with mram := d.mram.bootFailed } : MDie).enterReset 8)))
    ∧ (s.md.boot.ready = true → exec (.hostQueuesOpen us) s = .next (s.after s.md.start))
    ∧ (s.md.boot.ready = false → s.md.boot.stage = 5 → s.md.start.allUp = true ∨ 5000000 ≤ us →
        let d := s.md.start.bootAt (min us 5000000)
        let bootUs := (d.upNs - d.boot.released) / 1000
        let e : MDie := if d.dieIndex = 0 then d.emit (.edge .ready d.ns true) else d
        let e : MDie := { e with
          boot := { e.boot with ready := true, bootUs := bootUs, events := [] }
          posted := d.boot.events.map (fun x => d.resource x) ++ e.posted }
        exec (.hostQueuesOpen us) s = .next (s.after ((e.post 0 (report Evt.bootDone e.tick
          (d8 e.mram.resetCause ++ d8 e.boot.bootSlot ++ d8 e.boot.bank ++ d8 (min 255 e.boot.dropped) ++ d32 bootUs))).fieldHold)))
end

