-- ==== Sys2Proof/Laws/Balls.lean ====
section
/-! SUPPORT. What driving the balls at the end of a step can do to a die: the balls' own fields, the outputs and the counter of free values. -/

namespace Sys2Proof.Machine

open Sys2Proof

/-- `e` is `d` but for the balls, the outputs and the counter of free values. -/
def BallsOnly (d e : MDie) : Prop :=
  ∃ pr ca gp o fr, e = { d with probes := pr, carrier := ca, gatePairs := gp, out := o, free := fr }

theorem BallsOnly.refl (d : MDie) : BallsOnly d d := ⟨d.probes, d.carrier, d.gatePairs, d.out, d.free, rfl⟩

theorem BallsOnly.trans {a b c : MDie} (h : BallsOnly a b) (k : BallsOnly b c) : BallsOnly a c := by
  obtain ⟨_, _, _, _, _, rfl⟩ := h
  obtain ⟨p, q, r, s, t, rfl⟩ := k
  exact ⟨p, q, r, s, t, rfl⟩

theorem ballsOnly_emit (d : MDie) (o : Output) : BallsOnly d (d.emit o) := ⟨d.probes, d.carrier, d.gatePairs, d.out ++ [o], d.free, rfl⟩

theorem ballsOnly_draw (d : MDie) (n : Nat) : BallsOnly d (d.draw n).1 := ⟨d.probes, d.carrier, d.gatePairs, d.out, d.free + 1, rfl⟩

theorem ballsOnly_gates (d : MDie) (l : List GatePair) : BallsOnly d { d with gatePairs := l } := ⟨d.probes, d.carrier, l, d.out, d.free, rfl⟩

theorem ballsOnly_foldl {α : Type} (f : MDie → α → MDie) (h : ∀ d a, BallsOnly d (f d a)) (l : List α) (d : MDie) :
    BallsOnly d (l.foldl f d) := by
  induction l generalizing d with
  | nil => exact .refl d
  | cons a l ih => exact (h d a).trans (ih _)

theorem ballsOnly_ite {c : Prop} [Decidable c] {d x y : MDie} (hx : BallsOnly d x) (hy : BallsOnly d y) :
    BallsOnly d (if c then x else y) := by
  split
  · exact hx
  · exact hy

theorem ballsOnly_gateEdge (d : MDie) (i cc : Nat) : BallsOnly d (d.gateEdge i cc) := by
  unfold MDie.gateEdge
  split
  · exact .refl d
  · exact ballsOnly_ite (ballsOnly_gates d _) ((ballsOnly_gates d _).trans (ballsOnly_emit _ _))

theorem ballsOnly_gateRun (d : MDie) (i cc : Nat) : BallsOnly d (d.gateRun i cc) := by
  unfold MDie.gateRun
  split
  · exact .refl d
  · dsimp only
    split
    · exact .refl d
    · exact (ballsOnly_foldl _ (fun d t => ballsOnly_gateEdge d i t) _ d).trans (ballsOnly_gates _ _)

theorem ballsOnly_gatesTo (d : MDie) (mask cc : Nat) : BallsOnly d (d.gatesTo mask cc) :=
  ballsOnly_foldl _ (fun d i => ballsOnly_gateRun d i cc) _ d

theorem ballsOnly_gatesSet (d : MDie) (mask cc : Nat) : BallsOnly d (d.gatesSet mask cc) := by
  refine ballsOnly_foldl _ (fun d i => ?_) _ d
  refine (ballsOnly_gateRun d i cc).trans ?_
  dsimp only
  split
  · exact .refl _
  · refine BallsOnly.trans ?_ (ballsOnly_gateEdge _ _ _)
    split
    · exact .refl _
    · exact ballsOnly_gates _ _

theorem ballsOnly_probeDrive (d : MDie) (k t : Nat) (lv : Bool) : BallsOnly d (d.probeDrive k t lv) := by
  unfold MDie.probeDrive
  split
  · exact .refl d
  · dsimp only
    split
    · exact .refl d
    · exact BallsOnly.trans ⟨_, d.carrier, d.gatePairs, d.out, d.free, rfl⟩ (ballsOnly_emit _ _)

theorem ballsOnly_probePulse (d : MDie) (k p : Nat) (rest : Bool) (u : ProbePulse) : BallsOnly d (d.probePulse k p rest u) := by
  unfold MDie.probePulse
  by_cases h : u.jitter = 0 <;> by_cases w : u.width = 0 <;> simp only [h, w, if_true, if_false]
  · exact (ballsOnly_draw d _).trans ((ballsOnly_probeDrive _ _ _ _).trans (ballsOnly_probeDrive _ _ _ _))
  · exact (ballsOnly_probeDrive _ _ _ _).trans (ballsOnly_probeDrive _ _ _ _)
  · exact (ballsOnly_draw d _).trans ((ballsOnly_draw _ _).trans ((ballsOnly_probeDrive _ _ _ _).trans (ballsOnly_probeDrive _ _ _ _)))
  · exact (ballsOnly_draw d _).trans ((ballsOnly_probeDrive _ _ _ _).trans (ballsOnly_probeDrive _ _ _ _))

theorem ballsOnly_probeBall (b d : MDie) (k : Nat) : BallsOnly d (b.probeBall d k) := by
  unfold MDie.probeBall
  split
  · exact .refl d
  · split
    · exact ballsOnly_probeDrive _ _ _ _
    · dsimp only
      split
      · exact (ballsOnly_draw d 2).trans ((ballsOnly_probeDrive _ _ _ _).trans
          (ballsOnly_foldl _ (fun d u => ballsOnly_probePulse d k _ _ u) _ _))
      · exact (ballsOnly_probeDrive _ _ _ _).trans (ballsOnly_foldl _ (fun d u => ballsOnly_probePulse d k _ _ u) _ _)

theorem ballsOnly_probeBalls (d b : MDie) : BallsOnly d (d.probeBalls b) :=
  (ballsOnly_foldl _ (fun d k => ballsOnly_probeBall b d k) _ d).trans ⟨_, [], _, _, _, rfl⟩

theorem ballsOnly_irqBall (d b : MDie) : BallsOnly d (d.irqBall b) := by
  unfold MDie.irqBall
  split
  · exact .refl d
  · exact ballsOnly_emit _ _

/-- All that the balls can do at the end of a step. -/
theorem ballsOnly_ballsNow (d b : MDie) : BallsOnly d (d.ballsNow b) :=
  ((ballsOnly_gatesSet d _ _).trans (ballsOnly_irqBall _ b)).trans (ballsOnly_probeBalls _ b)

end Sys2Proof.Machine
end

