-- ==== Sys2Proof/Laws/Memory.lean ====
section
/-! SUPPORT. Byte memories: every write keeps the canonical form, and reads see writes. -/

namespace Sys2Proof.Machine

open Sys2Proof

/-- Every listed address lies above `a`. -/
def Memory.above (a : Nat) (m : Memory) : Prop := ∀ c ∈ m, a < c.1

theorem Memory.wf_cons (c : Host.Cell) (m : Memory) : Memory.wf (c :: m) = true ↔ c.2 ≠ 0 ∧ m.above c.1 ∧ m.wf = true := by
  induction m generalizing c with
  | nil => simp [Memory.wf, Memory.above]
  | cons d t ih =>
    simp only [Memory.wf, Bool.and_eq_true, decide_eq_true_eq, ih, Memory.above, List.mem_cons, forall_eq_or_imp]
    constructor
    · rintro ⟨⟨h0, hd⟩, h1, h2, h3⟩
      exact ⟨by simpa using h0, ⟨hd, fun x hx => Nat.lt_trans hd (h2 x hx)⟩, h1, h2, h3⟩
    · rintro ⟨h0, ⟨hd, _⟩, h1, h2, h3⟩
      exact ⟨⟨by simpa using h0, hd⟩, h1, h2, h3⟩

theorem Memory.write_above (m : Memory) (a x : Nat) (b : Byte) (h : m.above a) (hx : a < x) : (m.write x b).above a := by
  induction m with
  | nil => simp only [Memory.write]; split <;> simp_all [Memory.above]
  | cons c t ih =>
    have ht : Memory.above a t := fun y hy => h y (List.mem_cons_of_mem _ hy)
    have hc : a < c.1 := h c (List.mem_cons_self ..)
    simp only [Memory.write]
    split
    · split
      · exact h
      · intro y hy
        rcases List.mem_cons.1 hy with rfl | hy
        · exact hx
        · exact h y hy
    · split
      · split
        · exact ht
        · intro y hy
          rcases List.mem_cons.1 hy with rfl | hy
          · exact hx
          · exact ht y hy
      · intro y hy
        rcases List.mem_cons.1 hy with rfl | hy
        · exact hc
        · exact ih ht y hy

/-- A write keeps the canonical form. -/
theorem Memory.write_wf (m : Memory) (a : Nat) (b : Byte) (h : m.wf = true) : (m.write a b).wf = true := by
  induction m with
  | nil => simp only [Memory.write]; split <;> simp_all [Memory.wf]
  | cons c t ih =>
    obtain ⟨h0, h1, h2⟩ := (Memory.wf_cons c t).1 h
    simp only [Memory.write]
    split
    · rename_i hlt
      split
      · exact h
      · rename_i hb
        refine (Memory.wf_cons _ _).2 ⟨hb, ?_, h⟩
        intro y hy
        rcases List.mem_cons.1 hy with rfl | hy
        · exact hlt
        · exact Nat.lt_trans hlt (h1 y hy)
    · split
      · rename_i heq
        split
        · exact h2
        · rename_i hb
          exact (Memory.wf_cons _ _).2 ⟨hb, by subst heq; exact h1, h2⟩
      · rename_i hlt hne
        refine (Memory.wf_cons _ _).2 ⟨h0, Memory.write_above t c.1 a b h1 ?_, ih h2⟩
        omega

/-- A write of a run of bytes keeps the canonical form. -/
theorem Memory.writeN_wf (b : List Byte) (m : Memory) (a : Nat) (h : m.wf = true) : (m.writeN a b).wf = true := by
  induction b generalizing m a with
  | nil => exact h
  | cons x r ih => exact ih (m.write a x) (a + 1) (m.write_wf a x h)

theorem MemState.write_wf (m : MemState) (a : Nat) (b : List Byte) (h : m.sram.wf = true) : (m.write a b).sram.wf = true :=
  Memory.writeN_wf b m.sram a h

theorem FwBank.write_memOk (k : FwBank) (a : Nat) (b : List Byte) (h : k.image.memOk = true) : (k.write a b).image.memOk = true := by
  cases k with
  | mk st image bad =>
    cases image <;> exact Memory.writeN_wf b _ a (by first | rfl | exact h)

/-- The memories of the machine after reset are in the canonical form. -/
theorem reset_memOk : State.reset.md.memOk = true := by decide +kernel

theorem Memory.read_above (m : Memory) (a : Nat) (h : m.above a) : m.read a = 0 := by
  induction m with
  | nil => rfl
  | cons c t ih =>
    have hc : a < c.1 := h c (List.mem_cons_self ..)
    simp only [Memory.read]
    rw [if_neg (by omega)]
    exact ih (fun y hy => h y (List.mem_cons_of_mem _ hy))

/-- What a byte reads after a write. -/
theorem Memory.read_write (m : Memory) (a x : Nat) (b : Byte) (h : m.wf = true) :
    (m.write a b).read x = if x = a then b else m.read x := by
  induction m with
  | nil =>
    simp only [Memory.write]
    by_cases hx : x = a
    · subst hx
      by_cases hb : b = 0
      · rw [if_pos hb]; simp [Memory.read, hb]
      · rw [if_neg hb]; simp [Memory.read]
    · have hx' : ¬ a = x := fun e => hx e.symm
      by_cases hb : b = 0
      · rw [if_pos hb]; simp [Memory.read, hx]
      · rw [if_neg hb]; simp [Memory.read, hx, hx']
  | cons c t ih =>
    obtain ⟨_, h1, h2⟩ := (Memory.wf_cons c t).1 h
    have ht : ∀ y, y ≤ c.1 → Memory.read t y = 0 := fun y hy =>
      Memory.read_above t y (fun z hz => Nat.lt_of_le_of_lt hy (h1 z hz))
    simp only [Memory.write]
    by_cases hlt : a < c.1
    · rw [if_pos hlt]
      have hne : c.1 ≠ a := by omega
      by_cases hb : b = 0
      · rw [if_pos hb]
        by_cases hx : x = a
        · subst hx; simp [Memory.read, hne, ht x (by omega), hb]
        · rw [if_neg hx]
      · rw [if_neg hb]
        by_cases hx : x = a
        · subst hx; simp [Memory.read]
        · have : ¬ a = x := fun e => hx e.symm
          simp [Memory.read, hx, this]
    · rw [if_neg hlt]
      by_cases heq : c.1 = a
      · rw [if_pos heq]
        by_cases hb : b = 0
        · rw [if_pos hb]
          by_cases hx : x = a
          · subst hx; simp [ht x (by omega), hb]
          · have : ¬ c.1 = x := by omega
            simp [Memory.read, hx, this]
        · rw [if_neg hb]
          by_cases hx : x = a
          · subst hx; simp [Memory.read]
          · have : ¬ a = x := fun e => hx e.symm
            have h' : ¬ c.1 = x := by omega
            simp [Memory.read, hx, this, h']
      · rw [if_neg heq]
        simp only [Memory.read, ih h2]
        by_cases hcx : c.1 = x
        · have : ¬ x = a := by omega
          simp [hcx, this]
        · simp [hcx]

/-- What a byte reads after a write of a run. -/
theorem Memory.read_writeN (b : List Byte) (m : Memory) (a x : Nat) (h : m.wf = true) :
    (m.writeN a b).read x = if a ≤ x ∧ x < a + b.length then b.getD (x - a) 0 else m.read x := by
  induction b generalizing m a with
  | nil => simp only [Memory.writeN, List.length_nil]; rw [if_neg (by omega)]
  | cons y r ih =>
    simp only [Memory.writeN, ih (m.write a y) (a + 1) (m.write_wf a y h), Memory.read_write m a x y h, List.length_cons]
    by_cases h1 : x = a
    · subst h1
      rw [if_neg (by omega), if_pos rfl, if_pos (by omega)]
      simp
    · by_cases h2 : a + 1 ≤ x ∧ x < a + 1 + r.length
      · rw [if_pos h2, if_pos (by omega)]
        obtain ⟨k, hk⟩ : ∃ k, x - a = k + 1 := ⟨x - a - 1, by omega⟩
        have : x - (a + 1) = k := by omega
        simp [hk, this]
      · rw [if_neg h2, if_neg h1, if_neg (by omega)]

end Sys2Proof.Machine
end

