-- ==== Sys2Proof/Laws/State.lean ====
section
/-! SUPPORT. What the small updates of the state change and what they leave: one lemma per field, true by `rfl`; look-ups after an update
of a sparse table or of the handle table. -/

namespace Sys2Proof.Machine

open Sys2Proof

/-! Sparse tables. -/

@[simp] theorem alGet_alSet {α : Type} (l : List (Nat × α)) (i j : Nat) (w : α) :
    alGet (alSet l i w) j = if i = j then some w else alGet l j := by
  induction l with
  | nil => simp [alSet, alGet]
  | cons x t ih =>
    obtain ⟨k, v⟩ := x
    simp only [alSet]
    by_cases h1 : i < k
    · simp [h1, alGet]
    · by_cases h2 : k = i
      · subst h2; by_cases h3 : k = j <;> simp [alGet, h3]
      · rw [if_neg h1, if_neg h2]
        simp only [alGet, ih]
        by_cases h3 : k = j
        · have : ¬ i = j := fun e => h2 (h3.trans e.symm)
          simp [h3, this]
        · simp [h3]

@[simp] theorem alGet_alDel {α : Type} (l : List (Nat × α)) (i j : Nat) :
    alGet (alDel l i) j = if i = j then none else alGet l j := by
  induction l with
  | nil => simp [alDel, alGet]
  | cons x t ih =>
    obtain ⟨k, v⟩ := x
    simp only [alDel]
    by_cases h : k = i
    · subst h
      rw [if_pos rfl, ih]
      by_cases hj : k = j <;> simp [alGet, hj]
    · rw [if_neg h]
      simp only [alGet, ih]
      by_cases hk : k = j
      · have : ¬ i = j := fun e => h (hk.trans e.symm)
        simp [hk, this]
      · simp [hk]

/-! The machine. -/

@[simp] theorem State.after_isl (s : State) (d : MDie) : (s.after d).isl = s.isl := rfl
@[simp] theorem State.after_pending (s : State) (d : MDie) : (s.after d).pending = s.pending := rfl
@[simp] theorem State.after_md (s : State) (d : MDie) : (s.after d).md = d.settle s.md := rfl
@[simp] theorem State.setIsl_isl (s : State) (i : Island) : (s.setIsl i).isl = i := rfl
@[simp] theorem State.setIsl_pending (s : State) (i : Island) : (s.setIsl i).pending = s.pending := rfl
@[simp] theorem State.quiet_isl (s : State) : s.quiet.isl = s.isl := rfl
@[simp] theorem State.quiet_pending (s : State) : s.quiet.pending = s.pending := rfl

/-! The die. -/

@[simp] theorem MDie.start_time (d : MDie) : (d.start).time = d.time := rfl
@[simp] theorem MDie.start_upNs (d : MDie) : (d.start).upNs = d.upNs := rfl
@[simp] theorem MDie.start_tick (d : MDie) : (d.start).tick = d.tick := rfl
@[simp] theorem MDie.start_dieIndex (d : MDie) : (d.start).dieIndex = d.dieIndex := rfl
@[simp] theorem MDie.start_nDies (d : MDie) : (d.start).nDies = d.nDies := rfl
@[simp] theorem MDie.start_serial (d : MDie) : (d.start).serial = d.serial := rfl
@[simp] theorem MDie.start_slots (d : MDie) : (d.start).slots = d.slots := rfl
@[simp] theorem MDie.start_freed (d : MDie) : (d.start).freed = d.freed := rfl
@[simp] theorem MDie.start_rm (d : MDie) : (d.start).rm = d.rm := rfl
@[simp] theorem MDie.start_ports (d : MDie) : (d.start).ports = d.ports := rfl
@[simp] theorem MDie.start_fab (d : MDie) : (d.start).fab = d.fab := rfl
@[simp] theorem MDie.start_mer (d : MDie) : (d.start).mer = d.mer := rfl
@[simp] theorem MDie.start_dma (d : MDie) : (d.start).dma = d.dma := rfl
@[simp] theorem MDie.start_mem (d : MDie) : (d.start).mem = d.mem := rfl
@[simp] theorem MDie.start_mram (d : MDie) : (d.start).mram = d.mram := rfl
@[simp] theorem MDie.start_boot (d : MDie) : (d.start).boot = d.boot := rfl
@[simp] theorem MDie.start_engines (d : MDie) : (d.start).engines = d.engines := rfl
@[simp] theorem MDie.start_tap (d : MDie) : (d.start).tap = d.tap := rfl
@[simp] theorem MDie.start_cmpOut (d : MDie) : (d.start).cmpOut = d.cmpOut := rfl
@[simp] theorem MDie.start_lclkOut (d : MDie) : (d.start).lclkOut = d.lclkOut := rfl
@[simp] theorem MDie.start_probes (d : MDie) : (d.start).probes = d.probes := rfl
@[simp] theorem MDie.start_carrier (d : MDie) : (d.start).carrier = d.carrier := rfl
@[simp] theorem MDie.start_gatePairs (d : MDie) : (d.start).gatePairs = d.gatePairs := rfl
@[simp] theorem MDie.start_capIn (d : MDie) : (d.start).capIn = d.capIn := rfl
@[simp] theorem MDie.start_capSeen (d : MDie) : (d.start).capSeen = d.capSeen := rfl
@[simp] theorem MDie.start_pwmFault (d : MDie) : (d.start).pwmFault = d.pwmFault := rfl
@[simp] theorem MDie.start_encLevels (d : MDie) : (d.start).encLevels = d.encLevels := rfl
@[simp] theorem MDie.start_encTracks (d : MDie) : (d.start).encTracks = d.encTracks := rfl
@[simp] theorem MDie.start_ss1Seen (d : MDie) : (d.start).ss1Seen = d.ss1Seen := rfl
@[simp] theorem MDie.start_ss1Wire (d : MDie) : (d.start).ss1Wire = d.ss1Wire := rfl
@[simp] theorem MDie.start_streams (d : MDie) : (d.start).streams = d.streams := rfl
@[simp] theorem MDie.start_streamIn (d : MDie) : (d.start).streamIn = d.streamIn := rfl
@[simp] theorem MDie.start_pairLink (d : MDie) : (d.start).pairLink = d.pairLink := rfl
@[simp] theorem MDie.start_field (d : MDie) : (d.start).field = d.field := rfl
@[simp] theorem MDie.start_safe (d : MDie) : (d.start).safe = d.safe := rfl
@[simp] theorem MDie.start_diesUp (d : MDie) : (d.start).diesUp = d.diesUp := rfl
@[simp] theorem MDie.start_posts (d : MDie) : (d.start).posts = d.posts := rfl
@[simp] theorem MDie.start_posted (d : MDie) : (d.start).posted = d.posted := rfl

@[simp] theorem MDie.start_out (d : MDie) : d.start.out = [] := rfl
@[simp] theorem MDie.start_free (d : MDie) : d.start.free = d.free + 1 := rfl

@[simp] theorem MDie.emit_time (d : MDie) (o : Output) : (d.emit o).time = d.time := rfl
@[simp] theorem MDie.emit_upNs (d : MDie) (o : Output) : (d.emit o).upNs = d.upNs := rfl
@[simp] theorem MDie.emit_tick (d : MDie) (o : Output) : (d.emit o).tick = d.tick := rfl
@[simp] theorem MDie.emit_dieIndex (d : MDie) (o : Output) : (d.emit o).dieIndex = d.dieIndex := rfl
@[simp] theorem MDie.emit_nDies (d : MDie) (o : Output) : (d.emit o).nDies = d.nDies := rfl
@[simp] theorem MDie.emit_serial (d : MDie) (o : Output) : (d.emit o).serial = d.serial := rfl
@[simp] theorem MDie.emit_slots (d : MDie) (o : Output) : (d.emit o).slots = d.slots := rfl
@[simp] theorem MDie.emit_freed (d : MDie) (o : Output) : (d.emit o).freed = d.freed := rfl
@[simp] theorem MDie.emit_rm (d : MDie) (o : Output) : (d.emit o).rm = d.rm := rfl
@[simp] theorem MDie.emit_ports (d : MDie) (o : Output) : (d.emit o).ports = d.ports := rfl
@[simp] theorem MDie.emit_fab (d : MDie) (o : Output) : (d.emit o).fab = d.fab := rfl
@[simp] theorem MDie.emit_mer (d : MDie) (o : Output) : (d.emit o).mer = d.mer := rfl
@[simp] theorem MDie.emit_dma (d : MDie) (o : Output) : (d.emit o).dma = d.dma := rfl
@[simp] theorem MDie.emit_mem (d : MDie) (o : Output) : (d.emit o).mem = d.mem := rfl
@[simp] theorem MDie.emit_mram (d : MDie) (o : Output) : (d.emit o).mram = d.mram := rfl
@[simp] theorem MDie.emit_boot (d : MDie) (o : Output) : (d.emit o).boot = d.boot := rfl
@[simp] theorem MDie.emit_engines (d : MDie) (o : Output) : (d.emit o).engines = d.engines := rfl
@[simp] theorem MDie.emit_tap (d : MDie) (o : Output) : (d.emit o).tap = d.tap := rfl
@[simp] theorem MDie.emit_cmpOut (d : MDie) (o : Output) : (d.emit o).cmpOut = d.cmpOut := rfl
@[simp] theorem MDie.emit_lclkOut (d : MDie) (o : Output) : (d.emit o).lclkOut = d.lclkOut := rfl
@[simp] theorem MDie.emit_probes (d : MDie) (o : Output) : (d.emit o).probes = d.probes := rfl
@[simp] theorem MDie.emit_carrier (d : MDie) (o : Output) : (d.emit o).carrier = d.carrier := rfl
@[simp] theorem MDie.emit_gatePairs (d : MDie) (o : Output) : (d.emit o).gatePairs = d.gatePairs := rfl
@[simp] theorem MDie.emit_capIn (d : MDie) (o : Output) : (d.emit o).capIn = d.capIn := rfl
@[simp] theorem MDie.emit_capSeen (d : MDie) (o : Output) : (d.emit o).capSeen = d.capSeen := rfl
@[simp] theorem MDie.emit_pwmFault (d : MDie) (o : Output) : (d.emit o).pwmFault = d.pwmFault := rfl
@[simp] theorem MDie.emit_encLevels (d : MDie) (o : Output) : (d.emit o).encLevels = d.encLevels := rfl
@[simp] theorem MDie.emit_encTracks (d : MDie) (o : Output) : (d.emit o).encTracks = d.encTracks := rfl
@[simp] theorem MDie.emit_ss1Seen (d : MDie) (o : Output) : (d.emit o).ss1Seen = d.ss1Seen := rfl
@[simp] theorem MDie.emit_ss1Wire (d : MDie) (o : Output) : (d.emit o).ss1Wire = d.ss1Wire := rfl
@[simp] theorem MDie.emit_streams (d : MDie) (o : Output) : (d.emit o).streams = d.streams := rfl
@[simp] theorem MDie.emit_streamIn (d : MDie) (o : Output) : (d.emit o).streamIn = d.streamIn := rfl
@[simp] theorem MDie.emit_pairLink (d : MDie) (o : Output) : (d.emit o).pairLink = d.pairLink := rfl
@[simp] theorem MDie.emit_field (d : MDie) (o : Output) : (d.emit o).field = d.field := rfl
@[simp] theorem MDie.emit_safe (d : MDie) (o : Output) : (d.emit o).safe = d.safe := rfl
@[simp] theorem MDie.emit_diesUp (d : MDie) (o : Output) : (d.emit o).diesUp = d.diesUp := rfl
@[simp] theorem MDie.emit_posts (d : MDie) (o : Output) : (d.emit o).posts = d.posts := rfl
@[simp] theorem MDie.emit_free (d : MDie) (o : Output) : (d.emit o).free = d.free := rfl
@[simp] theorem MDie.emit_posted (d : MDie) (o : Output) : (d.emit o).posted = d.posted := rfl

@[simp] theorem MDie.emit_out (d : MDie) (o : Output) : (d.emit o).out = d.out ++ [o] := rfl

@[simp] theorem MDie.post_time (d : MDie) (n : Nat) (e : Ev) : (d.post n e).time = d.time := rfl
@[simp] theorem MDie.post_upNs (d : MDie) (n : Nat) (e : Ev) : (d.post n e).upNs = d.upNs := rfl
@[simp] theorem MDie.post_tick (d : MDie) (n : Nat) (e : Ev) : (d.post n e).tick = d.tick := rfl
@[simp] theorem MDie.post_dieIndex (d : MDie) (n : Nat) (e : Ev) : (d.post n e).dieIndex = d.dieIndex := rfl
@[simp] theorem MDie.post_nDies (d : MDie) (n : Nat) (e : Ev) : (d.post n e).nDies = d.nDies := rfl
@[simp] theorem MDie.post_serial (d : MDie) (n : Nat) (e : Ev) : (d.post n e).serial = d.serial := rfl
@[simp] theorem MDie.post_slots (d : MDie) (n : Nat) (e : Ev) : (d.post n e).slots = d.slots := rfl
@[simp] theorem MDie.post_freed (d : MDie) (n : Nat) (e : Ev) : (d.post n e).freed = d.freed := rfl
@[simp] theorem MDie.post_rm (d : MDie) (n : Nat) (e : Ev) : (d.post n e).rm = d.rm := rfl
@[simp] theorem MDie.post_ports (d : MDie) (n : Nat) (e : Ev) : (d.post n e).ports = d.ports := rfl
@[simp] theorem MDie.post_fab (d : MDie) (n : Nat) (e : Ev) : (d.post n e).fab = d.fab := rfl
@[simp] theorem MDie.post_mer (d : MDie) (n : Nat) (e : Ev) : (d.post n e).mer = d.mer := rfl
@[simp] theorem MDie.post_dma (d : MDie) (n : Nat) (e : Ev) : (d.post n e).dma = d.dma := rfl
@[simp] theorem MDie.post_mem (d : MDie) (n : Nat) (e : Ev) : (d.post n e).mem = d.mem := rfl
@[simp] theorem MDie.post_mram (d : MDie) (n : Nat) (e : Ev) : (d.post n e).mram = d.mram := rfl
@[simp] theorem MDie.post_boot (d : MDie) (n : Nat) (e : Ev) : (d.post n e).boot = d.boot := rfl
@[simp] theorem MDie.post_engines (d : MDie) (n : Nat) (e : Ev) : (d.post n e).engines = d.engines := rfl
@[simp] theorem MDie.post_tap (d : MDie) (n : Nat) (e : Ev) : (d.post n e).tap = d.tap := rfl
@[simp] theorem MDie.post_cmpOut (d : MDie) (n : Nat) (e : Ev) : (d.post n e).cmpOut = d.cmpOut := rfl
@[simp] theorem MDie.post_lclkOut (d : MDie) (n : Nat) (e : Ev) : (d.post n e).lclkOut = d.lclkOut := rfl
@[simp] theorem MDie.post_probes (d : MDie) (n : Nat) (e : Ev) : (d.post n e).probes = d.probes := rfl
@[simp] theorem MDie.post_carrier (d : MDie) (n : Nat) (e : Ev) : (d.post n e).carrier = d.carrier := rfl
@[simp] theorem MDie.post_gatePairs (d : MDie) (n : Nat) (e : Ev) : (d.post n e).gatePairs = d.gatePairs := rfl
@[simp] theorem MDie.post_capIn (d : MDie) (n : Nat) (e : Ev) : (d.post n e).capIn = d.capIn := rfl
@[simp] theorem MDie.post_capSeen (d : MDie) (n : Nat) (e : Ev) : (d.post n e).capSeen = d.capSeen := rfl
@[simp] theorem MDie.post_pwmFault (d : MDie) (n : Nat) (e : Ev) : (d.post n e).pwmFault = d.pwmFault := rfl
@[simp] theorem MDie.post_encLevels (d : MDie) (n : Nat) (e : Ev) : (d.post n e).encLevels = d.encLevels := rfl
@[simp] theorem MDie.post_encTracks (d : MDie) (n : Nat) (e : Ev) : (d.post n e).encTracks = d.encTracks := rfl
@[simp] theorem MDie.post_ss1Seen (d : MDie) (n : Nat) (e : Ev) : (d.post n e).ss1Seen = d.ss1Seen := rfl
@[simp] theorem MDie.post_ss1Wire (d : MDie) (n : Nat) (e : Ev) : (d.post n e).ss1Wire = d.ss1Wire := rfl
@[simp] theorem MDie.post_streams (d : MDie) (n : Nat) (e : Ev) : (d.post n e).streams = d.streams := rfl
@[simp] theorem MDie.post_streamIn (d : MDie) (n : Nat) (e : Ev) : (d.post n e).streamIn = d.streamIn := rfl
@[simp] theorem MDie.post_pairLink (d : MDie) (n : Nat) (e : Ev) : (d.post n e).pairLink = d.pairLink := rfl
@[simp] theorem MDie.post_field (d : MDie) (n : Nat) (e : Ev) : (d.post n e).field = d.field := rfl
@[simp] theorem MDie.post_safe (d : MDie) (n : Nat) (e : Ev) : (d.post n e).safe = d.safe := rfl
@[simp] theorem MDie.post_diesUp (d : MDie) (n : Nat) (e : Ev) : (d.post n e).diesUp = d.diesUp := rfl
@[simp] theorem MDie.post_posts (d : MDie) (n : Nat) (e : Ev) : (d.post n e).posts = d.posts := rfl
@[simp] theorem MDie.post_free (d : MDie) (n : Nat) (e : Ev) : (d.post n e).free = d.free := rfl
@[simp] theorem MDie.post_out (d : MDie) (n : Nat) (e : Ev) : (d.post n e).out = d.out := rfl

@[simp] theorem MDie.setQueue_time (d : MDie) (k : Nat) (q : QueueRt) : (d.setQueue k q).time = d.time := rfl
@[simp] theorem MDie.setQueue_upNs (d : MDie) (k : Nat) (q : QueueRt) : (d.setQueue k q).upNs = d.upNs := rfl
@[simp] theorem MDie.setQueue_tick (d : MDie) (k : Nat) (q : QueueRt) : (d.setQueue k q).tick = d.tick := rfl
@[simp] theorem MDie.setQueue_dieIndex (d : MDie) (k : Nat) (q : QueueRt) : (d.setQueue k q).dieIndex = d.dieIndex := rfl
@[simp] theorem MDie.setQueue_nDies (d : MDie) (k : Nat) (q : QueueRt) : (d.setQueue k q).nDies = d.nDies := rfl
@[simp] theorem MDie.setQueue_serial (d : MDie) (k : Nat) (q : QueueRt) : (d.setQueue k q).serial = d.serial := rfl
@[simp] theorem MDie.setQueue_slots (d : MDie) (k : Nat) (q : QueueRt) : (d.setQueue k q).slots = d.slots := rfl
@[simp] theorem MDie.setQueue_freed (d : MDie) (k : Nat) (q : QueueRt) : (d.setQueue k q).freed = d.freed := rfl
@[simp] theorem MDie.setQueue_ports (d : MDie) (k : Nat) (q : QueueRt) : (d.setQueue k q).ports = d.ports := rfl
@[simp] theorem MDie.setQueue_fab (d : MDie) (k : Nat) (q : QueueRt) : (d.setQueue k q).fab = d.fab := rfl
@[simp] theorem MDie.setQueue_mer (d : MDie) (k : Nat) (q : QueueRt) : (d.setQueue k q).mer = d.mer := rfl
@[simp] theorem MDie.setQueue_dma (d : MDie) (k : Nat) (q : QueueRt) : (d.setQueue k q).dma = d.dma := rfl
@[simp] theorem MDie.setQueue_mem (d : MDie) (k : Nat) (q : QueueRt) : (d.setQueue k q).mem = d.mem := rfl
@[simp] theorem MDie.setQueue_mram (d : MDie) (k : Nat) (q : QueueRt) : (d.setQueue k q).mram = d.mram := rfl
@[simp] theorem MDie.setQueue_boot (d : MDie) (k : Nat) (q : QueueRt) : (d.setQueue k q).boot = d.boot := rfl
@[simp] theorem MDie.setQueue_engines (d : MDie) (k : Nat) (q : QueueRt) : (d.setQueue k q).engines = d.engines := rfl
@[simp] theorem MDie.setQueue_tap (d : MDie) (k : Nat) (q : QueueRt) : (d.setQueue k q).tap = d.tap := rfl
@[simp] theorem MDie.setQueue_cmpOut (d : MDie) (k : Nat) (q : QueueRt) : (d.setQueue k q).cmpOut = d.cmpOut := rfl
@[simp] theorem MDie.setQueue_lclkOut (d : MDie) (k : Nat) (q : QueueRt) : (d.setQueue k q).lclkOut = d.lclkOut := rfl
@[simp] theorem MDie.setQueue_probes (d : MDie) (k : Nat) (q : QueueRt) : (d.setQueue k q).probes = d.probes := rfl
@[simp] theorem MDie.setQueue_carrier (d : MDie) (k : Nat) (q : QueueRt) : (d.setQueue k q).carrier = d.carrier := rfl
@[simp] theorem MDie.setQueue_gatePairs (d : MDie) (k : Nat) (q : QueueRt) : (d.setQueue k q).gatePairs = d.gatePairs := rfl
@[simp] theorem MDie.setQueue_capIn (d : MDie) (k : Nat) (q : QueueRt) : (d.setQueue k q).capIn = d.capIn := rfl
@[simp] theorem MDie.setQueue_capSeen (d : MDie) (k : Nat) (q : QueueRt) : (d.setQueue k q).capSeen = d.capSeen := rfl
@[simp] theorem MDie.setQueue_pwmFault (d : MDie) (k : Nat) (q : QueueRt) : (d.setQueue k q).pwmFault = d.pwmFault := rfl
@[simp] theorem MDie.setQueue_encLevels (d : MDie) (k : Nat) (q : QueueRt) : (d.setQueue k q).encLevels = d.encLevels := rfl
@[simp] theorem MDie.setQueue_encTracks (d : MDie) (k : Nat) (q : QueueRt) : (d.setQueue k q).encTracks = d.encTracks := rfl
@[simp] theorem MDie.setQueue_ss1Seen (d : MDie) (k : Nat) (q : QueueRt) : (d.setQueue k q).ss1Seen = d.ss1Seen := rfl
@[simp] theorem MDie.setQueue_ss1Wire (d : MDie) (k : Nat) (q : QueueRt) : (d.setQueue k q).ss1Wire = d.ss1Wire := rfl
@[simp] theorem MDie.setQueue_streams (d : MDie) (k : Nat) (q : QueueRt) : (d.setQueue k q).streams = d.streams := rfl
@[simp] theorem MDie.setQueue_streamIn (d : MDie) (k : Nat) (q : QueueRt) : (d.setQueue k q).streamIn = d.streamIn := rfl
@[simp] theorem MDie.setQueue_pairLink (d : MDie) (k : Nat) (q : QueueRt) : (d.setQueue k q).pairLink = d.pairLink := rfl
@[simp] theorem MDie.setQueue_field (d : MDie) (k : Nat) (q : QueueRt) : (d.setQueue k q).field = d.field := rfl
@[simp] theorem MDie.setQueue_safe (d : MDie) (k : Nat) (q : QueueRt) : (d.setQueue k q).safe = d.safe := rfl
@[simp] theorem MDie.setQueue_diesUp (d : MDie) (k : Nat) (q : QueueRt) : (d.setQueue k q).diesUp = d.diesUp := rfl
@[simp] theorem MDie.setQueue_posts (d : MDie) (k : Nat) (q : QueueRt) : (d.setQueue k q).posts = d.posts := rfl
@[simp] theorem MDie.setQueue_free (d : MDie) (k : Nat) (q : QueueRt) : (d.setQueue k q).free = d.free := rfl
@[simp] theorem MDie.setQueue_posted (d : MDie) (k : Nat) (q : QueueRt) : (d.setQueue k q).posted = d.posted := rfl
@[simp] theorem MDie.setQueue_out (d : MDie) (k : Nat) (q : QueueRt) : (d.setQueue k q).out = d.out := rfl

@[simp] theorem MDie.queue?_setQueue (d : MDie) (k j : Nat) (q : QueueRt) : (d.setQueue k q).queue? j = if k = j then some q else d.queue? j := by
  simp [MDie.queue?, MDie.setQueue]

/-! The handle table. -/

theorem MDie.obj?_slot (d : MDie) (n : Nat) (o : Obj) (h : d.obj? n = some o) : ∃ g, alGet d.slots n = some ⟨g, .obj o⟩ := by
  unfold MDie.obj? at h
  split at h
  · rename_i g o' he
    cases h
    exact ⟨g, he⟩
  · cases h

/-- What the handle table holds after an object is put back into its slot. -/
theorem MDie.setObj_get (d : MDie) (n m : Nat) (o o' : Obj) (g : Nat) (h : alGet d.slots n = some ⟨g, .obj o⟩) :
    alGet (d.setObj n o').slots m = if n = m then some ⟨g, .obj o'⟩ else alGet d.slots m := by
  simp [MDie.setObj, h]

theorem MDie.setObj_obj? (d : MDie) (n m : Nat) (o o' : Obj) (h : d.obj? n = some o) :
    (d.setObj n o').obj? m = if n = m then some o' else d.obj? m := by
  obtain ⟨g, hg⟩ := d.obj?_slot n o h
  simp only [MDie.obj?, d.setObj_get n m o o' g hg]
  by_cases e : n = m <;> simp [e]

theorem MDie.modObj_obj? (d : MDie) (n m : Nat) (f : Obj → Obj) (o : Obj) (h : d.obj? n = some o) :
    (d.modObj n f).obj? m = if n = m then some (f o) else d.obj? m := by
  unfold MDie.modObj
  rw [h]
  exact d.setObj_obj? n m o (f o) h

theorem MDie.setData_obj? (d : MDie) (n m : Nat) (x : ObjData) (o : Obj) (h : d.obj? n = some o) :
    (d.setData n x).obj? m = if n = m then some { o with data := x } else d.obj? m :=
  d.modObj_obj? n m _ o h

/-- The object a handle names lies in the slot of the handle. -/
theorem MDie.find_obj? (d : MDie) (h : U32) (n : Nat) (o : Obj) (e : d.find h = some (n, o)) : n = hSlot h ∧ d.obj? n = some o := by
  unfold MDie.find at e
  split at e
  · cases e
  · split at e
    · rename_i g o' hs
      split at e
      · cases e
        exact ⟨rfl, by simp [MDie.obj?, hs]⟩
      · cases e
    · cases e

end Sys2Proof.Machine
end

