-- ==== Sys2Proof/Tests/Slice0.lean ====
section
/-! SUPPORT. Tests: the manual's worked examples, ill-formed commands that `Instr.wf` refuses, and for each statement concrete states
and operands that meet the hypotheses of its clauses: for every row, a state in which it completes. -/

namespace Sys2Proof.Tests

open Sys2Proof Sys2Proof.Machine

/- The theorems are checked one after another: all at once would need more threads than the memory limit of the check allows. -/
set_option Elab.async false

/-! States. -/

/-- A die that has booted: its host queues are open, queue 0 of the PCI Express host is on, its node is 0. -/
def boot : State :=
  let d := State.reset.md
  { State.reset with md := { d with
    pairLink := true
    boot := { d.boot with ready := true, stage := 5 }
    fab := { d.fab with node := 0 }
    rm := { d.rm with pcie := { d.rm.pcie with q0En := true } } } }

def withMd (s : State) (f : MDie → MDie) : State := { s with md := f s.md }

def withRm (s : State) (f : Ringmaster → Ringmaster) : State := withMd s (fun d => { d with rm := f d.rm })

/-- A die held in reset. -/
def held : State := withMd boot (fun d => { d with boot := { d.boot with inReset := true, ready := false, stage := 0, causes := [2] } })

/-- An object of a life state, with parameter values by ID. -/
def objOf (life : Life) (ps : List (Nat × Nat)) (x : ObjData) : Obj :=
  { fixedObj life x with params := ps.map (fun e => (e.1 * 65536, BitVec.ofNat 64 e.2)) }

def enObj (x : ObjData) : Obj := objOf .enabled [] x

def offObj (x : ObjData) : Obj := objOf .disabled [] x

def setObj (n : Nat) (o : Obj) (s : State) : State := withMd s (fun d => { d with slots := alSet d.slots n ⟨0, .obj o⟩ })

/-- The booted die with an object in a slot. -/
def bootWith (n : Nat) (o : Obj) : State := setObj n o boot

/-- The handle of the object in its slot. -/
def hOf (n : Nat) (o : Obj) : U32 := (bootWith n o).md.handle n

/-- The booted die with a port in some state. -/
def bootPort (k : Nat) (p : Port) : State := withMd boot (fun d => { d with ports := d.ports.set k p })

def upPort : Port := { Port.create with link := 2 }

/-- A packet of the PCI Express host on queue 0. -/
def pkt (flags : BitVec 8) (target : U32) (body : List Byte) : Pkt :=
  { client := clientOf .pcie, origin := 0, queue := 0, len := BitVec.ofNat 8 ((16 + body.length) / 8), flags := flags, seq := 7, target := target
    reserved := 0, task := none, stamp := none, body := body }

/-- The handle of `SYSTEM` on node 0. -/
def sysHandle : U32 := mkHandle 1 0 0 0

def nopPkt : Pkt := pkt 0 sysHandle []

def stamped (ns : Nat) : Pkt :=
  { nopPkt with len := 4, flags := 4, stamp := some ⟨0, BitVec.ofNat 32 ns, 0⟩ }

def block : TaskBlock := { tag := 5, ctrl := 0, deps := 0, shape := 0, next := 0, evtCode := 0, succs := [0, 0, 0, 0], ext := [] }

def taskPkt : Pkt := { nopPkt with len := 4, flags := 2, task := some block }

def act (op : Op) (target : U32) (body : List Byte) : Action :=
  { op := op, pkt := pkt 0 target body, chained := false, rt := replyTo op.code nopPkt none, charge := clientOf .pcie, accepted := 0, effect := 16000
    seq := 0, stamped := false, task := none, newSlot := none, late := false, okLate := false }

/-- `k` bytes of zero. -/
def zs (k : Nat) : List Byte := List.replicate k 0

/-! The queue. -/

theorem test_meets_StepRunsFrontCommand : { boot with pending := [.nop nopPkt, .sampleTick] }.pending = .nop nopPkt :: [.sampleTick] := rfl

theorem test_meets_IdleStepPassesBaseTick :
    boot.pending = []
    ∧ (let s := withMd boot (fun d => { d with time := ⟨15992, 0⟩ }); s.md.ns + 4 < s.md.nextTick ∧ s.md.ns % 4 = 0)
    ∧ (let s := withMd boot (fun d => { d with time := ⟨15996, 0⟩ }); s.md.nextTick ≤ s.md.ns + 4) := by decide +kernel

/-! Packets. -/

/-- Does the packet run to completion in its row? -/
def runsB (op : Op) (p : Pkt) (s : State) : Bool :=
  let d := packetDie op p s
  s.md.takesPackets p && s.md.knows p.client
    && (match s.md.ringOf p with
        | some k => s.md.queueRuns k && s.md.canFetch k && !s.md.fenced k p && !s.md.queueHeld (replyTo 0 p none)
        | none => true)
    && decide (2 ≤ p.len.toNat ∧ p.len.toNat ≤ 128)
    && decide (pktNormal p = p) && pktHeadOk p && decide (1 ≤ d.levelOf p) && pktLengthOk p op && !unknownClass p.target
    && (if op = .fabricCommit then d.isRoot || decide (d.boot.stage = 0xF) else d.isOwn p.target)
    && p.task.isNone && (d.takeBad true op p).isNone && d.slotFor p.client && !d.queueHeld (replyTo op.code p none)
    && decide ((d.takeTick true op p).1 ≤ d.ns)

theorem runs {op : Op} {p : Pkt} {s : State} (h : runsB op p s = true) : RunsNow op p s := by
  simp only [runsB, Bool.and_eq_true, decide_eq_true_eq, Bool.not_eq_true', Option.isNone_iff_eq_none] at h
  obtain ⟨⟨⟨⟨⟨⟨⟨⟨⟨⟨⟨⟨⟨⟨a, b⟩, c⟩, e⟩, f⟩, g⟩, i⟩, j⟩, k⟩, l⟩, m⟩, n⟩, o⟩, q⟩, r⟩ := h
  refine ⟨⟨⟨⟨a, b, ?_⟩, e.1, e.2⟩, ⟨f, g, i, j, k, ?_⟩, m, n, o, q⟩, r⟩
  · intro x hx
    rw [hx] at c
    simp only [Bool.and_eq_true, Bool.not_eq_true'] at c
    exact ⟨c.1.1.1, c.1.1.2, c.1.2, c.2⟩
  · split at l
    · rename_i hh; rw [if_pos hh]; simpa using l
    · rename_i hh; rw [if_neg hh]; exact l

/-- Packets that run, each with a state. -/
abbrev Runs (l : List (Op × Pkt × State)) : Prop := ∀ x ∈ l, RunsNow x.1 x.2.1 x.2.2

theorem runs_all {l : List (Op × Pkt × State)} (h : l.all (fun x => runsB x.1 x.2.1 x.2.2) = true) : Runs l :=
  fun x hx => runs (List.all_eq_true.mp h x hx)

def onSys (op : Op) (body : List Byte) : Op × Pkt × State := (op, pkt 0 sysHandle body, boot)

def onObj (op : Op) (body : List Byte) (n : Nat) (o : Obj) : Op × Pkt × State := (op, pkt 0 (hOf n o) body, bootWith n o)

theorem test_meets_AcceptedPacketRuns :
    Runs [onSys .nop [], onSys .sysIdentify []]
    ∧ (Accepts .nop (stamped 320000) boot
        ∧ (packetDie .nop (stamped 320000) boot).ns < (packetAction .nop (stamped 320000) boot).effect)
    ∧ (let a := act .nop sysHandle []
       (∀ n o, boot.md.find a.pkt.target = some (n, o) → o.cls ≠ .axis ∧ o.cls ≠ .gear ∧ o.cls ≠ .path) ∧ a.newSlot = none
        ∧ a.op ∉ [Op.canTx, .canFiltSwitch, .lcChallenge, .lcAdvance, .fabricCommit, .taskCancel, .taskCancelAll]
        ∧ (hostOf a.rt.client).isSome = true ∧ boot.md.dieIndex = 0) := by
  refine ⟨runs_all (by decide +kernel), ?_, ?_⟩
  · unfold Accepts Arrives Comes MDie.Accepts MDie.Reaches
    decide +kernel
  · refine ⟨?_, by decide +kernel⟩
    intro n o h
    have e : boot.md.find (act .nop sysHandle []).pkt.target = some (0, fixedObj .enabled .system) := by decide +kernel
    rw [e] at h
    cases h
    decide

def badBlock : TaskBlock := { block with shape := 1, succs := [0x12C, 0, 0, 0] }

/-- The client's share of tasks is used up. -/
def noTasks : State := withMd boot (fun d => { d with slots := alSet d.slots 0 ⟨0, .obj { enObj .system with
  params := [(paramKey Par.systemQuotaTasks (clientOf .pcie).toNat, 0)] }⟩ })

theorem test_meets_TaskPacketTaken :
    (TaskFits .nop taskPkt block 256 boot ∧ TaskFits .taskWait taskPkt block 256 boot)
    ∧ (let p := { taskPkt with task := some badBlock }
       Reaches .nop p boot ∧ (packetDie .nop p boot).takeBad true .nop p = none
        ∧ ((packetDie .nop p boot).succsBad (taskRefs badBlock)).2.isSome = true)
    ∧ (let d := packetDie .nop taskPkt noTasks
       Reaches .nop taskPkt noTasks ∧ d.takeBad true .nop taskPkt = none ∧ d.succsBad (taskRefs block) = (d, none)
        ∧ d.taskRoom taskPkt.client 0 = false) := by
  have h : ∀ op ∈ [Op.nop, .taskWait], let d := packetDie op taskPkt boot
      d.takeBad true op taskPkt = none ∧ d.succsBad (taskRefs block) = (d, none) ∧ d.taskRoom taskPkt.client 0 = true
        ∧ d.queueHeld (packetReply op taskPkt boot) = false ∧ d.nextSlot = some 256 := by decide +kernel
  have r : Reaches .nop taskPkt boot ∧ Reaches .taskWait taskPkt boot := by
    unfold Reaches Arrives Comes MDie.Reaches
    decide +kernel
  refine ⟨⟨?_, ?_⟩, ?_, ?_⟩
  · obtain ⟨a, b⟩ := h .nop (by decide)
    exact ⟨r.1, rfl, fun k st x y => (by rw [a] at y; cases y), b⟩
  · obtain ⟨a, b⟩ := h .taskWait (by decide)
    exact ⟨r.2, rfl, fun k st x y => (by rw [a] at y; cases y), b⟩
  · unfold Reaches Arrives Comes MDie.Reaches
    decide +kernel
  · unfold Reaches Arrives Comes MDie.Reaches
    decide +kernel

def badPkt : Pkt := { nopPkt with reserved := 1 }

/-- A packet of node 3, with which no command level is shared. -/
def levelled : State := withMd boot (fun d => { d with fab := { d.fab with levels := [(3, 1, 0)] } })

def fromNode3 : Pkt := { nopPkt with client := 3 }

/-- A route to node 5 by an UP port. -/
def routed : State := withMd boot (fun d => { d with
  fab := { d.fab with routes := [(5, ⟨6, 0xFF, 1⟩)] }
  ports := d.ports.set 0 upPort })

def node5 : Pkt := { nopPkt with target := mkHandle 1 5 0 0 }

/-- A command of the queue is not settled, which holds back one with `FENCE`. -/
def busyQueue : State := withMd boot (fun d => d.setQueue 0 { QueueRt.create with
  flights := [{ pid := 4, seq := 7, opcode := 0, settled := false, res1 := true, res2 := true, fwd := none, ack := false, due := none, task := 0 }] })

def fencePkt : Pkt := { nopPkt with flags := 8 }

/-- Every action slot of the host is taken. -/
def noSlots : State := withRm boot (fun r => { r with actions := List.replicate 1024 { act .nop sysHandle [] with effect := 1600000 } })

/-- Queue 0 of the host is off. -/
def queueOff : State := withRm boot (fun r => { r with pcie := { r.pcie with q0En := false } })

theorem test_meets_PacketsTurnedAway :
    (boot.md.takesPackets nopPkt = true ∧ boot.md.knows nopPkt.client = true ∧ Comes { nopPkt with len := 1 } boot ∧ Comes { nopPkt with len := 129 } boot
      ∧ { nopPkt with len := 1 }.len.toNat < 2 ∧ 128 < { nopPkt with len := 129 }.len.toNat)
    ∧ (queueOff.md.ringOf nopPkt = some 0 ∧ queueOff.md.queueRuns 0 = false)
    ∧ (busyQueue.md.ringOf fencePkt = some 0 ∧ busyQueue.md.queueRuns 0 = true ∧ busyQueue.md.fenced 0 fencePkt = true)
    ∧ (Arrives badPkt boot ∧ pktNormal badPkt = badPkt ∧ pktHeadOk badPkt = false)
    ∧ (Arrives fromNode3 levelled ∧ pktNormal fromNode3 = fromNode3 ∧ pktHeadOk fromNode3 = true ∧ (packetDie .nop fromNode3 levelled).levelOf fromNode3 < 1
        ∧ levelled.md.takesPackets fromNode3 = true ∧ levelled.md.knows 3 = true)
    ∧ (Arrives (pkt 0 sysHandle (zs 8)) boot ∧ pktHeadOk (pkt 0 sysHandle (zs 8)) = true
        ∧ 1 ≤ (packetDie .nop nopPkt boot).levelOf nopPkt ∧ pktLengthOk (pkt 0 sysHandle (zs 8)) .nop = false)
    ∧ (pktLengthOk nopPkt .nop = true ∧ unknownClass { nopPkt with target := 0 }.target = true
        ∧ unknownClass { nopPkt with target := mkHandle 26 0 0 0 }.target = true)
    ∧ (Arrives node5 boot ∧ unknownClass node5.target = false ∧ (packetDie .nop node5 boot).isOwn node5.target = false
        ∧ (packetDie .nop node5 boot).reachable 5 = false)
    ∧ (Arrives node5 routed ∧ (packetDie .nop node5 routed).isOwn node5.target = false ∧ (packetDie .nop node5 routed).reachable 5 = true
        ∧ (packetDie .nop node5 routed).e2eFree 5 = true)
    ∧ (let p := { nopPkt with target := mkHandle 1 0 1 0 }
       Reaches .nop p boot ∧ ((packetDie .nop p boot).takeBad true .nop p).isSome = true)
    ∧ (Reaches .nop nopPkt noSlots ∧ (packetDie .nop nopPkt noSlots).takeBad true .nop nopPkt = none
        ∧ (packetDie .nop nopPkt noSlots).slotFor nopPkt.client = false) := by
  unfold Reaches Arrives Comes MDie.Reaches
  and_intros <;> decide +kernel
theorem test_meets_RefusedCommandHasNoEffect : Op.nop ≠ .profCommit ∧ Op.nop ≠ .lcAdvance ∧ Op.nop ≠ .objectEnable := by decide

/-- R49, the worked example of chapter 02: A = 17 s + 45,300 ns and 17 s + 62,500 ns, class 1 ticks. -/
theorem test_tick_of_effect :
    let at45 := (withMd boot (fun d => { d with time := ⟨17000045300, 0⟩ })).md
    let at62 := (withMd boot (fun d => { d with time := ⟨17000062500, 0⟩ })).md
    let stampAt (ns : Nat) : Pkt := { nopPkt with stamp := some ⟨17, BitVec.ofNat 32 ns, 0⟩ }
    at45.effectTick false 32000 nopPkt = (17000064000, false)
    ∧ at45.effectTick false 32000 (stampAt 100000) = (17000128000, false)
    ∧ at45.effectTick false 32000 (stampAt 40000) = (17000064000, true)
    ∧ at62.effectTick false 32000 (stampAt 63000) = (17000096000, true) := by decide +kernel

/-- The clauses of `TickOfEffect`: a stamp before acceptance, one whose tick is before the reach, one that is kept. -/
theorem test_meets_TickOfEffect :
    0 < 32000 ∧ (17 * 1000000000 + 40000) * 65536 < 17000045300 * 65536 ∧ 17 * 1000000000 + 63000 + 32000 ≤ 17000096000
    ∧ (17000045300 * 65536 ≤ (17 * 1000000000 + 100000) * 65536 ∧ 17000064000 ≤ 17 * 1000000000 + 100000)
    ∧ 32000 % 32000 = 0 := by decide

theorem test_meets_PacketBytesReadBack :
    (taskPkt.task.isSome = taskFlag taskPkt ∧ taskPkt.stamp.isSome = stampFlag taskPkt
      ∧ block.succs.length = 4 ∧ block.ext.length = 2 * block.next.toNat)
    ∧ ((stamped 5).task.isSome = taskFlag (stamped 5) ∧ (stamped 5).stamp.isSome = stampFlag (stamped 5)) := by decide +kernel

/-- The packets of the worked example of chapter 03, byte for byte. -/
theorem test_example_packets :
    let p : Pkt := { nopPkt with flags := 1, seq := 0x41, target := 0x08090000, len := 3, body := [2, 0, 0, 0, 0, 0, 0, 0] }
    let m : Pkt := { nopPkt with
      flags := 5
      seq := 0x49
      target := 0x10095123
      len := 6
      stamp := some ⟨17, 1000000, 0⟩
      body := [0xA0, 0x25, 0x26, 0, 0, 0, 0, 0, 0, 0, 0, 0, 0, 0, 0, 0] }
    pktEncode p Op.objectCreate.code = [1, 0x10, 3, 1, 0x41, 0, 0, 0, 0, 0, 9, 8, 0, 0, 0, 0, 2, 0, 0, 0, 0, 0, 0, 0]
    ∧ pktEncode m Op.moveAbs.code =
      [0x10, 0x40, 6, 5, 0x49, 0, 0, 0, 0x23, 0x51, 9, 0x10, 0, 0, 0, 0, 0x11, 0, 0, 0, 0, 0, 0, 0, 0x40, 0x42, 0x0F, 0, 0, 0, 0, 0,
       0xA0, 0x25, 0x26, 0, 0, 0, 0, 0, 0, 0, 0, 0, 0, 0, 0, 0]
    ∧ replyBytes (replyTo 0x1001 p none) .ok ⟨0x10095123, 0⟩ 17000048000 =
      [0x41, 0, 0, 0, 1, 0x10, 0, 0, 0x23, 0x51, 9, 0x10, 0, 0, 0, 0, 0x11, 0, 0, 0, 0x80, 0xBB, 0, 0, 0, 0, 0, 0, 0, 0, 0, 0] := by
  decide +kernel

/-- The handle of the worked example of chapter 01, and the one after the slot's next use. -/
theorem test_example_handle : mkHandle 2 0x012 5 0x123 = 0x10095123 ∧ mkHandle 2 0x012 6 0x123 = 0x10096123 := by decide

theorem test_meets_ReplyRecordOnlyWhenDue :
    boot.md.dieIndex = 0 ∧ (hostOf (clientOf .pcie)).isSome = true ∧ replyDue (replyTo Op.nop.code nopPkt none) .okLate = false
    ∧ replyDue (replyTo Op.nop.code nopPkt none) .badOpcode = true ∧ replyDue (replyTo Op.nop.code { nopPkt with flags := 1 } none) .ok = true := by
  decide +kernel

theorem test_meets_SampleClassPeriods : 0 ≤ 4 ∧ 4 ≤ 4 := by decide

theorem test_meets_HandleFields : 31 < 32 ∧ 4095 < 4096 ∧ 7 < 8 := by decide

/-! Commands at their tick. -/

def mailbox : Canmb := { ctrl := 0, index := 0, record := ⟨0, 0, 0, 0, 0, 0, []⟩, taken := true, rcnt := 0, lostCount := 0, staged := [] }

/-- An object of each class in a slot it can have. -/
def samples : List (Nat × Obj) :=
  [(0, enObj .system), (1, enObj .time), (2, offObj (.prof 0)), (6, enObj (.port 0)), (10, enObj (.canc Canc.create)), (32, enObj (.fio 0)),
   (64, enObj (.sdin Sdin.create)), (72, enObj (.dlane Lane.create)), (88, enObj (.safe 88)), (300, enObj (.axis Axis.create)),
   (300, enObj (.fbk (Fbk.create 0))), (300, enObj (.path Path.create)), (300, enObj (.gear Gear.create)), (300, enObj (.evt Cmp.create)),
   (300, enObj (.capt Capt.create)), (300, enObj (.lclk (Lclk.create 0))), (300, enObj (.lgrp (Lgrp.create 0 0))), (300, offObj (.lgrp (Lgrp.create 0 0))),
   (300, enObj (.trace Trace.create)), (300, enObj (.pwmg (Pwmg.create 7))), (300, enObj (.dmac (Dmac.create 0))), (300, enObj (.canmb mailbox))]

/-- Each is found by its handle: the hypothesis that the effects of commands share. -/
theorem test_meets_found_by_handle : ∀ x ∈ samples, (bootWith x.1 x.2).md.find (hOf x.1 x.2) = some (x.1, x.2) := by decide +kernel

/-- Creation of an axis in the slot set aside for it. -/
theorem test_meets_GeneralCommandEffects_create :
    classOfCode (rdU [2, 0, 0, 0, 0, 0, 0, 0] 0 1) = some Class.axis ∧ rdU [2, 0, 0, 0, 0, 0, 0, 0] 2 2 = 0
    ∧ (boot.md.template (clientOf .pcie) .axis 0).isSome = true ∧ { act .objectCreate sysHandle [2, 0] with newSlot := some 256 }.newSlot = some 256 := by
  decide +kernel

/-- Life: an object of slot 256 or above in each of the four states. -/
theorem test_meets_GeneralCommandEffects_life : ∀ l ∈ [Life.created, Life.enabled, Life.draining, Life.disabled],
    let o := objOf l [] (.trace Trace.create)
    (bootWith 256 o).md.find (hOf 256 o) = some (256, o) ∧ o.life = l ∧ 256 ≤ 256 := by decide +kernel

/-- Parameters: a route read, a read/write and a write-1-to-clear parameter of a trace. -/
theorem test_meets_GeneralCommandEffects_param :
    let o := enObj (.trace Trace.create)
    o.cls = .trace ∧ rdU (d16 Par.objectEvtRoute ++ d16 0) 0 2 = Par.objectEvtRoute ∧ rdU (d16 Par.objectEvtMask ++ d16 0) 0 2 = Par.objectEvtMask
    ∧ ((rowOf o.cls Par.objectEvtMask).map ParamRow.access) = some Access.rw
    ∧ ((rowOf o.cls Par.traceDropped).map ParamRow.access) = some Access.w1c
    ∧ rdU (d16 Par.objectState) 0 2 = Par.objectState ∧ rdU (d16 Par.objectOwner) 0 2 = Par.objectOwner := by
  decide +kernel

def axisO : Obj := enObj (.axis Axis.create)
def fbkO : Obj := enObj (.fbk (Fbk.create 0))
def pathO : Obj := enObj (.path Path.create)
def gearO : Obj := enObj (.gear Gear.create)
def cmpO : Obj := enObj (.evt Cmp.create)
def lclkO : Obj := enObj (.lclk (Lclk.create 0))

/-- `OBJECT_CREATE` … `PARAM_SET_MULTI`: each on an object that takes it. -/
theorem test_meets_GeneralCommandEffects_complete : Runs
    [onSys .nop [], onSys .objectCreate ([2, 0, 0, 0] ++ zs 4), onObj .objectDestroy [] 300 (offObj (.axis Axis.create)),
     onObj .objectEnable [] 300 (offObj (.capt Capt.create)), onObj .objectDisable [] 300 axisO, onSys .paramGet (d16 Par.objectState ++ zs 6),
     onObj .paramSet (d16 Par.objectEvtMask ++ zs 14) 300 axisO, onObj .paramSetMulti ([1] ++ zs 7 ++ d16 Par.objectEvtMask ++ zs 14) 300 axisO] :=
  runs_all (by decide +kernel)

theorem test_meets_MotionCommandEffects :
    (∀ op ∈ [Op.moveAbs, .moveRel, .moveVel, .moveHold, .stop, .stopQuick], (motionCmd op (zs 16)).isSome = true
        ∧ op ≠ .objectDisable ∧ ∀ c, motionCmd op (zs 16) = some c → takesCmd Axis.create.core.mode c = true)
    ∧ Axis.create.core.mode = .idle ∧ takesCmd .blocked .hold = false ∧ takesCmd .path (.stop true) = false
    ∧ { AxisCore.create with mode := .geared }.mode = .geared ∧ takesCmd .geared (.stop true) = true
    ∧ Path.create.queued < 64 ∧ (bootWith 300 pathO).md.pathBlocked pathO = false ∧ Path.create.mode ≠ 1 ∧ Gear.create.engaged = false
    ∧ (enObj (.fbk (Fbk.create 0))).life = .enabled := by
  decide +kernel

/-- A path of two members whose arc tolerance is wide. -/
def arcPath : Obj := { pathO with
  params := [(paramKey Par.pathMember 0, 0x10000000), (paramKey Par.pathMember 1, 0x10000001), (paramKey Par.pathArcTol 0, 4294967296)] }

/-- A link with a cam, and the cam. -/
def camO : Obj := offObj (.cam ⟨2, 0x400000, 32⟩)
def camGear : Obj := objOf .enabled [(Par.gearCam, (hOf 301 camO).toNat)] (.gear Gear.create)

theorem test_meets_MotionCommandEffects_complete : Runs
    [onObj .fbkSetState ([1] ++ zs 7) 300 fbkO, onObj .fbkSetPos (zs 16) 300 fbkO, onObj .fbkRefIndex (zs 16) 300 fbkO, onObj .fbkRefCancel [] 300 fbkO,
     onObj .fbkGetSample [] 300 fbkO, onObj .moveAbs (zs 16) 300 axisO, onObj .moveRel (zs 16) 300 axisO, onObj .moveVel (zs 8) 300 axisO,
     onObj .moveHold [] 300 axisO, onObj .stop [] 300 axisO, onObj .stopQuick [] 300 axisO, onObj .stop [] 300 pathO, onObj .stopQuick [] 300 pathO,
     onObj .axisGetSample [] 300 axisO, onObj .pathLine (zs 80) 300 pathO,
     onObj .pathArc ([0, 0, 0, 0x10, 0, 0, 0, 0] ++ zs 8 ++ leBytes 8 100 ++ zs 72) 300 arcPath, onObj .pathFlush [] 300 pathO,
     onObj .gearRatio (zs 12 ++ [1, 0, 0, 0] ++ zs 16) 300 gearO,
     (.gearCamSwitch, pkt 0 (hOf 300 camGear) (leBytes 4 (hOf 301 camO).toNat ++ zs 4), setObj 301 camO (bootWith 300 camGear)),
     onObj .gearShift (zs 16 ++ leBytes 8 1) 300 gearO, onObj .evtArm (zs 24) 300 cmpO, onObj .evtDisarm [] 300 cmpO,
     onObj .captArm [] 300 (enObj (.capt Capt.create)), onObj .lclkArm (zs 16) 300 lclkO, onObj .lclkReg (zs 16) 300 lclkO] :=
  runs_all (by decide +kernel)

theorem test_meets_DriveCommandEffects :
    (Lgrp.create 0 0).gateTick ≠ some 16000 ∧ (offObj (.lgrp (Lgrp.create 0 0))).life = .disabled ∧ rdU [0] 0 1 = 0
    ∧ (bitOf (rdU [0, 0, 2, 0] 2 1) 0 = false ∧ bitOf (rdU [0, 0, 2, 0] 2 1) 1 = true ∧ rdU [0, 0, 2, 0] 0 2 = 0)
    ∧ (let s := bootWith 32 (enObj (.fio 0)); (s.md.field.chans[32 - 32]?).isSome = true ∧ s.md.obj? (32 + (32 - 32)) = some (enObj (.fio 0)))
    ∧ (let s := bootWith 63 (enObj (.fio 31)); (s.md.field.chans[63 - 32]?).isSome = true ∧ s.md.obj? (32 + (63 - 32)) = some (enObj (.fio 31)))
    ∧ rdU [0, 0, 0, 0] 0 4 = 0 := by
  decide +kernel

def lgrpO : Obj := enObj (.lgrp (Lgrp.create 0 0))
def pwmO : Obj := enObj (.pwmg (Pwmg.create 7))
def laneO : Obj := enObj (.dlane Lane.create)

/-- A loop group with the lists of the host and a whole standby bank. -/
def hostLists (life : Life) : Obj :=
  let g := Lgrp.create 0 0
  let rest := g.bankB.drop 32
  let bank := leBytes 4 0x4C424B31 ++ [1, 0, 0, 0] ++ (dimsBytes g.inner.dims).map (BitVec.ofNat 8) ++ zs 15 ++ leBytes 4 (crc32 rest).toNat ++ rest
  objOf life [(Par.lgrpListMode, 1)] (.lgrp { g with bankB := bank, inner := { g.inner with steps := [15] } })

theorem test_meets_DriveCommandEffects_complete : Runs
    [onObj .lgrpCoefWrite ([1, 0, 8, 0] ++ zs 12) 300 lgrpO, onObj .lgrpBankSwap [] 300 (hostLists .enabled), onObj .lgrpResetState ([1] ++ zs 7) 300 lgrpO,
     onObj .lgrpTakeFlags [] 300 lgrpO, onObj .lgrpStepWrite ([0, 0, 8, 0] ++ zs 12) 300 (hostLists .disabled),
     onObj .lgrpStepRead (zs 8) 300 (hostLists .enabled), onObj .traceArm [] 300 (enObj (.trace Trace.create)),
     onObj .traceStop [] 300 (enObj (.trace Trace.create)),
     onObj .traceRead (zs 8) 300 (enObj (.trace { Trace.create with writeIdx := 1, depth := 1, size := 16 })),
     onObj .pwmWrite ([1, 0, 1] ++ zs 13) 300 pwmO, onObj .pwmLoadAll [] 300 pwmO, onObj .pwmForce ([1, 0, 1] ++ zs 5) 300 pwmO,
     onObj .dlaneStageReset ([1] ++ zs 7) 72 laneO, onObj .dlaneGetUplink (zs 8) 72 laneO, onSys .fioWriteMask (zs 8),
     onObj .fioReset [] 32 (enObj (.fio 0)), onSys .fioReadAll [],
     (.safeReadLog, pkt 0 (hOf 88 (enObj (.safe 88))) (zs 8), withMd boot (fun d => { d with safe := { d.safe with log := [(⟨0, 5, 32, 0, 88⟩, 0)] } }))] :=
  runs_all (by decide +kernel)

theorem test_meets_NetworkCommandEffects :
    boot.md.fab.routes = [] ∧ 0 + 5000000 ≤ 5000000 ∧ 4999999 < 0 + 5000000
    ∧ (enObj (.port 0)).life = .enabled ∧ (offObj (.port 0)).life ≠ .enabled
    ∧ (Dmac.create 0).phase = .idle ∧ { Dmac.create 0 with phase := .wait }.phase = .wait ∧ (Dmac.create 0).phase ≠ .wait
    ∧ { Dmac.create 0 with phase := .burst 8 }.phase = .burst 8
    ∧ (Canc.create.submit (CanRec.decode (zs 80)) 0 (some 3)).isSome = true
    ∧ bitOf (rdU [0, 1] 1 1) 0 = true ∧ bitOf (rdU [0, 0] 1 1) 0 = false := by
  decide +kernel

def timeH : U32 := hOf 1 (enObj .time)
def dmacO (p : DmaPhase) : Obj := enObj (.dmac { Dmac.create 0 with phase := p })
def cancO : Obj := enObj (.canc Canc.create)

theorem test_meets_NetworkCommandEffects_complete : Runs
    [(.fabricCommit, pkt 0 sysHandle ([1] ++ zs 7), withMd boot (fun d => { d with fab := { d.fab with rootNode := 0 } })),
     onObj .portRetrain [] 6 (enObj (.port 0)), onSys .fabricRouteGet (zs 8),
     (.timeAcceptStep, pkt 0 timeH (zs 8), withMd boot (fun d => { d with mer := { d.mer with st := 4 } })),
     (.timeSet, pkt 0 timeH (zs 8), withMd boot (fun d => { d with mer := { d.mer with isGm := true } })), (.timeGet, pkt 0 timeH [], boot),
     onObj .dmaStart (leBytes 8 0x400000) 300 (dmacO .idle), onObj .dmaResume [] 300 (dmacO .wait), onObj .dmaAbort [] 300 (dmacO .idle),
     onObj .canTx (zs 16) 10 cancO, onObj .canTxCancel (zs 8) 10 cancO, onObj .canFiltSwitch (zs 8) 10 cancO,
     onObj .canmbRead (zs 8) 300 (enObj (.canmb mailbox))] :=
  runs_all (by decide +kernel)

/-- A die that holds a waiting task in slot 300. -/
def taskRec : TaskRec := { op := .nop, pkt := taskPkt, rt := replyTo Op.nop.code taskPkt none, deps := 2, succs := [], st := .waiting, intake := 0, doomed := false }

def withTask (t : TaskRec) : State := withMd boot (fun d => { d with slots := alSet d.slots 300 ⟨0, .task t⟩ })

theorem test_meets_SystemCommandEffects :
    (withTask taskRec).md.findTask (mkHandle Class.task.code 0 0 300) = some (300, taskRec)
    ∧ taskRec.st = .waiting ∧ rdU [1] 0 1 < taskRec.deps
    ∧ (enObj .system).data = .system ∧ boot.md.boot.inReset = false ∧ rdU [1] 0 1 = 1
    ∧ (boot.md.mem.claim 3).isOk = true ∧ boot.md.mem.claimed.contains 3 = false ∧ boot.md.camLocked = []
    ∧ rdU [0] 0 1 = boot.md.mram.fwNext ∧ rdU [1] 0 1 ≠ boot.md.mram.fwNext ∧ rdU [2] 0 1 ≠ 1
    ∧ boot.md.engines[rdU [0] 0 1]? = some Engine.create ∧ boot.md.engines[rdU [1] 0 1]? = some Engine.create
    ∧ Engine.create.halted = false ∧ { Engine.create with halted := true }.halted = true
    ∧ rdU [0, 1] 1 1 = 1 := by
  decide +kernel

/-- The header of an Almanac image without records. -/
def image : List Byte :=
  let h : List Byte := leBytes 4 0x414C4D31 ++ [1, 0] ++ zs 54
  h ++ leBytes 4 (crc32 h).toNat

def profO : Obj := offObj (.prof 0)

/-- The die with an image in its first Almanac slot. -/
def withImage (st : Nat) : State :=
  withMd boot (fun d => { d with mram := { d.mram with slots := d.mram.slots.set 0 ⟨st, Memory.writeN [] 0 image, []⟩ } })

def taskH : U32 := mkHandle Class.task.code 0 0 300

theorem test_meets_SystemCommandEffects_complete : Runs
    [(.taskCancel, pkt 0 taskH (zs 8), withTask taskRec), (.taskSignal, pkt 0 taskH ([1] ++ zs 7), withTask taskRec), onSys .taskCancelAll (zs 8),
     onObj .profWrite ([0, 0, 0, 0, 8, 0, 0, 0] ++ zs 8) 2 profO, (.profCommit, pkt 0 (hOf 2 profO) [], withImage 1), onObj .profErase [] 2 profO,
     (.profSelectNext, pkt 0 (hOf 2 profO) [], withImage 2), onSys .journalSync [], onSys .journalClear ([1] ++ zs 7), onSys .memClaim ([3] ++ zs 7),
     onSys .memRelease ([3] ++ zs 7), onSys .memWrite (leBytes 4 0x3F0000 ++ [8, 0, 0, 0] ++ zs 8), onSys .memRead (leBytes 4 0x400000 ++ zs 4),
     onSys .fwWrite ([0, 0, 0, 0, 8, 0, 0, 0] ++ zs 8),
     (.fwVerify, pkt 0 sysHandle [], withMd boot (fun d => { d with mram := { d.mram with banks := List.replicate 2 ⟨2, .delivered 1 1 1, []⟩ } })),
     onSys .fwActivate (zs 8), onSys .lcChallenge [], onSys .lcAdvance ([2] ++ zs 71), onSys .sysReset ([1] ++ zs 7), onSys .sysIdentify [],
     onSys .dbgHalt (zs 8), onSys .dbgResume (zs 8),
     (.dbgStep, pkt 0 sysHandle ([0, 1, 0, 0] ++ leBytes 4 (hOf 300 lgrpO).toNat),
       withMd (bootWith 300 lgrpO) (fun d => { d with engines := List.replicate 2 { Engine.create with halted := true } })),
     onSys .dbgCtxRead (zs 8)] :=
  runs_all (by decide +kernel)

/-! Host ports and queues. -/

/-- Queue 0 of a host is on, with a packet of `NOP` in its command ring. -/
def qOn (p : HostPort) : State := withMd boot (fun d =>
  ({ d with rm := { d.rm with
      pcie := { d.rm.pcie with q0En := true }
      qspi := { d.rm.qspi with q0En := true } } } : MDie).setQueue (queueKey p 0) { QueueRt.create with tail := 2 })

theorem test_meets_DoorbellsAndRings (p : HostPort) :
    (qOn p).md.boot.inReset = false ∧ (qOn p).md.dieIndex = 0 ∧ (qOn p).md.queue? (queueKey p 0) = some { QueueRt.create with tail := 2 }
    ∧ (qOn p).md.doorsOpen (queueKey p 0) = true ∧ (qOn p).md.queueBegun (queueKey p 0) = true
    ∧ ((qOn p).md.queueCfg (queueKey p 0)).any (fun c => c.on && c.cmdSize / 8 == 512 && c.rplSize == 32) = true
    ∧ ((qOn p).md.rm.regs p).evr[7]? = some EvRing.create ∧ 31 < { EvRing.create with size := 32 }.size
    ∧ (5 ≤ 5 ∧ 5 ≤ 15 ∧ (32 : Nat) = 2 ^ 5) ∧ (15 ≤ 15 ∧ (32768 : Nat) = 2 ^ 15) ∧ (∀ k ∈ List.range 16, 5 ≤ k → (48 : Nat) ≠ 2 ^ k) := by
  cases p <;> decide +kernel

theorem test_meets_HostWindowAndQspi :
    boot.md.boot.inReset = false ∧ boot.md.dieIndex = 0 ∧ (boot.md.queue? (queueKey .pcie 0)).isSome = true
    ∧ ¬ ([0, 0, 0] : List Byte).length = 4 ∧ ¬ 2 % 4 = 0 ∧ boot.md.boot.stage ≠ 0xE ∧ ((qOn .pcie).md.rm.regs .pcie).q0En = true
    ∧ (queueOff.md.rm.regs .pcie).q0En = false ∧ rdU [0, 0x10, 0, 0] 0 4 % 4096 = 0
    ∧ qspiOk 2 4 = false ∧ qspiOk 0 3 = false ∧ qspiOk 0xFFFFFFFC 4 = false
    ∧ (0x10000 % 4 = 0 ∧ 0x10000 ≤ 0x10000 ∧ 0x1FFFC < 0x20000 ∧ 0x1FFFC % 4 = 0) := by
  decide +kernel

theorem test_meets_LinkResetsAndTap :
    boot.md.boot.inReset = false ∧ boot.md.dieIndex = 0
    ∧ (let s := withMd boot (fun d => d.setQueue 0 { QueueRt.create with halted := true })
       ∀ q < 8, ∀ rt, s.md.queue? (queueKey .pcie q) = some rt → rt.halted = true)
    ∧ boot.md.slotsOf .dmac = [] ∧ (Instr.highz, 5) ∈ [(Instr.extest, 0), (Instr.clamp, 4), (Instr.highz, 5)] ∧ boot.md.mram.lc = 1
    ∧ (withMd boot (fun d => { d with mram := { d.mram with lc := 2 } })).md.mram.lc = 2 := by
  refine ⟨by decide, by decide, ?_, by decide +kernel, by decide, by decide, by decide⟩
  intro s q hq rt h
  have : q = 0 ∨ q = 1 ∨ q = 2 ∨ q = 3 ∨ q = 4 ∨ q = 5 ∨ q = 6 ∨ q = 7 := by omega
  rcases this with rfl | rfl | rfl | rfl | rfl | rfl | rfl | rfl <;> cases h <;> rfl

def isDone : Taken → Bool
  | .done _ => true
  | _ => false

/-- A QSPI ring in the SRAM that holds the packet. -/
def qspiFull : State := withMd (qOn .qspi) (fun d => { d with mem := d.mem.write 0x3F0000 (pktEncode nopPkt Op.nop.code) })

/-- The packet at the head of the ring is fetched and accepted. -/
def fetchMeets (p : HostPort) (s : State) : Bool :=
  let q := { QueueRt.create with tail := 2 }
  let ring := pktEncode nopPkt Op.nop.code
  let got := pktDecode (clientOf p) 0 0 (ring.take (8 * rdU ring 2 1))
  let x := s.md.start.fetched (queueKey p 0) got.1 got.2 true
  let d := x.1
  decide (s.md.boot.inReset = false ∧ s.md.queue? (queueKey p 0) = some q ∧ s.md.turnKey = some (queueKey p 0)
      ∧ 2 ≤ rdU ring 2 1 ∧ rdU ring 2 1 ≤ 128 ∧ 8 * rdU ring 2 1 ≤ ring.length)
    && (s.md.queueCfg (queueKey p 0)).any (fun c => decide (8 * rdU ring 2 1 ≤ c.avail q) && (p == .pcie || s.md.qspiRing c q == ring))
    && !s.md.fenced (queueKey p 0) got.2 && isDone (d.take false got.1 got.2 x.2) && got.1 == Op.nop.code
    && decide (pktNormal got.2 = got.2) && pktHeadOk got.2 && decide (1 ≤ d.levelOf got.2) && pktLengthOk got.2 .nop && !unknownClass got.2.target
    && d.isOwn got.2.target && got.2.task.isNone && (d.takeBad false .nop got.2).isNone && d.slotFor got.2.client
    && !d.queueHeld (replyTo Op.nop.code got.2 none)

theorem test_meets_PacketsFetchedFromRings : fetchMeets .pcie (qOn .pcie) = true ∧ fetchMeets .qspi qspiFull = true := by
  decide +kernel

theorem test_meets_PacketsFetchedFromRings_errors :
    (qOn .pcie).md.turnKey = some 0 ∧ QueueRt.create.halted = false ∧ (qOn .pcie).md.doorsOpen 0 = true ∧ (qOn .pcie).md.writesReplies 0 = true
    ∧ boot.md.turnKey ≠ some 0 := by
  decide +kernel

/-- A packet of node 3 that waits, on a die that shares level 1 with it, and one of the PCI Express host. -/
def oneHeld : Held := { op := .nop, pkt := fromNode3, rt := replyTo Op.nop.code fromNode3 none, ring := 0 }
def hostHeld : Held := { op := .nop, pkt := nopPkt, rt := replyTo Op.nop.code nopPkt none, ring := 2 }

def forwarded : QueueRt :=
  { QueueRt.create with flights := [{ pid := 4, seq := 7, opcode := BitVec.ofNat 16 Op.nop.code, settled := false, res1 := true, res2 := true, fwd := some (5, 1000)
                                      ack := false, due := none, task := 0 }] }

theorem test_meets_HeldAndForwardedPackets :
    boot.md.rm.held = [] ∧ hostOf oneHeld.rt.client = none ∧ hostOf hostHeld.rt.client = some .pcie ∧ hostHeld.ring ≠ 0
    ∧ (let s := withMd (withRm boot (fun r => { r with held := [oneHeld] })) (fun d => { d with fab := { d.fab with levels := [(3, 1, 1)] } })
       let d := ({ s.md.start with rm := { s.md.rm with held := [] } } : MDie)
       s.md.rm.held = [oneHeld] ∧ isDone (d.take false oneHeld.rt.opcode.toNat oneHeld.pkt none) = true ∧ oneHeld.rt.opcode.toNat = Op.nop.code
        ∧ d.Accepts false .nop oneHeld.pkt)
    ∧ (let s := withRm boot (fun r => { r with held := [hostHeld] })
       let got := ({ s.md.start with rm := { s.md.rm with held := [] } } : MDie).fetched 0 hostHeld.rt.opcode.toNat hostHeld.pkt (hostHeld.ring == 1)
       s.md.rm.held = [hostHeld] ∧ s.md.canFetch 0 = true ∧ s.md.fenced 0 hostHeld.pkt = false
        ∧ isDone (got.1.take false hostHeld.rt.opcode.toNat hostHeld.pkt got.2) = true)
    ∧ (let s := withRm boot (fun r => { r with queues := [(0, forwarded), (8, QueueRt.create)] })
       s.md.rm.queues = [] ++ (0, forwarded) :: [(8, QueueRt.create)]
       ∧ (∀ x ∈ [] ++ [(8, QueueRt.create)], x.2.flights.find? (fun f => decide (f.pid = 4) && !f.settled) = none)
       ∧ ((forwarded.flights.find? (fun f => decide (f.pid = 4) && !f.settled)).map Flight.fwd) = some (some (5, 1000))
       ∧ (s.md.start.passUp 1000).isSome = true) := by
  unfold MDie.Accepts MDie.Reaches
  decide +kernel

theorem test_meets_TicksAndPendingCommands :
    (let a := { act .nop sysHandle [] with effect := 0 }
     let s := withMd boot (fun d => { d with rm := { d.rm with actions := [a] } })
     s.md.boot.inReset = false ∧ s.md.rm.actions = [a] ∧ a.effect ≤ s.md.tick
      ∧ (({ s.md.start with rm := { s.md.rm with actions := [] } } : MDie).apply a s.md.tick).rm.actions = [])
    ∧ (let a := { act .nop sysHandle [] with stamped := true }
       let s := withMd boot (fun d => { d with rm := { d.rm with actions := [a] } })
       a ∈ s.md.rm.actions ∧ a.stamped = true ∧ a.effect = s.md.nextTick)
    ∧ boot.md.ns < boot.md.tick + 16000 ∧ held.md.boot.inReset = true := by
  decide +kernel

theorem test_meets_CleanBoundaryEndsDrain :
    (∀ x ∈ [ObjData.axis { Axis.create with core := { AxisCore.create with draining := true } }, .fbk (Fbk.create 0), .trace Trace.create],
      let o := objOf .draining [] x
      (bootWith 300 o).md.boot.inReset = false ∧ (bootWith 300 o).md.obj? 300 = some o ∧ o.life = .draining)
    ∧ (let o := objOf .draining [] (.dlane { Lane.create with link := 1 }); (bootWith 72 o).md.obj? 72 = some o ∧ o.life = .draining ∧ 1 < 2)
    ∧ (enObj (.trace Trace.create)).life ≠ .draining
    ∧ (let a := { Axis.create with core := { AxisCore.create with draining := true } }
       a.core.draining = true ∧ atRest a.cur = true
        ∧ a.core.plan.endsAt ≤ (bootWith 300 (objOf .draining [] (.axis a))).md.tickOf 300) := by
  decide +kernel

/-! The Turnstile. -/

/-- A ready task: its command, and whether it passes its checks and finds a slot. -/
def dispatchMeets (op : Op) (target : U32) (s : State) : Bool × Bool :=
  let t := { taskRec with op := op, pkt := { taskPkt with target := target }, deps := 0, st := .ready 0 }
  let d := (withMd s (fun d => { d with slots := alSet d.slots 300 ⟨0, .task t⟩ })).md.start
  let p := { t.pkt with task := none, flags := t.pkt.flags &&& 0xFD }
  let eff := d.effectTick false (d.targetPeriod p.target) p
  (decide (d.nextTask = some (300, t)) && ((d.projected eff.1).ownBad (if t.op = .taskWait then .nop else t.op) p clientTurnstile).isNone,
    d.slotFor clientTurnstile)

/-- All slots are taken. -/
def full : State := withRm boot (fun r => { r with actions := List.replicate 2048 { act .nop sysHandle [] with effect := 1600000 } })

theorem test_meets_ReadyTaskDispatched :
    boot.md.nextTask = none ∧ dispatchMeets .nop sysHandle boot = (true, true) ∧ dispatchMeets .taskWait sysHandle boot = (true, true)
    ∧ dispatchMeets .nop sysHandle full = (true, false) ∧ (dispatchMeets .nop (mkHandle 1 0 1 0) boot).1 = false := by
  decide +kernel

theorem test_meets_RemoteTaskCompletions :
    (let s := withMd boot (fun d => { d with rm := { d.rm with taken := [(3, 1)] } }); (3, 1) ∈ s.md.rm.taken)
    ∧ (3, 1) ∉ boot.md.rm.taken
    ∧ (withTask taskRec).md.findTask (mkHandle Class.task.code 0 0 300) = some (300, taskRec) ∧ taskRec.st = .waiting ∧ 1 < taskRec.deps
    ∧ (let t := { taskRec with deps := 1 }
       (withTask t).md.findTask (mkHandle Class.task.code 0 0 300) = some (300, t) ∧ t.deps = 1)
    ∧ (let r : RemoteDone := { token := 1, pred := 0, tag := 5, client := clientOf .pcie, ring := 0, succ := 0, cancel := false, deadline := 1000, sent := true }
       let s := withMd boot (fun d => { d with rm := { d.rm with remote := [r] } })
       s.md.rm.remote.find? (fun r => decide (r.token = 1)) = some r ∧ (s.md.start.passUp r.deadline).isSome = true) := by
  decide +kernel

/-! Feedback, motion, position events. -/

def atTime (ns : Nat) (s : State) : State := withMd s (fun d => { d with time := ⟨ns, 0⟩, tick := ns / 16000 * 16000, upNs := ns })

theorem test_meets_FeedbackRows :
    (let o := objOf .enabled [(Par.fbkSpeedTimeout, 100)] (.fbk (Fbk.create 0))
     let s := atTime 100000 (bootWith 300 o)
     s.md.boot.inReset = false ∧ s.md.fbk? 300 = some (o, Fbk.create 0) ∧ o.life = .enabled ∧ (Fbk.create 0).type = 0
     ∧ (100000 % 500 = 0 ∧ s.md.ns ≤ 100000 ∧ 100000 ≤ s.md.nextTick ∧ 112000 % 500 = 0 ∧ 112000 ≤ s.md.nextTick)
     ∧ ((Fbk.create 0).type ≠ 3 ∧ (Fbk.create 0).spd.baseTime + o.params.u Par.fbkSpeedTimeout * 1000 ≤ s.md.ns ∧ s.md.ns ≤ s.md.nextTick))
    ∧ (let o := enObj (.fbk (Fbk.create 3))
       let s := bootWith 300 o
       s.md.fbk? 300 = some (o, Fbk.create 3) ∧ o.life = .enabled ∧ (Fbk.create 3).type = 3 ∧ (Fbk.create 3).cnt.ssiBusy = none) := by
  decide +kernel

/-- The die with its pair link down, at boot stages 3 and 5. -/
def unpaired (stage : Nat) : State := withMd boot (fun d => { d with pairLink := false, boot := { d.boot with stage := stage } })

theorem test_meets_PairLinkRowsComplete :
    boot.md.boot.inReset = false ∧ boot.md.pairLink = true
    ∧ (∀ st ∈ [3, 5], (unpaired st).md.boot.inReset = false ∧ (unpaired st).md.pairLink = false ∧ 3 ≤ (unpaired st).md.boot.stage
        ∧ (unpaired st).md.boot.stage ≤ 5) := by
  decide +kernel

/-- An axis that follows a master of node 5, on prediction for longer than its limit. -/
def following : State :=
  let a : Axis := { Axis.create with core := { AxisCore.create with mode := .geared }, ra := { AxisRa.create with predRun := 17 } }
  let g := { enObj (.gear Gear.create) with
    params := [(paramKey Par.gearMaster 0, 0x10028100), (paramKey Par.gearSlave 0, (mkHandle 2 0 0 300).setWidth 64)] }
  withMd (bootWith 300 (enObj (.axis a))) (fun d => { d with slots := alSet d.slots 301 ⟨0, .obj g⟩ })

theorem test_meets_PlannerConditions :
    boot.md.boot.inReset = false
    ∧ (let d := (withMd boot (fun d => { d with ss1Wire := [(1, 15500), (3, 0)] })).md
       d.ss1Wire = [(1, 15500)] ++ (3, 0) :: [] ∧ (∀ y ∈ [(1, 15500)], 16000 < y.2 + 1000) ∧ 0 + 1000 ≤ 16000 ∧ ∀ y ∈ d.ss1Wire, 500 < y.2 + 1000)
    ∧ (match following.md.axis? 300 with
       | some (o, a) => (match following.md.sourceOf 300 a with
          | some h => following.md.isRemote h && o.life == .enabled && decide (o.params.u Par.axisPredLimit < a.ra.predRun)
          | none => false)
       | none => false) = true
    ∧ (let l := { Lclk.create 0 with predRun := 17 }
       let o := enObj (.lclk l)
       (bootWith 300 o).md.lclk? 300 = some (o, l) ∧ o.life = .enabled ∧ 0 < l.predRun ∧ o.params.u Par.lclkPredLimit ≤ l.predRun) := by
  decide +kernel

theorem test_meets_PositionEdges :
    (let c := { Cmp.create with placed := [⟨90, 90, 100, 0, 1, false, false, false⟩] }
     let s := bootWith 300 (enObj (.evt c))
     s.md.obj? 300 = some (enObj (.evt c)) ∧ c.placed ≠ [] ∧ firstDue s.md.edgeDue = some (100, 1, 300) ∧ 100 ≤ s.md.nextTick)
    ∧ (let l := { Lclk.create 0 with placed := [⟨0, 15990, 15990, 16000, 0, 0, false, false, false, false⟩] }
       let s := bootWith 300 (enObj (.lclk l))
       s.md.obj? 300 = some (enObj (.lclk l)) ∧ l.placed ≠ [] ∧ firstDue s.md.edgeDue = some (16000, 1, 300) ∧ 16000 ≤ s.md.nextTick)
    ∧ (let c := { Cmp.create with pulseEnd := some 100 }
       let s := bootWith 300 (enObj (.evt c))
       c.pulseEnd = some 100 ∧ firstDue s.md.edgeDue = some (100, 0, 300) ∧ 100 ≤ s.md.nextTick)
    ∧ (let l := { Lclk.create 0 with pulseEnd := some 100 }
       let s := bootWith 300 (enObj (.lclk l))
       l.pulseEnd = some 100 ∧ firstDue s.md.edgeDue = some (100, 0, 300) ∧ 100 ≤ s.md.nextTick)
    ∧ (let ch := { Chan.create with out := { ChanOut.create with pulseEnd := some 100 } }
       let o := enObj (.fio 3)
       let s := withMd (bootWith 35 o) (fun d => { d with field := { d.field with chans := d.field.chans.set 3 ch } })
       s.md.obj? 35 = some o ∧ s.md.field.chans[3]? = some ch ∧ ch.out.pulseEnd = some 100 ∧ 100 ≤ s.md.nextTick)
    ∧ (10 ≤ 10 ∧ boot.md.capSeen.getD 7 false ≠ true ∧ boot.md.capSeen.getD 7 false = false ∧ 4 < 5)
    ∧ (boot.md.boot.inReset = false ∧ 7 < 8 ∧ boot.md.capIn.getD 7 false ≠ true ∧ boot.md.capIn.getD 7 false = false ∧ 16000 ≤ boot.md.nextTick) := by
  decide +kernel

/-! Loops, PWM, drive lanes. -/

theorem test_meets_EnginesAndLoops :
    (let s := withMd boot (fun d => { d with engines := [Engine.create, { Engine.create with haltReq := true }] })
     s.md.boot.inReset = false ∧ s.md.engines[1]? = some { Engine.create with haltReq := true } ∧ s.md.engines[0]? = some Engine.create
     ∧ Engine.create.haltReq = false ∧ { Engine.create with haltReq := true }.haltReq = true)
    ∧ (let g := { Lgrp.create 0 0 with feCount := [0, 0, 0, 1], settle := 16 }
       let o := { enObj (.lgrp g) with params := [(paramKey Par.lgrpFeLimit 3, 1), (paramKey Par.lgrpFeTime 3, 1)] }
       let s := bootWith 300 o
       s.md.lgrp? 300 = some (o, g) ∧ s.md.engines[g.engine]? = some Engine.create ∧ Engine.create.haltReq = false ∧ Engine.create.halted = false ∧ Engine.create.stepping = none
       ∧ (3 < 4 ∧ o.life = .enabled ∧ s.md.lgrpHalted g = false ∧ o.params.u Par.lgrpFeLimit 3 ≠ 0 ∧ 0 < g.feCount.getD 3 0
          ∧ o.params.u Par.lgrpFeTime 3 ≤ g.feCount.getD 3 0))
    ∧ (let g := { Lgrp.create 0 0 with settle := 16 }
       let o := objOf .draining [] (.lgrp g)
       let s := bootWith 300 o
       s.md.lgrp? 300 = some (o, g) ∧ o.life = .draining ∧ s.md.lgrpHalted g = false ∧ g.dropAt = none ∧ o.params.u Par.lgrpSettle ≤ g.settle) := by
  decide +kernel

def carrier : Pwmg := { Pwmg.create 7 with active := some ⟨6400, 0, 0, List.replicate 12 ⟨0, 0, 0⟩⟩, start := some 0, next := 6400 }

theorem test_meets_PwmAndSigmaDelta :
    (let o := objOf .enabled [(Par.pwmgTrigSrc, 1), (Par.pwmgFaultSel, 8)] (.pwmg carrier)
     let s := bootWith 300 o
     let r : MDie := s.md.start.pwmBefore (s.md.ns + 1)
     s.md.boot.inReset = false ∧ s.md.pwmg? 300 = some (o, carrier) ∧ nsOfCc carrier.next ≤ s.md.nextTick ∧ o.life = .enabled ∧ s.md.frozen = false
     ∧ (carrier.triggers o.params (ccOf s.md.nextTick)).2.find? (fun f => decide (f.1 = 0)) = some (0, 0) ∧ nsOfCc 0 ≤ s.md.nextTick
     ∧ r.slotsOf .pwmg = [300] ∧ (r.pwmg? 300).any (fun x => x.1.life = .enabled && x.1.params == o.params) = true ∧ r.frozen = false ∧ 3 < 4 ∧ bitOf (o.params.u Par.pwmgFaultSel) 3 = true ∧ o.params.u Par.pwmgFaultFilt < 2 ∧ 2 ≤ 2
     ∧ o.params.u Par.pwmgFaultMode = 0 ∧ 0 ≤ o.params.u Par.pwmgFaultFilt ∧ 4 ≤ 4)
    ∧ (let g := { carrier with faultHold := true }
       let o := enObj (.pwmg g)
       let r : MDie := (bootWith 300 o).md.start.pwmBefore ((bootWith 300 o).md.ns + 1)
       r.slotsOf .pwmg = [300] ∧ (r.pwmg? 300).any (fun x => x.2.faultHold && x.2.highAt.isNone) = true
       ∧ ({ r with pwmFault := r.pwmFault.set 0 false } : MDie).faultLow &&& o.params.u Par.pwmgFaultSel = 0 ∧ g.highAt = none)
    ∧ (let v : PwmSet := ⟨6400, 0, 0, List.replicate 12 ⟨6400, 0, 160⟩⟩
       let x : GatePair := { GatePair.create with src := .carrier }
       let g := { Pwmg.create 1 with active := some v, start := some 0 }
       let C := 2 * v.period * pwmPresc []
       let W := (v.pairs.getD 11 ⟨0, 0, 0⟩).on * pwmPresc []
       x.offAt = (none, none) ∧ 0 < W ∧ W + 160 + Params.u [] Par.pwmgMinPulse ≤ C ∧ 160 + Params.u [] Par.pwmgMinPulse ≤ W
       ∧ Params.u [] Par.pwmgMode = 0 ∧ g.faultHold = false ∧ g.force.getD 11 none = none ∧ g.still.getD 11 none = none
       ∧ ({ g with faultHold := true }).faultHold = true ∧ ({ g with force := g.force.set 11 (some 2) }).force.getD 11 none = some 2
       ∧ ({ g with still := g.still.set 11 (some 1) }).still.getD 11 none = some 1)
    ∧ (let o := objOf .enabled [(Par.sdinDecim, 4)] (.sdin Sdin.create)
       let s := bootWith 71 o
       s.md.sdin? (64 + 7) = some (o, Sdin.create) ∧ o.life = .enabled ∧ s.md.frozen = false
       ∧ (s.md.sdinInstant o Sdin.create).any (fun t => decide (t ≤ s.md.nextTick)) = true ∧ sdinBits o.params = 10) := by
  decide +kernel

/-- The chill drum of chapter 11: `ON` = 6,400 of C = 12,800 with a dead time of 160. The low side turns off at 3,200, the high side is on from
3,360 to 9,600, the low side turns on at 9,760 (R338, R340). -/
def drum : MDie :=
  let s : PwmSet := ⟨6400, 0, 0, List.replicate 12 ⟨6400, 0, 160⟩⟩
  let o := objOf .enabled [] (.pwmg { Pwmg.create 1 with active := some s, start := some 0, next := 12800 })
  let d := (bootWith 300 o).md
  { d with gatePairs := d.gatePairs.set 0 { GatePair.create with src := .carrier, now := (false, true), ball := some (false, true) } }

theorem test_chill_drum_gates : (drum.gatesTo 1 12800).out
    = [.gate 0 3200 (some (false, false)), .gate 0 3360 (some (true, false)), .gate 0 9600 (some (false, false)), .gate 0 9760 (some (false, true))] := by
  decide +kernel

/-- A pattern with both outputs off cuts the pulse at once; one that turns the low side on waits the dead time (R349, R351). -/
theorem test_pattern_waits_dead_time :
    let d := (drum.gatesTo 1 5000).setData 300 (.pwmg { Pwmg.create 1 with active := some ⟨6400, 0, 0, List.replicate 12 ⟨6400, 0, 160⟩⟩
                                                                           start := some 0, next := 12800, still := [some 1] })
    ((d.gatesSet 1 5000).gatesTo 1 12800).out.drop 2 = [.gate 0 5000 (some (false, false)), .gate 0 5160 (some (false, true))] := by
  decide +kernel

/-- An uplink of one axis with its CRC. -/
def uplink : List Byte :=
  let b : List Byte := List.replicate 24 0
  b ++ leBytes 4 (crc32 b).toNat

theorem test_meets_LaneLinkRowsComplete :
    (∀ link ∈ [1, 2, 3], let l := { Lane.create with link := link, lossRun := 16 }
      (bootWith 87 (enObj (.dlane l))).md.lane? (72 + 15) = some (enObj (.dlane l), l) ∧ (enObj (.dlane l)).life = .enabled
      ∧ (enObj (.dlane l)).params.u Par.dlaneLossLimit ≤ l.lossRun)
    ∧ (let o := objOf .enabled [(Par.dlaneTrainTimeout, 1)] (.dlane Lane.create)
       Lane.create.since + o.params.u Par.dlaneTrainTimeout * 1000000 ≤ (atTime 1000000 (bootWith 72 o)).md.nextTick)
    ∧ (let l := { Lane.create with link := 2, frame := [0] }
       let ps := (enObj (.dlane l)).params
       2 ≤ l.link ∧ l.frame ≠ [] ∧ l.pendingUp = none ∧ 16000 ≤ 16000 ∧ l.judge ps true 100 uplink = [.crc]
       ∧ l.judge ps false 16001 uplink = [.late] ∧ l.judge ps false 16000 uplink = []
       ∧ { l with seq := 1 }.judge ps false 16000 uplink = [.seq]) := by
  decide +kernel

theorem test_meets_LaneSlotRowsComplete :
    (let x := { LaneSlot.create with stale := true, staleRun := 3 }
     let l := { Lane.create with link := 2, slots := [x] }
     let o := enObj (.dlane l)
     let s := bootWith 72 o
     s.md.boot.inReset = false ∧ s.md.lane? (72 + 0) = some (o, l) ∧ o.life = .enabled ∧ l.slots[0]? = some x ∧ laneAxes o.params = 1
     ∧ 2 ≤ l.link ∧ x.stale = true ∧ x.staleReported = false ∧ o.params.u Par.dlaneStaleLimit ≤ x.staleRun)
    ∧ (let x := { LaneSlot.create with rest := 6250 }
       let l := { Lane.create with link := 3, slots := [x] }
       let o := objOf .enabled [(Par.dlaneSlotMode, 2)] (.dlane l)
       let s := bootWith 72 o
       s.md.lane? (72 + 0) = some (o, l) ∧ l.link = 3 ∧ o.params.u Par.dlaneSlotMode 0 = 2 ∧ s.md.frozen = false
       ∧ o.params.u Par.dlaneHoldDelay 0 ≤ x.rest ∧ (s.md.start.slotContent s.md.tick o l 0 { x with rest := x.rest - 1 }).2 = none) := by
  decide +kernel

/-! The safety island. -/

/-- An island in OPERATE, with the codes given for the twelve resistors and a change to it. -/
def operate (codes : List Nat) (f : Island → Island) : Island := f { Island.off with powered := true, state := 1, codes := codes }

def withIsl (i : Island) : State := { boot with isl := i }

/-- The function `f` in a state. -/
def fnIn (st : Nat) : SafeFn := { SafeFn.create with st := st }

/-- Both functions run, both brakes and the `EDM` inputs are used, the brake test is due every 8 h; pair 0 has contacts and is a source of
function 0. -/
def running : Island := operate [0, 1, 0, 1, 0, 0, 0, 0, 0, 15, 4, 3] (fun i => { i with fns := [fnIn 0, fnIn 0] })

theorem test_meets_IslandStandsApart : islandRow .supplyLow = true ∧ islandRow .sampleTick = false
    ∧ islandRow (.nop nopPkt) = false := by decide

/-- Legal states: after reset, in OPERATE with both functions running, in FAULT. -/
theorem test_legal_islands : State.reset.isl.Legal ∧ running.Legal ∧ ({ Island.off with powered := true }).Legal := by
  refine ⟨?_, ?_, ?_⟩ <;> constructor <;> decide

theorem test_meets_IslandStartsAndStops :
    Island.off.powered = false ∧ running.powered = true ∧ running.state = 1
    ∧ (let i := { Island.off with powered := true }; i.powered = true ∧ i.state = 0)
    ∧ readCodes (List.replicate 12 1000) = some (List.replicate 12 0) ∧ readCodes (List.replicate 12 0) = none ∧ (16 ≤ 16 ∧ 19 ≤ 19)
    ∧ (let i := operate (List.replicate 12 0) id
       readCodes (List.replicate 12 1000) = some i.codes ∧ readCodes (List.replicate 12 0) ≠ some i.codes) := by
  decide +kernel

theorem test_meets_IslandResetAndBrakeTests :
    running.state ≠ 0 ∧ (100000 ≤ 100000 ∧ 3000000 ≤ 3000000 ∧ 99999 < 100000 ∧ 3000000 < 3000001)
    ∧ (1 < 2 ∧ 100 ≤ 100 ∧ 500 ≤ 500 ∧ 99 < 100 ∧ 500 < 501)
    ∧ (let i := { running with tick := 57600000 }
       i.sbcUsed 1 = true ∧ (i.fn 1).brkDue = false ∧ i.brkInterval = some 28800 ∧ 28800 ≤ (i.tick - (i.fn 1).brkPass) / 2000) := by
  decide +kernel

theorem test_meets_IslandInputsAndOutputs :
    running.state = 1 ∧ running.powered = true ∧ running.sbcOn 1 = true ∧ running.stoOn 0 = true
    ∧ (let i := { running with tick := 102, edms := running.edms.set 3 ⟨true, 0, false, 0⟩ }
       i.edms[3]? = some ⟨true, 0, false, 0⟩ ∧ i.edmUsed 3 = true ∧ 0 + i.edmTicks < i.tick)
    ∧ (let i := { running with lowTicks := 2 }; 2 ≤ i.lowTicks ∧ i.supplyOff = false ∧ (i.fn 1).st ≤ 1)
    ∧ (let p := { SafePair.create with disc := 4 }
       let i := { running with pairs := running.pairs.set 0 p }
       i.pairs[0]? = some p ∧ p.fault = 0 ∧ i.limit ≤ p.disc ∧ i.source 0 0 = true)
    ∧ (let i := { running with fns := [fnIn 1, fnIn 0] }; (i.fn 0).st = 1 ∧ (i.fn 0).ss1 = 0)
    ∧ (let p := { SafePair.create with ownB := true }
       let i := { running with pairs := running.pairs.set 0 p }
       i.mode 0 = 1 ∧ i.mode 1 ≠ 1 ∧ i.mode 2 ≠ 1 ∧ i.mode 3 ≠ 1 ∧ i.pairs[0]? = some p ∧ [true].getD 0 false = true ∧ p.othA = false
        ∧ p.ownB = true ∧ p.fault < 2)
    ∧ boot.md.pairLink = true ∧ boot.md.boot.inReset = false := by
  decide +kernel

theorem test_meets_DemandAndRestartRules :
    (let i := { running with pairs := running.pairs.set 0 { SafePair.create with demand := true } }
     1 < 2 ∧ (i.fn 0).st = 0 ∧ i.demandSrc 0 = some 0)
    ∧ ((running.fn 1).st = 0 ∧ running.demandSrc 1 = none)
    ∧ (({ running with fns := [fnIn 2, fnIn 3] }).fn 0).st = 2 ∧ (({ running with fns := [fnIn 2, fnIn 3] }).fn 1).st = 3 := by
  decide +kernel

theorem test_meets_StatusFramesMirrored :
    (let s := atTime 16000 boot
     let s := withMd s (fun d => { d with safe := { d.safe with queue := [(15999, running.frame)] } })
     s.md.safe.queue = [(15999, running.frame)] ∧ 15999 < s.md.tick ∧ s.md.boot.inReset = false)
    ∧ (let s := atTime 8000000 boot
       s.md.safe.lost = false ∧ s.md.safe.queue = [] ∧ s.md.ns ≤ s.md.safe.at_ + 8000000 ∧ s.md.safe.at_ + 8000000 ≤ s.md.nextTick) := by
  decide +kernel

/-! Field I/O. -/

/-- The booted die with field channel `c` enabled in a role. -/
def bootChan (c : Nat) (ps : List (Nat × Nat)) (ch : Chan) : State :=
  withMd (bootWith (32 + c) (objOf .enabled ps (.fio c))) (fun d => { d with field := { d.field with chans := d.field.chans.set c ch } })

def fioObj (c : Nat) (ps : List (Nat × Nat)) : Obj := objOf .enabled ps (.fio c)

theorem test_meets_FieldSamplesComplete :
    (let ch := { Chan.create with role := 3 }
     let s := bootChan 31 [] ch
     s.md.boot.inReset = false ∧ s.md.chan? 31 = some (fioObj 31 [], ch) ∧ (fioObj 31 []).life = .enabled ∧ s.md.fieldLive = true
     ∧ fioInstant (fioObj 31 [(Par.fioSamplePeriod, 50)]).params 8000 = true ∧ s.md.ns ≤ 8000 ∧ 8000 ≤ s.md.nextTick
     ∧ fioInstant (fioObj 31 [(Par.fioSamplePeriod, 0)]).params 3 = true)
    ∧ (let ch := { Chan.create with role := 1, inp := { ChanIn.create with start := some 0 } }
       let ps := [(Par.fioSamplePeriod, 0), (Par.fioFilter, 10)]
       let s := bootChan 0 ps ch
       s.md.chan? 0 = some (fioObj 0 ps, ch) ∧ ch.role ≠ 3 ∧ s.md.field.low = false ∧ ch.inp.start = some 0 ∧ fioPeriod (fioObj 0 ps).params = 0
       ∧ 0 + (fioObj 0 ps).params.u Par.fioFilter * 1000 ≤ s.md.nextTick)
    ∧ (let s := atTime 968750000 boot; 31 < 32 ∧ offTestAt 31 s.md.ns ≤ s.md.nextTick) := by
  decide +kernel

theorem test_meets_FieldOverloadsAndSupply :
    (let ch := { Chan.create with role := 3, out := { ChanOut.create with on := true, retryAt := some 16000 } }
     let s := bootChan 31 [] ch
     s.md.chan? 31 = some (fioObj 31 [], ch) ∧ ch.role = 3 ∧ ch.out.on = true ∧ Chan.create.out.on = false ∧ ch.retryDue = some 16000
     ∧ 16000 ≤ s.md.nextTick ∧ s.md.field.silent = none
     ∧ (List.range 32).foldl (fun n k => n + (List.replicate 32 125).getD k 0) 0 = 4000
     ∧ (∀ k ∈ List.range 32, k ≠ 31 → (s.md.chan? k).all (fun x => decide (x.2.role ≠ 3 ∨ x.2.out.on = false)) = true)
     ∧ 4000 < (List.replicate 31 0 ++ [4001]).getD 31 0)
    ∧ (let s := withMd boot (fun d => { d with field := { d.field with low := true, regulator := false, silent := some 0 } })
       s.md.field.low = true ∧ s.md.field.regulator = false ∧ s.md.field.silent.isSome = true)
    ∧ (let s := withMd boot (fun d => { d with field := { d.field with regulator := false } })
       s.md.field.regulator = false ∧ s.md.field.silent = none)
    ∧ (boot.md.field.low = false ∧ boot.md.field.regulator = true ∧ boot.md.pairLink = true ∧ boot.md.boot.inReset = false)
    ∧ ((unpaired 5).md.pairLink = false ∧ (unpaired 5).md.field.silent = none)
    ∧ (let ch := { Chan.create with role := 3, held := true, holdMode := true, holdMs := 1 }
       let s := withMd boot (fun d => { d with field := { d.field with silent := some 0, chans := d.field.chans.set 31 ch } })
       s.md.field.silent = some 0 ∧ s.md.field.chans[31]? = some ch ∧ ch.held = true ∧ ch.holdMode = true ∧ ch.fellBack = false
       ∧ ((atTime 999000 s).md.start.passBoot (0 + ch.holdMs * 1000000)).isSome = true)
    ∧ (let s := withMd boot (fun d => { d with boot := { d.boot with ready := false }, field := { d.field with silent := some 0 } })
       s.md.pairLink = true ∧ s.md.boot.inReset = false ∧ s.md.boot.ready = false ∧ s.md.field.silent = some 0) := by
  decide +kernel

/-! Ports, links, fabric. -/

def trainPort : Port := { Port.create with link := 1 }

def fabPkt (dst : Nat) (payload : List Byte) : FabPkt :=
  { dst := dst, src := 5, level := 1, hops := 4, flags := 0, xtag := 0, xaux := 0, payload := payload }

theorem test_meets_PortTrainingRows :
    (boot.md.boot.inReset = false ∧ (bootPort 3 trainPort).md.ports[3]? = some trainPort ∧ trainPort.link = 1 ∧ 2 ≤ 3 ∧ trainPort.timedOut = false
      ∧ bitOf (rdU [0, 0, 1] 2 1) 1 = false ∧ 16 ≤ { trainPort with ready := 16 }.ready)
    ∧ (let s := atTime 1000000000 (bootPort 1 trainPort)
       s.md.ports[1]? = some trainPort ∧ 1 < 2
       ∧ (s.md.start.passBoot (trainPort.since + (s.md.portPs 1).u Par.portTrainTimeout * 1000000)).isSome = true)
    ∧ (let s := atTime 100000000 (bootPort 1 { trainPort with timedOut := true })
       { trainPort with timedOut := true }.timedOut = true ∧ (s.md.start.passBoot (trainPort.since + 100000000)).isSome = true)
    ∧ (let p := { upPort with sent := [⟨0, ⟨3, fabPkt 5 []⟩, 8⟩] }
       let s := withMd (bootPort 1 p) (fun d => { d with slots := alSet d.slots 7 ⟨0, .obj (enObj (.port 1))⟩ })
       s.md.ports[1]? = some p ∧ p.link = 2 ∧ s.md.obj? (6 + 1) = some (enObj (.port 1)) ∧ (enObj (.port 1)).life = .enabled
        ∧ p.replayLimit = true ∧ upPort.replayLimit = false) := by
  decide +kernel

theorem test_meets_LinkLayerRows :
    (let p := { upPort with sent := [⟨0, ⟨3, fabPkt 5 []⟩, 1⟩, ⟨1, ⟨3, fabPkt 5 []⟩, 1⟩] }
     (bootPort 0 p).md.boot.inReset = false ∧ (bootPort 0 p).md.ports[0]? = some p ∧ p.link = 2 ∧ (p.ack (0 % 4096)).1.sent ≠ []
      ∧ (p.nak (0 % 4096)).1.sent ≠ [] ∧ (upPort.nak 0).1.sent = [])
    ∧ { upPort with ackOwed := 1 }.ackOwed ≠ 0 ∧ trainPort.link ≠ 2 ∧ { upPort with ackOwed := 15 }.ackOwed = 15
    ∧ (let p := { upPort with withdraw := some 5 }
       ((p.clock 0 0).ack (0 % 4096)).1.sent = [] ∧ p.withdraw = some 5) ∧ upPort.withdraw = none
    ∧ (4095 < 4096 ∧ (parsePacket (List.replicate 16 0)).isSome = true ∧ { upPort with ackOwed := 14 }.ackOwed < 15)
    ∧ upPort.nakSent = false ∧ { upPort with nakSent := true }.nakSent = true := by
  decide +kernel

theorem test_meets_RoutedPacketsForwarded :
    (.streamPacket 0 (fabPkt 5 []), 2) ∈ routedRows 0 (fabPkt 5 []) ∧ routed.md.boot.inReset = false ∧ routed.md.portUp 0 = true
    ∧ { fabPkt 5 [] with hops := 0 }.hops = 0 ∧ (fabPkt 5 []).hops ≠ 0 ∧ (fabPkt 5 []).dst ≠ routed.md.fab.node
    ∧ routed.md.fab.portFor routed.md.portUp 5 = some 0 ∧ routed.md.fab.portFor routed.md.portUp 6 = none
    ∧ (fabPkt 6 []).dst ≠ routed.md.fab.node ∧ boot.md.portUp 0 = false := by
  decide +kernel

theorem test_meets_PacketsForThisNode :
    routed.md.boot.inReset = false ∧ routed.md.portUp 0 = true ∧ (fabPkt 0 []).hops ≠ 0 ∧ (fabPkt 0 []).dst = routed.md.fab.node
    ∧ routed.md.fab.node ≠ 0xFFFF ∧ routed.md.boot.ready = true
    ∧ (let s := bootWith 300 (enObj (.axis Axis.create))
       s.md.find (mkHandle 2 0 0 300) = some (300, enObj (.axis Axis.create))
       ∧ s.md.axis? 300 = some (enObj (.axis Axis.create), Axis.create) ∧ (fabPkt 0 []).xtag % 2 = 0 ∧ { fabPkt 0 [] with xtag := 1 }.xtag % 2 = 1
       ∧ (Axis.create.ra.receivers.filter (fun r => decide (r.1 ≠ 5))).length < 32)
    ∧ (let p := fabPkt 0 (pktEncode nopPkt Op.nop.code)
       let r := pktDecode (routed.md.cmdClient p.src (bitsOf p.xtag 4 3)) (bitsOf p.xtag 4 3) (p.xtag % 8) p.payload
       r.1 = Op.nop.code ∧ routed.md.start.Accepts false .nop r.2)
    ∧ originHost (bitsOf 8 4 3) = some .pcie ∧ originHost (bitsOf 16 4 3) = some .qspi ∧ { fabPkt 0 [] with xaux := 1 }.xaux = 1 := by
  unfold MDie.Accepts MDie.Reaches
  decide +kernel

/-- A `DISC` payload of a die without a base, with a candidate of priority `prio`. -/
def discOf (prio : Nat) : List Byte :=
  leBytes 8 9 ++ [0, 1, 1, 1] ++ [0xFF, 0xFF, 0xFF, 0xFF] ++ leBytes 1 prio ++ [0, 128, 0] ++ leBytes 8 9 ++ leBytes 4 1

theorem test_meets_DiscoveryAndTopology :
    (let s := withMd routed (fun d => { d with fab := { d.fab with cand := ⟨1, 9, 0⟩, candPort := some 0 } })
     s.md.portUp 0 = true ∧ (fabPkt 5 []).hops ≠ 0 ∧ (Topo.decode (discOf 1)).disc.heldBase = 0xFFFF ∧ s.md.fab.cand ≠ s.md.fab.own
      ∧ s.md.fab.candPort = some 0)
    ∧ ((fabPkt 0 []).dst = routed.md.fab.node ∧ (fabPkt 0 []).xaux.toNat = routed.md.fab.inVersion ∧ (fabPkt 0 []).xtag % 16 ∉ routed.md.fab.inSegs
        ∧ routed.md.fab.inSegs.length < 15)
    ∧ (let f := { routed.md.fab with inSegs := (List.range 15).map (fun k => k + 1) }; 0 % 16 ∉ f.inSegs ∧ f.inSegs.length = 15)
    ∧ (routed.md.ports[0]? = some upPort ∧ (Disc.decode (discOf 200)).heldBase = 0xFFFF
        ∧ (Disc.decode (discOf 200)).cand.lt routed.md.fab.cand = false ∧ (Disc.decode (discOf 200)).cand ≠ routed.md.fab.cand
        ∧ (Disc.decode (discOf 1)).cand.lt routed.md.fab.cand = true ∧ (Disc.decode (discOf 1)).cand ≠ routed.md.fab.cand) := by
  decide +kernel

theorem test_meets_FabricTimers :
    (let s := atTime 2000000 boot
     s.md.boot.inReset = false ∧ s.md.fab.bulkHeld = [] ∧ (s.md.start.passBoot (s.md.fab.bulkRound + 10000)).isSome = true
     ∧ s.md.fab.cand = s.md.fab.own ∧ (s.md.start.passBoot (s.md.fab.lastDisc + 100000)).isSome = true
     ∧ (s.md.start.passBoot (s.md.fab.seenAt + 1000000)).isSome = true)
    ∧ (withMd boot (fun d => { d with fab := { d.fab with cand := ⟨1, 9, 0⟩ } })).md.fab.cand ≠ boot.md.fab.own
    ∧ (let s := atTime 10000000000 boot
       (s.md.start.passBoot s.md.settleDue).isSome = true ∧ s.md.fab.reported = false ∧ (s.md.start.passBoot s.md.aloneDue).isSome = true
       ∧ 3 ≤ s.md.boot.stage ∧ s.md.fab.alone = false ∧ s.md.portUp 0 = false ∧ s.md.portUp 1 = false ∧ s.md.fab.node ≠ 0xFFFF)
    ∧ (let s := withMd (atTime 10000000000 boot) (fun d => { d with fab := { d.fab with node := 0xFFFF } })
       s.md.fab.node = 0xFFFF ∧ s.md.dieIndex = 0 ∧ (s.md.start.passBoot s.md.aloneDue).isSome = true)
    ∧ (let s := withMd boot (fun d => { d with fab := { d.fab with switch := some (1, 16000) } })
       s.md.fab.switch = some (1, 16000) ∧ 16000 ≤ s.md.nextTick) := by
  decide +kernel

/-! Network time. -/

/-- A die that follows node 5 by port 0, whose delay is measured; it may not be grandmaster itself. -/
def follower : State := withMd (bootWith 1 (objOf .enabled [(Par.timeGmPrio, 255)] .time)) (fun d => { d with
  fab := { d.fab with routes := [(5, ⟨6, 0xFF, 1⟩)] }
  ports := d.ports.set 0 upPort
  mer := { d.mer with st := 2, isGm := false, cand := some ⟨1, 1, 9, 0⟩, candNode := 5, lanes := d.mer.lanes.set 0 ⟨List.replicate 16 100, some 5⟩ } })

/-- A `SYNC` or `ANNOUNCE` of node 5 with a priority. -/
def timeMsg (prio : Nat) : List Byte := List.replicate 24 0 ++ [5, 0] ++ leBytes 1 prio ++ [1] ++ leBytes 8 9 ++ [0, 0, 0, 0, 1, 0, 0, 0]

theorem test_meets_TimeMessagesReceived :
    (let s := follower
     let d := s.md.start.passTo 16000
     s.md.boot.inReset = false ∧ s.md.portUp 0 = true ∧ 16000 ≤ s.md.nextTick ∧ s.md.mer.isGm = false ∧ d.syncPort = some 0
     ∧ (TimeMsg.decode (timeMsg 1)).gmNode = s.md.mer.candNode ∧ d.upPorts = [0] ∧ (TimeMsg.decode (timeMsg 255)).key.prio = 255)
    ∧ (let s := withMd follower (fun d => { d with mer := { d.mer with cand := none } })
       s.md.mer.cand = none ∧ s.md.mer.isGm = false ∧ (TimeMsg.decode (timeMsg 1)).key.prio ≠ 255 ∧ (s.md.start.passTo 100).gmKey = none)
    ∧ follower.md.mer.lanes[0]? = some ⟨List.replicate 16 100, some 5⟩
    ∧ ({ (boot.md.mer) with isGm := true }).isGm = true := by
  decide +kernel

/-- A die that is grandmaster, or may become it. -/
def grandmaster : State := withMd (bootWith 1 (enObj .time)) (fun d => { d with
  mer := { d.mer with st := 2, isGm := true, cand := some ⟨128, 1, 1, 0⟩, ppsAt := some 0 } })

theorem test_meets_TimeTimers :
    (let s := atTime 10000000000 grandmaster
     let ps := s.md.timePs
     s.md.boot.inReset = false ∧ (s.md.start.passBoot (s.md.mer.syncAt + ps.u Par.timeSyncInterval * 1000)).isSome = true
     ∧ (s.md.start.passBoot (s.md.mer.pdelAt + ps.u Par.timePdelayInterval * 1000000)).any (fun d => (d.upPorts.filter isExtPort).isEmpty) = true
     ∧ (s.md.start.passBoot (s.md.mer.annAt + 1000000)).any (fun d => d.gmKey.isSome) = true ∧ s.md.mer.cand.isSome = true ∧ s.md.mer.isGm = true
     ∧ (s.md.start.passBoot (s.md.mer.seenAt + 4000000)).isSome = true
     ∧ (s.md.mer.ppsAt = some 0 ∧ (s.md.start.passBoot (0 + 2000000000)).isSome = true ∧ s.md.mer.st = 2))
    ∧ (let s := atTime 10000000000 (withMd grandmaster (fun d => { d with ports := d.ports.set 0 upPort }))
       (s.md.start.passBoot (s.md.mer.pdelAt + s.md.timePs.u Par.timePdelayInterval * 1000000)).any (fun d => d.upPorts.filter isExtPort == [0]) = true)
    ∧ (let s := atTime 10000000000 (withMd grandmaster (fun d => { d with mer := { d.mer with isGm := false } }))
       s.md.mer.isGm = false ∧ s.md.mer.cand.isSome = true ∧ (s.md.start.passBoot (s.md.mer.seenAt + 4000000)).any (fun d => d.gmKey.isSome) = true)
    ∧ (bootWith 1 (objOf .enabled [(Par.timePpsMode, 0)] .time)).md.timePs.u Par.timePpsMode = 0
    ∧ (let s := atTime 10000000000 follower
       s.md.mer.isGm = false ∧ s.md.mer.cand = some ⟨1, 1, 9, 0⟩
       ∧ (s.md.start.passBoot (s.md.mer.seenAt + 4000000)).any (fun d => d.gmKey.isNone) = true
       ∧ (s.md.start.passBoot (s.md.mer.lastSync + s.md.timePs.u Par.timeSyncLoss * s.md.timePs.u Par.timeSyncInterval * 1000)).isSome = true
       ∧ (s.md.mer.st = 1 ∨ s.md.mer.st = 2))
    ∧ (let s := bootWith 1 (objOf .enabled [(Par.timePpsMode, 1)] .time)
       16000 ≤ s.md.nextTick ∧ s.md.timePs.u Par.timePpsMode = 1 ∧ s.md.mer.ppsAt = none) := by
  decide +kernel

theorem test_meets_ServoNeverJumpsByItself :
    4 ≤ 4 ∧ 0 ≤ 4 ∧ boot.md.mer.st = 0
    ∧ (let jump : Int := (Params.u [] Par.timeJumpLimit : Nat)
       jump * 1 < ((jump + 1).natAbs : Int) ∧ (jump.natAbs : Int) ≤ jump * 1) := by
  decide +kernel

/-- The offset of node 0x020 in the example of chapter 16: a jump within the limit never steps, one of 3.2 ms is refused. -/
theorem test_example_jump : (Meridian.take [] { Meridian.create with st := 2 } 3200000 1 false 0 0 0).2.2 = none := by decide +kernel

/-! Bulk packets, DMA, CAN FD. -/

/-- The SRAM address of the shared area, in region 0, and one in the firmware's part of it. -/
def bulkAt (a : Nat) (n : Nat) : List Byte := leBytes 8 a ++ List.replicate n 1

theorem test_meets_BulkAndDmaRows_packets :
    routed.md.boot.inReset = false ∧ routed.md.portUp 0 = true ∧ (fabPkt 0 []).hops ≠ 0 ∧ (fabPkt 0 []).dst = routed.md.fab.node
    ∧ routed.md.fab.node ≠ 0xFFFF
    ∧ routed.md.bulkOk 5 (rdU (bulkAt 0 8) 0 8) 8 = false
    ∧ (routed.md.bulkOk 5 (rdU (bulkAt 0x400000 8) 0 8) 8 = true ∧ dmaRegion (rdU (bulkAt 0x400000 8) 0 8) = 0)
    ∧ (routed.md.bulkOk 5 0x7FFE00 512 = true ∧ routed.md.mem.badIn 0 (bitsOf 0x7FFE00 22 0) 512 = none ∧ 512 < 513)
    ∧ (let c := { Dmac.create 0 with phase := .fetch 0x400000, acks := 2 }
       let s := bootWith 300 (enObj (.dmac c))
       s.md.dmaOfTag 0 = some (300, c) ∧ 2 ≤ c.acks ∧ c.phase = .fetch 0x400000)
    ∧ (let c := { Dmac.create 0 with phase := .finish, acks := 1 }
       (bootWith 300 (enObj (.dmac c))).md.dmaOfTag 0 = some (300, c) ∧ c.acks = 1 ∧ c.phase = .finish) := by
  decide +kernel

/-- The die with a DMA channel in slot 300. -/
def dmaDie (life : Life) (ps : List (Nat × Nat)) (c : Dmac) : State := bootWith 300 (objOf life ps (.dmac c))

/-- A descriptor that copies 16 bytes within the shared area, without write-back. -/
def copyDesc : Desc := { addr := 0x400000, src := 0x400100, dst := 0x400200, len := 16, ctrl := 7, blen := 8, next := 0, clean := true }

def descBytes : List Byte := leBytes 8 0x400100 ++ leBytes 8 0x400200 ++ [16, 0, 0, 0, 7, 0, 7, 0]

theorem test_meets_BulkAndDmaRows_engine :
    (let s := dmaDie .enabled [(Par.dmacReqSrc, 1)] (Dmac.create 0)
     let o := objOf .enabled [(Par.dmacReqSrc, 1)] (.dmac (Dmac.create 0))
     s.md.dmac? 300 = some (o, Dmac.create 0) ∧ o.life = .enabled ∧ o.params.u Par.dmacReqSrc = 1 ∧ (Dmac.create 0).phase = .idle)
    ∧ (objOf .disabled [] (.dmac (Dmac.create 0))).life ≠ .enabled
    ∧ (let c := { Dmac.create 0 with phase := .fetch 0x400000, cur := 0x400000 }
       let s := dmaDie .enabled [] c
       let b := s.md.mem.sram.readN (bitsOf 0x400000 22 0) 48
       dmaRegion 0x400000 = 0 ∧ s.md.mem.badIn 0 (bitsOf 0x400000 22 0) 48 = none ∧ (c.fetched (objOf .enabled [] (.dmac c)).params b s.md.tick).2 = .waiting)
    ∧ (let c := { Dmac.create 0 with phase := .fetch 0x400000, cur := 0x400000 }
       let s := withMd (dmaDie .enabled [] c) (fun d => { d with mem := d.mem.write 0x400000 descBytes })
       let r := c.fetched (objOf .enabled [] (.dmac c)).params (s.md.mem.sram.readN (bitsOf 0x400000 22 0) 48) s.md.tick
       r.2 = .run ∧ r.1.phase = .ready)
    ∧ (let c := { Dmac.create 0 with phase := .burst 16, desc := some copyDesc, sentAt := some 0 }
       let s := dmaDie .enabled [] c
       c.phase = .burst 16 ∧ c.desc = some copyDesc ∧ s.md.dmaGood c copyDesc 16 = (16, none) ∧ dmaRegion copyDesc.src = 0 ∧ copyDesc.srcInc = true
       ∧ copyDesc.dstInc = true ∧ copyDesc.fence = false ∧ c.abort = none ∧ c.sentAt.isSome = true
       ∧ dmaRegion (dmaAddr copyDesc.dst true copyDesc.dstW c.moved) = 0)
    ∧ (let c := { Dmac.create 0 with phase := .finish, desc := some copyDesc }
       c.phase = .finish ∧ c.acks = 0 ∧ c.abort = none ∧ copyDesc.wb = false)
    ∧ (let c := { Dmac.create 0 with phase := .fetch (2 * 2 ^ 60) }
       let s := atTime 1000000000 (dmaDie .enabled [] c)
       dmaRegion (2 * 2 ^ 60) ≠ 0
       ∧ (s.md.start.passBoot (c.since + (objOf .enabled [] (.dmac c)).params.u Par.dmacBusTimeout * 1000)).isSome = true) := by
  decide +kernel

def canDie (ctrl : Nat) (life : Life) (ps : List (Nat × Nat)) (c : Canc) : State := bootWith (cancSlot ctrl) (objOf life ps (.canc c))

def canObj (life : Life) (ps : List (Nat × Nat)) (c : Canc) : Obj := objOf life ps (.canc c)

/-- A controller with one pending frame. -/
def sending : Canc := { Canc.create with bufs := some ⟨CanRec.decode (List.replicate 80 0), 0, 0, false, none⟩ :: List.replicate 31 none }

theorem test_meets_CanRows_frames :
    (∀ k ∈ [0, 1], (canDie k .enabled [] Canc.create).md.canc? (cancSlot k) = some (canObj .enabled [] Canc.create, Canc.create))
    ∧ (canObj .enabled [] Canc.create).canOn Canc.create = true ∧ (canObj .disabled [] Canc.create).canOn Canc.create = false
    ∧ (canObj .disabled [] Canc.create).life ≠ .enabled ∧ bitOf 8 4 = false
    ∧ (∀ a ∈ [0, 1, 2], let r : CanRec := { cid := 0x101, dlc := 8, rcnt := 0, tag := 0xFFFF, txf := 0, stampNs := 5, data := fitBytes (dlcLen 8) [] }
        (Canc.create.route (canObj .enabled [(Par.cancDefaultAct, a)] Canc.create).params r).1 = a)
    ∧ (let e := FiltEntry.decode [1, 1, 0, 0, 2, 1, 0, 0, 1, 3, 0, 0, 0, 0, 0, 0]
       let c := { Canc.create with filters := [e] }
       let r : CanRec := { cid := 0x101, dlc := 8, rcnt := 0, tag := 0xFFFF, txf := 0, stampNs := 5, data := fitBytes (dlcLen 8) [] }
       let box (y : Nat × Obj) : Bool := match y.2.data with
         | .canmb m => y.2.life == .enabled && m.ctrl + 10 == cancSlot 0 && m.index == 0
         | _ => false
       let s := canDie 0 .enabled [] c
       c.route [] r = (3, 0, 0) ∧ (s.md.start.setCanc (cancSlot 0) c).objects.find? box = none
        ∧ ((setObj 300 (enObj (.canmb mailbox)) s).md.start.setCanc (cancSlot 0) c).objects.find? box = some (300, enObj (.canmb mailbox)))
    ∧ (canDie 0 .enabled [] sending).md.boot.inReset = false ∧ sending.seen (canObj .enabled [] sending) 100000 = some 0
    ∧ (sending.bufs[0]?).isSome = true ∧ (canObj .enabled [] sending).params.u Par.cancMode = 0 := by
  decide +kernel

theorem test_meets_CanRows_bus :
    (canObj .enabled [(Par.cancBusoffMode, 1)] Canc.create).params.u Par.cancBusoffMode = 1
    ∧ (canObj .enabled [] { Canc.create with st := 2 }).canOn { Canc.create with st := 2 } = false
    ∧ (Canc.create.writeBeat (fitBytes 8 [])).2 = none
    ∧ (let c := { Canc.create with wrBytes := List.replicate 72 0 }
       let w := c.writeBeat (fitBytes 8 [])
       w.2 = some (List.replicate 80 0) ∧ canTxCheck (canObj .enabled [] c).params (List.replicate 80 0) = none
       ∧ (w.1.submit (CanRec.decode (List.replicate 80 0)) 0 none).isSome = true)
    ∧ (let c := { Canc.create with wrBytes := List.replicate 72 0, bufs := [] }
       (c.writeBeat (fitBytes 8 [])).1.submit (CanRec.decode (List.replicate 80 0)) 0 none = none) := by
  decide +kernel

/-! Memories, reset, boot. -/

theorem test_meets_MemoryRowsComplete :
    boot.md.boot.inReset = false ∧ 3 ≤ 3
    ∧ (let s := withMd boot (fun d => { d with mem := { d.mem with cePost := [none, none, none, some 0] } })
       let d := s.md.start.bump 0 Par.systemMemCe 3 1
       d.mem.cePost.getD 3 none = some 0 ∧ d.upNs < 0 + 1000000000 ∧ (d.mem.cePost.getD 2 none).all (fun t => decide (t + 1000000000 ≤ d.upNs)) = true)
    ∧ (let s := withMd boot (fun d => { d with mram := { d.mram with journal := { d.mram.journal with recs := List.replicate halfCapacity (jrec 5) } } })
       s.md.mram.journal.full = true ∧ s.md.mram.journal.st = 0 ∧ s.md.mram.journal.snap = none)
    ∧ boot.md.mram.journal.full = false
    ∧ (let s := withMd boot (fun d => { d with mem := { d.mem with challenge := some ([], 16000) } })
       s.md.mem.challenge = some ([], 16000) ∧ (s.md.start.passUp 16000).isSome = true) := by
  decide +kernel

theorem test_meets_ResetsEnterAndRelease :
    (boot.md.boot.inReset = false ∧ (Instr.watchdog boot.md.dieIndex, 5) ∈ [(Instr.resetNLow, 2), (.pllUnlock boot.md.dieIndex, 3),
      (.watchdog boot.md.dieIndex, 5)] ∧ 3 < 4)
    ∧ (let s := withMd boot (fun d => { d with mem := { d.mem with wiping := some 16000 }, mram := { d.mram with lcIntent := some 2 } })
       s.md.mem.wiping.isSome = true ∧ s.md.mram.lcIntent.isSome = true ∧ s.md.boot.inReset = false)
    ∧ (held.md.boot.inReset = true ∧ tapHolds held.md.tap.ir = false ∧ held.md.boot.supplyOk = [true, true, true, true])
    ∧ (let s := withMd held (fun d => { d with boot := { d.boot with supplyOk := [true, true, true, false] } })
       s.md.boot.inReset = true ∧ s.md.boot.resetN = true ∧ s.md.boot.supplyOk.all id = false) := by
  decide +kernel

theorem test_meets_BootRowsComplete :
    (∀ st ∈ [0, 1, 2, 3, 4], let s := withMd State.reset (fun d => { d with boot := { d.boot with stage := st } })
      s.md.boot.inReset = false ∧ s.md.boot.ready = false ∧ s.md.boot.stage = st ∧ s.md.upNs ≤ s.md.boot.released + 5000000000 ∧ st < 5)
    ∧ 5000000 ≤ 5000000
    ∧ (let s := withMd State.reset (fun d => { d with boot := { d.boot with stage := 3 }, fab := { d.fab with node := 0 } })
       (s.md.start.bootAt 5000000).ownFabric.fab.node ≠ 0xFFFF)
    ∧ (let s := withMd boot (fun d => { d with nDies := 2 })
       s.md.dieIndex = 0 ∧ 1 ≠ 0 ∧ 1 < s.md.nDies)
    ∧ (5 ≤ boot.md.boot.stage ∧ boot.md.boot.ready = true)
    ∧ (let s := withMd boot (fun d => { d with boot := { d.boot with ready := false } })
       s.md.boot.ready = false ∧ s.md.boot.stage = 5 ∧ s.md.start.allUp = true) := by
  decide +kernel

/-! Steps that are taken. -/

theorem test_meets_StepKeepsIslandLegal : State.reset.isl.Legal ∧ ∃ t, step State.reset = .next t :=
  ⟨test_legal_islands.1, _, rfl⟩

theorem test_meets_IslandStandsApart_steps : (∃ t, exec .supplyLow (withIsl running) = .next t) ∧ ∃ t, exec .pciePerstLow boot = .next t :=
  ⟨⟨_, rfl⟩, _, rfl⟩

/-! Worked examples. -/

/-- `SAFE.CFG_CODES` of the print tower of chapter 14, from its resistors. -/
theorem test_example_safe_codes :
    (readCodes [68100, 6810, 2210, 14700, 1500, 147000, 4640, 31600, 1000, 1500, 21500, 31600]).map
      (fun l => (l.zipIdx).foldl (fun n x => n + x.1 * 16 ^ x.2) 0) = some 0x0000981094D1725B := by decide +kernel

/-- What these codes mean: SS1 of 1,000 ms for function 0, both functions restart manually, link in stops both, brake 0. -/
theorem test_example_safe_meaning :
    let i := operate [11, 5, 2, 7, 1, 13, 4, 9, 0, 1, 8, 9] id
    i.limit = 200 ∧ i.source 0 2 = true ∧ i.source 1 0 = true ∧ i.source 1 1 = false ∧ i.option 0 0 = true ∧ i.option 1 0 = false
    ∧ i.option 0 1 = false ∧ i.option 1 1 = false ∧ i.ss1Ticks 0 = 2000 ∧ i.sbcUsed 0 = true ∧ i.sbcUsed 1 = false ∧ i.edmUsed 0 = true := by
  decide +kernel

/-- The words of the print-bar lift of chapter 12 in slot 2. -/
theorem test_example_microstep :
    (microstep ([(Par.dlaneEcycle, 1024), (Par.dlaneARun, 800), (Par.dlaneAHold, 400), (Par.dlaneTauNs, 800000), (Par.dlaneKBemf, 78643)].map
      (fun e => (paramKey e.1 2, BitVec.ofNat 64 e.2))) 2 0 1234567 512000).1 = [3, 0, 0x49, 3, 0xCC, 0x0A, 0x0C, 2] := by decide +kernel

/-- The filter list of chapter 18: frames 0x101 and 0x102 go to mailbox 0, extended frames of 0x0A210000 … 0x0A2100FF to FIFO 0. -/
theorem test_example_filters :
    let e0 := FiltEntry.decode [1, 1, 0, 0, 2, 1, 0, 0, 1, 3, 0, 0, 0, 0, 0, 0]
    let e1 := FiltEntry.decode [0, 0, 0x21, 0x0A, 0, 0xFF, 0xFF, 0x1F, 6, 1, 0, 0, 0, 0, 0, 0]
    let c := { Canc.create with filters := [e0, e1] }
    let fr (cid : Nat) : CanRec := { cid := cid, dlc := 8, rcnt := 0, tag := 0, txf := 0, stampNs := 0, data := [] }
    c.route [] (fr 0x101) = (3, 0, 0) ∧ c.route [] (fr 0x102) = (3, 0, 0) ∧ (c.route [] (fr 0x103)).2.2 = 0xFFFF
    ∧ c.route [] (fr (0x20000000 + 0x0A2100FF)) = (1, 0, 1) ∧ (c.route [] (fr (0x20000000 + 0x0A210100))).2.2 = 0xFFFF
    ∧ (c.route [] (fr (0x20000000 + 0x101))).2.2 = 0xFFFF := by
  decide +kernel

/-- The first reply to a client: an accepted `NOP` answers `OK` at the tick in progress. -/
theorem test_nop_replies : ∃ t, exec (.nop { nopPkt with flags := 1 }) boot = .next t
    ∧ t.md.out.head? = some (.reply (clientOf .pcie) 0 0 (replyBytes (replyTo Op.nop.code { nopPkt with flags := 1 } none) .ok noResult 0)) := by
  refine ⟨_, rfl, ?_⟩
  decide +kernel

/-- A stale handle is answered `STALE_HANDLE`, and nothing is accepted. -/
theorem test_stale_handle : ∃ t, exec (.nop { nopPkt with target := mkHandle 1 0 1 0 }) boot = .next t ∧ t.md.rm.actions = []
    ∧ t.md.out.head? = some (.reply (clientOf .pcie) 0 0 (replyBytes (replyTo Op.nop.code nopPkt none) .staleHandle noResult 0)) := by
  refine ⟨_, rfl, ?_⟩
  decide +kernel

/-! Ill-formed commands, one for each check of `Instr.wf`, beside well-formed ones. -/

theorem test_wf_accepts : (Instr.nop nopPkt).wf = true ∧ (Instr.nop (stamped 5)).wf = true ∧ (Instr.nop taskPkt).wf = true
    ∧ (Instr.streamPacket 3 (fabPkt 0 [])).wf = true ∧ (Instr.fbkSnapshot 500 [⟨3, 7, 0, 0, false, [⟨6, 0, true⟩]⟩]).wf = true := by
  decide +kernel

theorem test_wf_packet_blocks : (Instr.nop { nopPkt with flags := 2 }).wf = false ∧ (Instr.nop { nopPkt with flags := 4 }).wf = false
    ∧ (Instr.nop { taskPkt with task := some { block with succs := [] } }).wf = false
    ∧ (Instr.nop { taskPkt with task := some { block with ext := [0] } }).wf = false
    ∧ (Instr.nop { nopPkt with body := List.replicate 1009 0 }).wf = false := by
  decide +kernel

theorem test_wf_fabric_packet :
    (Instr.streamPacket 4 (fabPkt 0 [])).wf = false ∧ (Instr.streamPacket 0 (fabPkt 65536 [])).wf = false
    ∧ (Instr.streamPacket 0 { fabPkt 0 [] with src := 65536 }).wf = false ∧ (Instr.streamPacket 0 { fabPkt 0 [] with level := 256 }).wf = false
    ∧ (Instr.streamPacket 0 { fabPkt 0 [] with hops := 256 }).wf = false ∧ (Instr.streamPacket 0 { fabPkt 0 [] with flags := 256 }).wf = false
    ∧ (Instr.streamPacket 0 { fabPkt 0 [] with xtag := 65536 }).wf = false ∧ (Instr.bulkReadPacket 0 (fabPkt 0 [0]) []).wf = false
    ∧ (Instr.ackTimer 4).wf = false := by
  decide +kernel

theorem test_wf_sources :
    (Instr.fbkSnapshot 501 []).wf = false ∧ (Instr.fbkSnapshot 500 [⟨4, 0, 0, 0, false, []⟩]).wf = false
    ∧ (Instr.fbkSnapshot 500 [⟨0, 8, 0, 0, false, []⟩]).wf = false ∧ (Instr.fbkSnapshot 500 [⟨0, 0, 0, 0, false, [⟨7, 0, true⟩]⟩]).wf = false := by
  decide +kernel

theorem test_wf_island :
    (let r : SafeReads := { ins := List.replicate 10 (List.replicate 8 true), edm := List.replicate 4 true, wires := List.replicate 6 (List.replicate 8 false)
                            brkMa := [0, 0], supplyMv := 24000, oscDiff := 0, railBad := false, channelsDiffer := false }
     (Instr.safetyTick r).wf = true ∧ (Instr.safetyTick { r with ins := [] }).wf = false ∧ (Instr.safetyTick { r with ins := List.replicate 10 [] }).wf = false
      ∧ (Instr.safetyTick { r with edm := [] }).wf = false ∧ (Instr.safetyTick { r with wires := [] }).wf = false
      ∧ (Instr.safetyTick { r with wires := List.replicate 6 [] }).wf = false ∧ (Instr.safetyTick { r with brkMa := [] }).wf = false)
    ∧ (Instr.safeTestPulse false []).wf = false ∧ (Instr.discrepancy 5).wf = false ∧ (Instr.ss1TimeElapsed 2).wf = false ∧ (Instr.stoTestPulse []).wf = false
    ∧ (Instr.edmTimeExpiry 4).wf = false ∧ (Instr.configReread [] []).wf = false ∧ (Instr.islandStartComplete (List.replicate 12 0) [] 0).wf = false := by
  decide +kernel

theorem test_wf_indices :
    (Instr.taskCompletionReceived 0 65536 0).wf = false ∧ (Instr.dbCmdTail .pcie 8 0).wf = false ∧ (Instr.evrHead .pcie 8 0).wf = false
    ∧ (Instr.hostWindowWrite .pcie 65535 [0, 0]).wf = false ∧ (Instr.qspiRead 0xFFFFFFFF 2).wf = false ∧ (Instr.qspiWrite 0xFFFFFFFF [0, 0]).wf = false
    ∧ (Instr.engineHaltTakesEffect 2).wf = false ∧ (Instr.loopGate 4096).wf = false ∧ (Instr.feTimeReached 4096 0).wf = false
    ∧ (Instr.feTimeReached 0 4).wf = false ∧ (Instr.pwmTriggerFire 0 2).wf = false ∧ (Instr.capInEdge 8 0 true 0).wf = false
    ∧ (Instr.pwmFaultInputHigh 4).wf = false ∧ (Instr.sdinResult 8 []).wf = false ∧ (Instr.laneTrained 16).wf = false
    ∧ (Instr.holdDelayReached 0 4096).wf = false ∧ (Instr.fioRetryExpiry 32).wf = false ∧ (Instr.fioTotalCurrentLimit []).wf = false
    ∧ (Instr.canWindowRead 2).wf = false ∧ (Instr.memoryErrorDetected 4 0 false false 0 0).wf = false
    ∧ (Instr.memoryErrorDetected 0 0 false false 4096 0).wf = false ∧ (Instr.supplyDip 4).wf = false ∧ (Instr.watchdog 4).wf = false := by
  decide +kernel

end Sys2Proof.Tests
end

section
/-! PROOFS. Command packets as rows: how a packet comes to the die, checks 2 … 5 of R70, the checks of the object's die, and what an
accepted packet whose tick has begun does. -/

namespace Sys2Proof.Machine

open Sys2Proof

/-! Rows of the motion side. -/

/-- A row of the motion side on a die that is not in reset is its own effect and the end of the step. -/
theorem onDie_of_running (s : State) (f : MDie → MDie) (h : s.md.boot.inReset = false) :
    onDie s f = .next (s.after (f s.md.start)) := by
  simp only [onDie, MDie.live, MDie.stepWith, h, Bool.false_eq_true, if_false]
  rfl

/-- Every opcode's row is that of a command packet. -/
theorem exec_row (op : Op) (p : Pkt) (s : State) : exec (op.row p) s = onPacket op p s := by
  cases op <;> rfl

/-- An opcode is found by its code. -/
theorem opOfCode_code (op : Op) : opOfCode op.code = some op := by
  cases op <;> rfl

theorem MDie.inReset_of_takesPackets {d : MDie} {p : Pkt} (h : d.takesPackets p = true) : d.boot.inReset = false := by
  simp only [MDie.takesPackets, Bool.and_eq_true, Bool.not_eq_true'] at h
  exact h.1

theorem exec_row_of_takesPackets {op : Op} {p : Pkt} {s : State} (h : s.md.takesPackets p = true) :
    exec (op.row p) s = .next (s.after (s.md.start.command op p)) := by
  rw [exec_row]
  exact onDie_of_running s _ (MDie.inReset_of_takesPackets h)

/-! How a packet comes to the die (R64, R83, R85, R87). -/

/-- The die as one that keeps the packet: whole in its ring (2), or with no ring of this die (0). -/
def MDie.keeps (d : MDie) (op : Op) (p : Pkt) (ring : Nat) : MDie :=
  { d with rm := { d.rm with held := d.rm.held ++ [{ op := op, pkt := p, rt := replyTo op.code p none, ring := ring }] } }

theorem MDie.hold_eq_keeps (d : MDie) (op : Op) (p : Pkt) (ring : Nat) : d.hold op.code p none ring = d.keeps op p ring := by
  simp only [MDie.hold, opOfCode_code]
  rfl

theorem MDie.ringOf_eq_some {d : MDie} {p : Pkt} {k : Nat} (h : d.ringOf p = some k) :
    d.dieIndex = 0 ∧ ∃ port, hostOf p.client = some port ∧ queueKey port p.queue.toNat = k := by
  unfold MDie.ringOf at h
  split at h
  · rename_i h0
    exact ⟨h0, Option.map_eq_some_iff.1 h⟩
  · cases h

/-- A packet of a host of this lead die, as its row finds it: the head of the queue with key `k`. -/
theorem MDie.command_of_ring {d : MDie} {op : Op} {p : Pkt} {k : Nat} (ht : d.takesPackets p = true) (hk : d.knows p.client = true)
    (hr : d.ringOf p = some k) :
    d.command op p =
      if !d.queueRuns k then d
      else if d.queueHeld (replyTo op.code p none) || !d.canFetch k || d.fenced k p then d.keeps op p 2
      else d.commandOf (d.fetched k op.code p false).1 op p (d.fetched k op.code p false).2 2 := by
  obtain ⟨h0, port, hp, rfl⟩ := MDie.ringOf_eq_some hr
  simp only [MDie.command, ht, hk, hp, h0, MDie.hold_eq_keeps, Bool.not_true, Bool.or_self, Bool.false_eq_true, if_false, ne_eq,
    not_true_eq_false]

/-- A packet that lies in no ring of this die goes to its checks at once. -/
theorem MDie.command_of_noRing {d : MDie} {op : Op} {p : Pkt} (ht : d.takesPackets p = true) (hk : d.knows p.client = true)
    (hr : d.ringOf p = none) : d.command op p = d.commandOf d op p none 0 := by
  unfold MDie.command
  simp only [ht, hk, Bool.not_true, Bool.or_self, Bool.false_eq_true, if_false]
  cases hh : hostOf p.client with
  | none => rfl
  | some port =>
    have h0 : d.dieIndex ≠ 0 := by
      intro h0
      simp only [MDie.ringOf, h0, hh, if_true, Option.map_some, reduceCtorEq] at hr
    exact if_pos h0

/-- Where a packet that has to wait is kept: whole in its ring, or by the die itself. -/
def ringMark (p : Pkt) (s : State) : Nat := if (s.md.ringOf p).isSome then 2 else 0

/-- A packet that comes is in the die's hand, and its length is checked next. -/
theorem MDie.command_of_comes (op : Op) {p : Pkt} {s : State} (h : Comes p s) :
    s.md.start.command op p = s.md.start.commandOf (packetDie op p s) op p (packetGot op p s).2 (ringMark p s) := by
  obtain ⟨ht, hk, hq⟩ := h
  cases hr : s.md.ringOf p with
  | none =>
    have hr' : s.md.start.ringOf p = none := hr
    simp only [MDie.command_of_noRing (d := s.md.start) ht hk hr', packetDie, packetGot, ringMark, hr, Option.isSome_none,
      Bool.false_eq_true, if_false]
  | some k =>
    have hr' : s.md.start.ringOf p = some k := hr
    obtain ⟨hruns, hfetch, hfence, hheld⟩ := hq k hr
    have hruns' : s.md.start.queueRuns k = true := hruns
    have hfetch' : s.md.start.canFetch k = true := hfetch
    have hfence' : s.md.start.fenced k p = false := hfence
    have hheld' : s.md.start.queueHeld (replyTo op.code p none) = false := hheld
    simp only [MDie.command_of_ring (d := s.md.start) ht hk hr', packetDie, packetGot, ringMark, hr, hruns', hfetch', hfence', hheld',
      Option.isSome_some, Bool.not_true, Bool.or_self, Bool.false_eq_true, if_false, if_true]

/-- A packet of a length that R66 allows goes to its checks. -/
theorem MDie.command_of_arrives (op : Op) {p : Pkt} {s : State} (h : Arrives p s) :
    s.md.start.command op p =
      s.md.start.orHold ((packetDie op p s).take true op.code p (packetGot op p s).2) op.code p none (ringMark p s) := by
  obtain ⟨hc, hlo, hhi⟩ := h
  have hlen : ¬ (p.len.toNat < 2 ∨ 128 < p.len.toNat) := by omega
  rw [MDie.command_of_comes op hc, MDie.commandOf, if_neg hlen]

/-- A packet that is dealt with when it arrives. -/
theorem exec_row_of_done {op : Op} {p : Pkt} {s : State} {x : MDie} (h : Arrives p s)
    (hx : (packetDie op p s).take true op.code p (packetGot op p s).2 = .done x) : exec (op.row p) s = .next (s.after x) := by
  rw [exec_row_of_takesPackets h.1.1, MDie.command_of_arrives op h, hx]
  rfl

/-- A packet that has to wait when it arrives. -/
theorem exec_row_of_wait {op : Op} {p : Pkt} {s : State} (h : Arrives p s)
    (hx : (packetDie op p s).take true op.code p (packetGot op p s).2 = .wait) :
    exec (op.row p) s = .next (s.after (s.md.start.keeps op p (ringMark p s))) := by
  rw [exec_row_of_takesPackets h.1.1, MDie.command_of_arrives op h, hx]
  exact congrArg (fun d => Host.Outcome.next (s.after d)) (s.md.start.hold_eq_keeps op p _)

/-! Checks 2 … 5 on the die that takes the packet, and its way to the owning die (R29, R70). -/

/-- Checks 2 … 5 of a packet whose blocks are those its flags announce, in their order. -/
theorem MDie.take_of_normal (d : MDie) (now : Bool) (op : Op) {p : Pkt} (pid : Option Nat) (hn : pktNormal p = p) :
    d.take now op.code p pid =
      let rt := replyTo op.code p pid
      if pktHeadOk p = false then .done (d.turnAway rt .badParam noResult)
      else if d.levelOf p < 1 then .done (d.turnAway rt .levelUnsupported noResult)
      else if pktLengthOk p op = false then .done (d.turnAway rt .badLength noResult)
      else if unknownClass p.target = true then .done (d.turnAway rt .badHandle noResult)
      else if op = .fabricCommit ∧ d.isRoot = false ∧ d.boot.stage ≠ 0xF then
        (if d.fab.rootNode = 0xFFFF then .done (d.turnAway rt .unreachable noResult) else d.forwardCmd d.fab.rootNode op.code p rt)
      else if op = .fabricCommit ∨ d.isOwn p.target = true then d.takeOwn now op (d.ownPkt op p) rt
      else d.forwardCmd (hNode p.target) op.code p rt := by
  by_cases hf : op = .fabricCommit <;>
    simp only [MDie.take, hn, opOfCode_code, MDie.levelOf, MDie.ownPkt, replyTo, hf, Bool.not_eq_true', true_or, false_or,
      true_and, false_and, if_true, if_false]

/-- A packet that reaches the die goes to the checks of its object. -/
theorem MDie.take_of_reaches {d : MDie} {op : Op} {p : Pkt} (now : Bool) (pid : Option Nat) (h : d.Reaches op p) :
    d.take now op.code p pid = d.takeOwn now op (d.ownPkt op p) (replyTo op.code p pid) := by
  obtain ⟨hn, hhead, hlevel, hlen, hclass, hown⟩ := h
  have hlevel' : ¬ d.levelOf p < 1 := Nat.not_lt.2 hlevel
  rw [MDie.take_of_normal d now op pid hn]
  by_cases hf : op = .fabricCommit
  · subst hf
    have hroot : ¬ (d.isRoot = false ∧ d.boot.stage ≠ 0xF) := fun ⟨h1, h2⟩ =>
      (hown : d.isRoot = true ∨ d.boot.stage = 0xF).elim (fun h => Bool.noConfusion (h1.symm.trans h)) h2
    simp only [hhead, hlevel', hlen, hclass, hroot, and_false, true_or, Bool.true_eq_false, Bool.false_eq_true, if_false, if_true]
  · rw [if_neg hf] at hown
    simp only [hhead, hlevel', hlen, hclass, hf, hown, false_and, or_true, Bool.true_eq_false, Bool.false_eq_true, if_false, if_true]

section Refusals

/-! One after the other, checks 2 … 5 for a packet that passes those before. -/

variable {d : MDie} {now : Bool} {op : Op} {p : Pkt} {pid : Option Nat}

theorem MDie.take_of_badHead (hn : pktNormal p = p) (hhead : pktHeadOk p = false) :
    d.take now op.code p pid = .done (d.turnAway (replyTo op.code p pid) .badParam noResult) :=
  (MDie.take_of_normal d now op pid hn).trans (if_pos hhead)

theorem MDie.take_of_lowLevel (hn : pktNormal p = p) (hhead : pktHeadOk p = true) (hlevel : d.levelOf p < 1) :
    d.take now op.code p pid = .done (d.turnAway (replyTo op.code p pid) .levelUnsupported noResult) := by
  simp only [MDie.take_of_normal d now op pid hn, hhead, hlevel, Bool.true_eq_false, if_false, if_true]

theorem MDie.take_of_badLength (hn : pktNormal p = p) (hhead : pktHeadOk p = true) (hlevel : 1 ≤ d.levelOf p)
    (hlen : pktLengthOk p op = false) :
    d.take now op.code p pid = .done (d.turnAway (replyTo op.code p pid) .badLength noResult) := by
  simp only [MDie.take_of_normal d now op pid hn, hhead, Nat.not_lt.2 hlevel, hlen, Bool.true_eq_false, if_false, if_true]

theorem MDie.take_of_unknownClass (hn : pktNormal p = p) (hhead : pktHeadOk p = true) (hlevel : 1 ≤ d.levelOf p)
    (hlen : pktLengthOk p op = true) (hclass : unknownClass p.target = true) :
    d.take now op.code p pid = .done (d.turnAway (replyTo op.code p pid) .badHandle noResult) := by
  simp only [MDie.take_of_normal d now op pid hn, hhead, Nat.not_lt.2 hlevel, hlen, hclass, Bool.true_eq_false, if_false, if_true]

theorem MDie.take_of_otherNode (hn : pktNormal p = p) (hhead : pktHeadOk p = true) (hlevel : 1 ≤ d.levelOf p)
    (hlen : pktLengthOk p op = true) (hclass : unknownClass p.target = false) (hop : op ≠ .fabricCommit) (hown : d.isOwn p.target = false) :
    d.take now op.code p pid = d.forwardCmd (hNode p.target) op.code p (replyTo op.code p pid) := by
  simp only [MDie.take_of_normal d now op pid hn, hhead, Nat.not_lt.2 hlevel, hlen, hclass, hop, hown, false_and, or_self,
    Bool.true_eq_false, Bool.false_eq_true, if_false]

end Refusals

/-! The checks of the object's die (R70, R85). -/

@[simp] theorem MDie.ownPkt_task (d : MDie) (op : Op) (p : Pkt) : (d.ownPkt op p).task = p.task := by
  unfold MDie.ownPkt
  split <;> rfl

@[simp] theorem MDie.ownPkt_stamp (d : MDie) (op : Op) (p : Pkt) : (d.ownPkt op p).stamp = p.stamp := by
  unfold MDie.ownPkt
  split <;> rfl

/-- A failed check refuses the packet, but for a task whose failed check is one of those made at its dispatch (R105). -/
theorem MDie.takeOwn_of_bad {d : MDie} {now : Bool} {op : Op} {p : Pkt} {pid : Option Nat} {k : Nat} {st : Status} {r : Result}
    (hbad : d.takeBad now op p = some (k, st, r)) (hk : p.task = none ∨ k ≤ 9) :
    d.takeOwn now op (d.ownPkt op p) (replyTo op.code p pid) =
      .done ((d.refusalNote op (d.ownPkt op p) r).turnAway (replyTo op.code p pid) st r) := by
  have hchk : (d.projected (d.effectTick now (d.targetPeriod (d.ownPkt op p).target) (d.ownPkt op p)).1).ownBad op (d.ownPkt op p)
      (replyTo op.code p pid).client = some (k, st, r) := hbad
  cases ht : p.task with
  | none => simp only [MDie.takeOwn, MDie.ownPkt_task, ht, hchk]
  | some b =>
    have hk9 : k ≤ 9 := hk.resolve_left (by rw [ht]; exact Option.some_ne_none b)
    simp only [MDie.takeOwn, MDie.ownPkt_task, ht, hchk, hk9, if_true]

/-- A packet that is no task and passes every check waits where no action slot is free or a packet of its queue waits, and is accepted
otherwise. -/
theorem MDie.takeOwn_of_good {d : MDie} {now : Bool} {op : Op} {p : Pkt} {pid : Option Nat} (ht : p.task = none)
    (hgood : d.takeBad now op p = none) :
    d.takeOwn now op (d.ownPkt op p) (replyTo op.code p pid) =
      if !d.slotFor p.client || d.queueHeld (replyTo op.code p pid) then .wait
      else .done (d.enlist (d.projected (d.takeTick now op p).1) now op (d.ownPkt op p) (replyTo op.code p pid) p.client none
        (d.takeTick now op p)) := by
  have hchk : (d.projected (d.effectTick now (d.targetPeriod (d.ownPkt op p).target) (d.ownPkt op p)).1).ownBad op (d.ownPkt op p)
      (replyTo op.code p pid).client = none := hgood
  simp only [MDie.takeOwn, MDie.ownPkt_task, ht, hchk]
  rfl

/-- The first failed check of the object's die refuses the packet. -/
theorem exec_row_of_bad {op : Op} {p : Pkt} {s : State} {k : Nat} {st : Status} {r : Result} (h : Reaches op p s)
    (hbad : (packetDie op p s).takeBad true op p = some (k, st, r)) (hk : p.task = none ∨ k ≤ 9) :
    exec (op.row p) s = .next (s.after
      (((packetDie op p s).refusalNote op ((packetDie op p s).ownPkt op p) r).turnAway (packetReply op p s) st r)) :=
  exec_row_of_done h.1 ((MDie.take_of_reaches true _ h.2).trans (MDie.takeOwn_of_bad hbad hk))

/-- A packet that passes its checks waits where no action slot is free. -/
theorem exec_row_of_noSlot {op : Op} {p : Pkt} {s : State} (h : Reaches op p s) (ht : p.task = none)
    (hgood : (packetDie op p s).takeBad true op p = none) (hslot : (packetDie op p s).slotFor p.client = false) :
    exec (op.row p) s = .next (s.after (s.md.start.keeps op p (ringMark p s))) := by
  refine exec_row_of_wait h.1 ((MDie.take_of_reaches true _ h.2).trans ?_)
  rw [MDie.takeOwn_of_good ht hgood, hslot]
  rfl

/-- A packet for another node is refused where the node is not reachable, and forwarded where it is and its window has a place (R461). -/
theorem MDie.forwardCmd_of_unreachable {d : MDie} {node : Nat} (code : Nat) (p : Pkt) (rt : ReplyTo) (h : d.reachable node = false) :
    d.forwardCmd node code p rt = .done ((d.targetUnreachable node rt.client).turnAway rt .unreachable noResult) := by
  simp only [MDie.forwardCmd, h, Bool.not_false, if_true]

theorem MDie.forwardCmd_of_free {d : MDie} {node : Nat} (code : Nat) (p : Pkt) (rt : ReplyTo) (h : d.reachable node = true)
    (hw : d.e2eFree node = true) :
    d.forwardCmd node code p rt =
      let xtag := rt.queue + 8 * (if isRemoteClient rt.client then rt.origin else originOf rt.client)
      .done (((d.e2eTake node).send (d.packetTo 3 node xtag 0 (pktEncode p code))).markForwarded rt node) := by
  simp only [MDie.forwardCmd, h, hw, Bool.not_true, Bool.false_eq_true, if_false]

/-! What turns a packet away before it is accepted (R29, R62, R64, R70, R83, R85, R87). -/

/-- Nothing is taken from a queue that does not run. -/
theorem exec_row_of_queueStopped {op : Op} {p : Pkt} {s : State} {k : Nat} (ht : s.md.takesPackets p = true)
    (hk : s.md.knows p.client = true) (hr : s.md.ringOf p = some k) (hq : s.md.queueRuns k = false) :
    exec (op.row p) s = .next (s.after s.md.start) := by
  have hq' : s.md.start.queueRuns k = false := hq
  rw [exec_row_of_takesPackets ht, MDie.command_of_ring (d := s.md.start) ht hk hr, hq']
  rfl

/-- A packet whose `FENCE` holds it, or whose reply ring has fewer than two free records, stays in its ring. -/
theorem exec_row_of_heldBack {op : Op} {p : Pkt} {s : State} {k : Nat} (ht : s.md.takesPackets p = true)
    (hk : s.md.knows p.client = true) (hr : s.md.ringOf p = some k) (hq : s.md.queueRuns k = true)
    (hb : s.md.fenced k p = true ∨ s.md.canFetch k = false) :
    exec (op.row p) s = .next (s.after (s.md.start.keeps op p 2)) := by
  have hq' : s.md.start.queueRuns k = true := hq
  have hb' : s.md.start.fenced k p = true ∨ s.md.start.canFetch k = false := hb
  rw [exec_row_of_takesPackets ht, MDie.command_of_ring (d := s.md.start) ht hk hr, hq']
  rcases hb' with h | h <;> simp only [h, Bool.not_true, Bool.not_false, Bool.or_true, Bool.true_or, Bool.false_eq_true, if_false, if_true]

/-- A packet of a length outside R66 is refused, and halts its queue. -/
theorem exec_row_of_badLen {op : Op} {p : Pkt} {s : State} (h : Comes p s) (hl : p.len.toNat < 2 ∨ 128 < p.len.toNat) :
    exec (op.row p) s = .next (s.after ((packetDie op p s).badLen op p (packetGot op p s).2)) := by
  rw [exec_row_of_takesPackets h.1, MDie.command_of_comes op h, MDie.commandOf, if_pos hl]

/-! Accepted packets whose tick has begun (R48, R74, log 40). -/

@[simp] theorem MDie.setObj_time (d : MDie) (n : Nat) (o : Obj) : (d.setObj n o).time = d.time := by
  unfold MDie.setObj
  split <;> rfl

@[simp] theorem MDie.modObj_time (d : MDie) (n : Nat) (f : Obj → Obj) : (d.modObj n f).time = d.time := by
  unfold MDie.modObj
  split
  · exact MDie.setObj_time d n _
  · rfl

@[simp] theorem MDie.noted_ns (d : MDie) (op : Op) (p : Pkt) : (d.noted op p).ns = d.ns := by
  unfold MDie.noted MDie.noteMotion
  split
  · split
    · split
      · exact congrArg MTime.ns (MDie.modObj_time d _ _)
      · rfl
    · rfl
  · rfl

/-- An accepted packet whose tick has begun takes effect in its own row. -/
theorem exec_row_of_runsNow {op : Op} {p : Pkt} {s : State} (h : RunsNow op p s) :
    exec (op.row p) s = .next (s.after ((packetBase op p s).enact (packetAction op p s))) := by
  obtain ⟨⟨harr, hreach, htask, hgood, hslot, hheld⟩, hnow⟩ := h
  have hheld' : (packetDie op p s).queueHeld (replyTo op.code p (packetGot op p s).2) = false := hheld
  have hnow' : ((packetDie op p s).takeTick true op p).1 ≤ ((packetDie op p s).noted op p).ns := by rwa [MDie.noted_ns]
  refine exec_row_of_done harr ((MDie.take_of_reaches true _ hreach).trans ((MDie.takeOwn_of_good htask hgood).trans ?_))
  rw [hslot, hheld']
  show Taken.done (MDie.enlist _ _ _ _ _ _ _ _ _) = _
  unfold MDie.enlist
  dsimp only
  rw [if_pos ⟨rfl, hnow'⟩, MDie.ownPkt_stamp]
  rfl

/-- Opcodes that act at their acceptance, or are answered by their own block, or reset the die (R117, R475, R529, R535, R548, R568, R587). -/
def actsAtAcceptance : List Op :=
  [.sysReset, .journalSync, .canTx, .canFiltSwitch, .lcChallenge, .lcAdvance, .fabricCommit, .taskCancel, .taskCancelAll]

/-- A `MOVE_REL` alone may be accepted as another command (R172). -/
theorem MDie.fixRel_op (d : MDie) (op : Op) (p : Pkt) : (d.fixRel op p).1 = op ∨ op = .moveRel ∧ (d.fixRel op p).1 = .moveAbs := by
  unfold MDie.fixRel
  split
  · split
    · split
      · exact .inr ⟨rfl, rfl⟩
      · exact .inl rfl
      · exact .inl rfl
    · exact .inl rfl
  · exact .inl rfl

theorem packetAction_op_not_mem {op : Op} (p : Pkt) (s : State) (h : op ∉ actsAtAcceptance) :
    (packetAction op p s).op ∉ actsAtAcceptance := by
  rcases (packetDie op p s).fixRel_op op ((packetDie op p s).ownPkt op p) with heq | ⟨_, heq⟩
  · exact fun hmem => h (heq ▸ hmem)
  · intro hmem
    have hmoveAbs : Op.moveAbs ∈ actsAtAcceptance := heq ▸ hmem
    exact absurd hmoveAbs (by decide)

theorem MDie.acceptNote_of_not_mem (d : MDie) {a : Action} (h : a.op ∉ actsAtAcceptance) : d.acceptNote a = (d, none) := by
  have hne : ∀ op ∈ actsAtAcceptance, a.op ≠ op := fun op hop heq => h (heq ▸ hop)
  unfold MDie.acceptNote
  dsimp only
  split
  case h_8 => rfl
  all_goals exact absurd ‹a.op = _› (hne _ (by decide))

/-- A command that does nothing at its acceptance: its effect, the reply with the result, both reservations released, and the axes of the
tick follow. -/
theorem MDie.enact_of_not_mem (d : MDie) {a : Action} (h : a.op ∉ actsAtAcceptance) :
    d.enact a =
      let x := d.eff a a.effect
      ((((x.1.reply a.rt (if a.okLate then .okLate else .ok) x.2 a.effect).release1 a.rt).release2 a.rt).returnPlace a.rt).follow x.1.ns := by
  have hne : ∀ op ∈ actsAtAcceptance, a.op ≠ op := fun op hop heq => h (heq ▸ hop)
  have hreset : a.op ≠ .sysReset := hne _ (by decide)
  have hchallenge : a.op ≠ .lcChallenge := hne _ (by decide)
  have hown : ownReply a.op = false := beq_false_of_ne (hne .journalSync (by decide))
  simp only [MDie.enact, hown, hreset, hchallenge, MDie.acceptNote_of_not_mem d h, Bool.false_eq_true, if_false, Option.getD_none]

/-- An accepted packet whose tick has begun, of an opcode that does nothing at its acceptance, completes with its own effect. -/
theorem exec_row_of_runsNow_done {op : Op} {p : Pkt} {s : State} (h : RunsNow op p s) (hop : op ∉ actsAtAcceptance) :
    exec (op.row p) s = .next (packetDone op p s (packetEffect op p s)) := by
  rw [exec_row_of_runsNow h, MDie.enact_of_not_mem _ (packetAction_op_not_mem p s hop)]
  rfl

/-! The packets that are turned away. -/

/-- Settles O7: `take_of_normal` gives checks 2 … 5 in the order of R70, `takeOwn_of_bad` those of the object's die; a stopped queue and
the reasons to wait in the ring come before them in `command`. -/
theorem packetsTurnedAway : Obligations.PacketsTurnedAway := by
  intro op p s ht hk d rt waits
  refine ⟨fun k hr hq => exec_row_of_queueStopped ht hk hr hq, fun k hr hq hb => exec_row_of_heldBack ht hk hr hq hb,
    fun hc hl => exec_row_of_badLen hc hl, fun ha hn => ⟨?head, ?level, ?length, ?cls, ?forward⟩,
    fun h k st r hbad hk9 => exec_row_of_bad h hbad hk9, fun h htask hgood hslot => exec_row_of_noSlot h htask hgood hslot⟩
  case head => exact fun hhead => exec_row_of_done ha (MDie.take_of_badHead hn hhead)
  case level => exact fun hhead hlevel => exec_row_of_done ha (MDie.take_of_lowLevel hn hhead hlevel)
  case length => exact fun hhead hlevel hlen => exec_row_of_done ha (MDie.take_of_badLength hn hhead hlevel hlen)
  case cls => exact fun hhead hlevel hlen hclass => exec_row_of_done ha (MDie.take_of_unknownClass hn hhead hlevel hlen hclass)
  case forward =>
    intro hhead hlevel hlen hclass hop hown
    have htake := MDie.take_of_otherNode (now := true) (pid := (packetGot op p s).2) hn hhead hlevel hlen hclass hop hown
    exact ⟨fun hr => exec_row_of_done ha (htake.trans (MDie.forwardCmd_of_unreachable _ _ _ hr)),
      fun hr hw => exec_row_of_done ha (htake.trans (MDie.forwardCmd_of_free _ _ _ hr hw))⟩

end Sys2Proof.Machine
end

section
/-! PROOFS. Handles, time while no command waits, the state after reset, clean boundaries, refusals. -/

namespace Sys2Proof.Machine

open Sys2Proof

/-! Handles (R22). -/

theorem mkHandle_toNat {cls node gen slot : Nat} (hc : cls < 32) (hn : node < 4096) (hg : gen < 8) (hs : slot < 4096) :
    (mkHandle cls node gen slot).toNat = cls * 2 ^ 27 + node * 2 ^ 15 + gen * 2 ^ 12 + slot := by
  simp only [mkHandle, BitVec.toNat_ofNat]
  omega

/-- The fields of a handle, as quotients of its value. -/
theorem handle_fields (h : U32) :
    hClass h = h.toNat / 2 ^ 27 ∧ hNode h = h.toNat / 2 ^ 15 % 4096 ∧ hGen h = h.toNat / 2 ^ 12 % 8 ∧ hSlot h = h.toNat % 4096 := by
  have hlt : h.toNat < 4294967296 := h.isLt
  have htop : h.toNat / 2 ^ 27 < 2 ^ 5 := by omega
  exact ⟨Nat.mod_eq_of_lt htop, rfl, rfl, congrArg (· % 4096) (Nat.div_one _)⟩

/-- Settles O13: the four fields lie in bits 31 … 27, 26 … 15, 14 … 12 and 11 … 0, and together they are all 32 bits. -/
theorem handleFields : Obligations.HandleFields := by
  refine ⟨fun cls node gen slot hc hn hg hs => ?_, fun h => ?_⟩
  · have hval := mkHandle_toNat hc hn hg hs
    obtain ⟨h1, h2, h3, h4⟩ := handle_fields (mkHandle cls node gen slot)
    rw [hval] at h1 h2 h3 h4
    exact ⟨hval, h1.trans (by omega), h2.trans (by omega), h3.trans (by omega), h4.trans (by omega)⟩
  · obtain ⟨h1, h2, h3, h4⟩ := handle_fields h
    have hlt := h.isLt
    refine BitVec.eq_of_toNat_eq ?_
    rw [h1, h2, h3, h4, mkHandle_toNat (by omega) (by omega) (by omega) (by omega)]
    omega

/-! Time while no command waits (R41, log 43). -/

theorem baseCeil_mod (t : Nat) : baseCeil t % 4 = 0 := by
  simp only [baseCeil]
  omega

theorem le_baseCeil (t : Nat) : t ≤ baseCeil t := by
  simp only [baseCeil]
  omega

/-- From the boundary of a base tick, 4 ns lead to the next one. -/
theorem baseCeil_add_four {t : Nat} (h : t % 4 = 0) : baseCeil (t + 4) = t + 4 := by
  simp only [baseCeil]
  omega

/-- Time passes to the first base tick at or after a time that lies ahead. -/
theorem MDie.passTo_of_lt {d : MDie} {t : Nat} (h : d.ns < t) :
    d.passTo t = { d with time := ⟨baseCeil t, 0⟩, upNs := d.upNs + (baseCeil t - d.ns) } :=
  if_pos (Nat.lt_of_lt_of_le h (le_baseCeil t))

theorem MDie.baseTick_of_before {d : MDie} (h : d.ns + 4 < d.nextTick) :
    d.baseTick = { d with time := ⟨baseCeil (d.ns + 4), 0⟩, upNs := d.upNs + (baseCeil (d.ns + 4) - d.ns), out := [] } := by
  rw [MDie.baseTick, if_neg (Nat.not_le.2 h), MDie.passTo_of_lt (Nat.lt_add_of_pos_right (by decide))]

theorem MDie.baseTick_of_tick {d : MDie} (h : d.nextTick ≤ d.ns + 4) : d.baseTick = d.start.sampleTick.settle d := if_pos h

theorem step_of_idle {s : State} (h : s.pending = []) : step s = .next { s with md := s.md.baseTick } := by
  simp only [step, h]

/-- Settles O2: a step with no command waiting is a base tick, and that is the sample tick where it reaches it (log 43). -/
theorem idleStepPassesBaseTick : Obligations.IdleStepPassesBaseTick := by
  intro s hidle
  rw [step_of_idle hidle]
  constructor
  · intro hbefore
    exact ⟨by rw [MDie.baseTick_of_before hbefore], baseCeil_mod _, baseCeil_add_four⟩
  · intro htick
    rw [MDie.baseTick_of_tick htick]
    rfl

/-! The state after reset. -/

/-- Settles O4: the fields of `State.reset` are finitely many values, evaluated slot by slot and register by register. -/
theorem resetHoldsManualValues : Obligations.ResetHoldsManualValues := by
  refine ⟨rfl, rfl, rfl, rfl, rfl, rfl, rfl, ?slots, rfl, ?cls, ?life, ?regs, rfl⟩
  case slots => decide +kernel
  case cls => decide +kernel
  case life => decide +kernel
  case regs =>
    intro p
    cases p <;> exact ⟨rfl, rfl, rfl, rfl, rfl, rfl, rfl, rfl, rfl, by decide⟩

/-! Clean boundaries (R31). -/

theorem exec_cleanBoundary_of_running (n : Nat) {s : State} (h : s.md.boot.inReset = false) :
    exec (.cleanBoundaryReached n) s = .next (s.after (s.md.start.cleanBoundary n)) :=
  onDie_of_running s _ h

/-- Time that passes touches no object. -/
@[simp] theorem MDie.passTo_obj? (d : MDie) (t n : Nat) : (d.passTo t).obj? n = d.obj? n := by
  simp only [MDie.passTo]
  split <;> rfl

theorem MDie.trace?_of_data {d : MDie} {n : Nat} {o : Obj} {x : Trace} (ho : d.obj? n = some o) (hd : o.data = .trace x) :
    d.trace? n = some (o, x) := by
  simp only [MDie.trace?, ho, hd]

section CleanBoundary

variable {d : MDie} {n : Nat} {o : Obj}

theorem MDie.cleanBoundary_of_notDraining (ho : d.obj? n = some o) (hl : o.life ≠ .draining) : d.cleanBoundary n = d := by
  simp only [MDie.cleanBoundary, ho, ne_eq, hl, not_false_eq_true, if_true]

/-- An axis at rest whose plan has ended is at its boundary now. -/
theorem MDie.cleanBoundary_of_axis {a : Axis} (ho : d.obj? n = some o) (hl : o.life = .draining) (hd : o.data = .axis a)
    (hdrain : a.core.draining = true) (hrest : atRest a.cur = true) (hend : a.core.plan.endsAt ≤ d.tickOf n) :
    d.cleanBoundary n = d.axisEnd n (d.tickOf n) := by
  simp only [MDie.cleanBoundary, ho, hl, hd, hdrain, hrest, hend, ne_eq, not_true_eq_false, and_self, if_false, if_true]

theorem MDie.cleanBoundary_of_fbk {f : Fbk} (ho : d.obj? n = some o) (hl : o.life = .draining) (hd : o.data = .fbk f) :
    d.cleanBoundary n = ((d.passTo d.nextTick).setData n (.fbk (fbkInvalid f))).toIdle n d.nextTick := by
  simp only [MDie.cleanBoundary, ho, hl, hd, ne_eq, not_true_eq_false, if_false]

/-- A trace that does not record has nothing to report but its end. -/
theorem MDie.cleanBoundary_of_stoppedTrace {x : Trace} (ho : d.obj? n = some o) (hl : o.life = .draining) (hd : o.data = .trace x)
    (hst : ¬ (x.st = 1 ∨ x.st = 2)) :
    d.cleanBoundary n =
      (((d.passTo d.nextTick).setData n (.trace (x.halt d.nextTick 0).1)).postAll n (x.halt d.nextTick 0).2).toIdle n d.nextTick := by
  have hx := MDie.trace?_of_data ((d.passTo_obj? d.nextTick n).trans ho) hd
  simp only [MDie.cleanBoundary, ho, hl, hd, MDie.traceEnd, hx, hst, ne_eq, not_true_eq_false, if_false]

/-- A trace that records stops with a free cause (log 156). -/
theorem MDie.cleanBoundary_of_recordingTrace {x : Trace} (ho : d.obj? n = some o) (hl : o.life = .draining) (hd : o.data = .trace x)
    (hst : x.st = 1 ∨ x.st = 2) :
    d.cleanBoundary n =
      let k := (d.passTo d.nextTick).draw 256
      ((k.1.setData n (.trace (x.halt d.nextTick k.2).1)).postAll n (x.halt d.nextTick k.2).2).toIdle n d.nextTick := by
  have hx := MDie.trace?_of_data ((d.passTo_obj? d.nextTick n).trans ho) hd
  simp only [MDie.cleanBoundary, ho, hl, hd, MDie.traceEnd, hx, hst, ne_eq, not_true_eq_false, if_false, if_true]

/-- A lane without link has nothing left to send; one in TRAINING ends it here (log 93). -/
theorem MDie.cleanBoundary_of_lane {l : Lane} (ho : d.obj? n = some o) (hl : o.life = .draining) (hd : o.data = .dlane l)
    (hlink : l.link < 2) :
    d.cleanBoundary n =
      ((d.passTo d.nextTick).setData n (.dlane { l with link := 0, drain := none })).toIdle n d.nextTick := by
  simp only [MDie.cleanBoundary, ho, hl, hd, hlink, ne_eq, not_true_eq_false, true_or, if_false, if_true]

end CleanBoundary

/-- Settles O25: `cleanBoundary` at the object's class, on the die as the step finds it. -/
theorem cleanBoundaryEndsDrain : Obligations.CleanBoundaryEndsDrain := by
  intro s n o hrun ho T
  have ho' : s.md.start.obj? n = some o := ho
  rw [exec_cleanBoundary_of_running n hrun]
  refine ⟨fun hl => ?_, fun hl => ⟨?axis, ?fbk, ?idleTrace, ?runningTrace, ?lane⟩⟩
  · rw [MDie.cleanBoundary_of_notDraining ho' hl]
  case axis =>
    intro a hd hdrain hrest hend
    rw [MDie.cleanBoundary_of_axis ho' hl hd hdrain hrest hend]
    rfl
  case fbk =>
    intro f hd
    rw [MDie.cleanBoundary_of_fbk ho' hl hd]
    rfl
  case idleTrace =>
    intro x hd h1 h2
    rw [MDie.cleanBoundary_of_stoppedTrace ho' hl hd (not_or.2 ⟨h1, h2⟩)]
    rfl
  case runningTrace =>
    intro x hd hst
    rw [MDie.cleanBoundary_of_recordingTrace ho' hl hd hst]
    rfl
  case lane =>
    intro l hd hlink
    rw [MDie.cleanBoundary_of_lane ho' hl hd hlink]
    rfl

/-! Refusals (R29). -/

/-- What a refusal notes beside its reply: only of a `PROF_COMMIT`, an `OBJECT_ENABLE` and an `LC_ADVANCE` is there anything. -/
theorem MDie.refusalNote_eq_self (d : MDie) {op : Op} (p : Pkt) (r : Result) (hprof : op ≠ .profCommit) (hlc : op ≠ .lcAdvance)
    (hen : op ≠ .objectEnable) : d.refusalNote op p r = d := by
  unfold MDie.refusalNote
  split
  · exact absurd rfl hprof
  · exact absurd rfl hen
  · exact absurd rfl hlc
  · rfl

namespace BulkBehindReply

/-! A die whose reply to a refused command lets a waiting bulk frame leave its port. Port 0 of node 4 is UP. Its replay buffer has room for the
small `BULK_WRITE` of DMA channel 0, not for the 1024-byte command packet before it (R455), which so held back the bulk frame until `PORT.BULK_MIN`
put the bulk class first (R459). The frame asks for its time of sending (R507). -/

/-- A packet of node 4 for node 5 with so many bytes. -/
def msg (ptype flags bytes : Nat) : FabMsg :=
  { ptype := ptype, pkt := { dst := 5, src := 4, level := 1, hops := 255, flags := flags, xtag := 0, xaux := 0, payload := List.replicate bytes 0 } }

def port : Port :=
  { Port.create with link := 2, credits := [32, 128, 256, 256], sent := (List.replicate 30 ⟨0, msg 3 0 1024, 1⟩) ++ [⟨0, msg 3 0 64, 1⟩]
                     waiting := [msg 3 0 1024, msg 12 1 64], tally := [1, 0, 0, 0] }

/-- The channel in slot 256, none of whose frames has left. -/
def channel : Slot := ⟨0, .obj (fixedObj .enabled (.dmac (Dmac.create 0)))⟩

def die : MDie :=
  { MDie.reset with
    slots := MDie.reset.slots ++ [(256, channel)], ports := MDie.reset.ports.set 0 port
    fab := { MDie.reset.fab with node := 4, st := 2, routes := [(5, ⟨6, 0xFF, 1⟩)] } }

/-- A command of node 5, and the die that has refused it. -/
def command : Pkt :=
  { client := 5, origin := 1, queue := 0, len := 2, flags := 0, seq := 0, target := 0, reserved := 0, task := none, stamp := none, body := [] }

def refused : MDie := die.turnAway (replyTo Op.nop.code command none) .badHandle noResult

/-- Whether a frame of the channel in slot 256 has left. -/
def hasSent (d : MDie) : Bool :=
  match d.dmac? 256 with
  | some (_, c) => c.sentAt.isSome
  | none => false

theorem not_hasSent_die : hasSent die = false := by decide +kernel

theorem hasSent_refused : hasSent refused = true := by decide +kernel

theorem hasSent_congr {d e : MDie} (h : d.slots = e.slots) : hasSent d = hasSent e := by
  simp only [hasSent, MDie.dmac?, MDie.obj?, h]

end BulkBehindReply

/-- Refutes O8: the reply of a refusal to another node goes through a port, and what waits there may leave with it. A bulk frame with `TS_REQ`
that does tells its DMA channel the time (R507), so an object of the table is another than before. The second half of the statement
holds (`refusalNote_eq_self`). -/
theorem not_refusedCommandHasNoEffect : ¬ Obligations.RefusedCommandHasNoEffect := by
  intro h
  obtain ⟨⟨hslots, _⟩, _⟩ := h BulkBehindReply.die (replyTo Op.nop.code BulkBehindReply.command none) .badHandle noResult .nop
    BulkBehindReply.command
  have hsame := BulkBehindReply.hasSent_congr hslots
  exact absurd (BulkBehindReply.hasSent_refused.symm.trans (hsame.trans BulkBehindReply.not_hasSent_die)) (by decide)

end Sys2Proof.Machine
end

section
/-! PROOFS. The generic object and parameter commands at their tick: the handle table, life states, reading and writing, creation. -/

namespace Sys2Proof.Machine

open Sys2Proof

/-! What the generic commands do at their tick: `eff` by opcode (R88 … R95). -/

section Eff

variable {d : MDie} {a : Action} {n : Nat} {o : Obj} (t : Nat)

theorem MDie.eff_of_noEffect (h : a.op = .nop ∨ a.op = .taskWait) : d.eff a t = (d, noResult) := by
  rcases h with h | h <;> simp only [MDie.eff, h]

theorem MDie.eff_objectCreate (h : a.op = .objectCreate) :
    d.eff a t = d.createDo a.pkt.client a.charge a.pkt.origin.toNat a.newSlot t a.pkt.body := by
  simp only [MDie.eff, h]

theorem MDie.eff_objectDestroy (h : a.op = .objectDestroy) (hf : d.find a.pkt.target = some (n, o)) :
    d.eff a t = (d.destroyDo n, noResult) := by
  simp only [MDie.eff, h, hf]

theorem MDie.eff_objectEnable (h : a.op = .objectEnable) (hf : d.find a.pkt.target = some (n, o)) :
    d.eff a t = (d.enableDo n t, noResult) := by
  simp only [MDie.eff, h, hf]

theorem MDie.eff_objectDisable (h : a.op = .objectDisable) (hf : d.find a.pkt.target = some (n, o)) :
    d.eff a t = (d.disableDo n a.pkt.client t, noResult) := by
  simp only [MDie.eff, h, hf]

theorem MDie.eff_paramGet (h : a.op = .paramGet) (hf : d.find a.pkt.target = some (n, o)) : d.eff a t = d.paramGet n a.pkt.body := by
  simp only [MDie.eff, h, hf]

theorem MDie.eff_paramSet (h : a.op = .paramSet) (hf : d.find a.pkt.target = some (n, o)) :
    d.eff a t = (d.paramSet n t [parEntry a.pkt.body 0], ⟨storedValue (parEntry a.pkt.body 0), 0⟩) := by
  simp only [MDie.eff, h, hf, entriesOf]

end Eff

/-! The handle table under the updates these commands make. -/

theorem MDie.obj?_congr {d e : MDie} (h : d.slots = e.slots) (n : Nat) : d.obj? n = e.obj? n := by
  simp only [MDie.obj?, h]

theorem MDie.slot?_congr {d e : MDie} (h : d.slots = e.slots) (n : Nat) : d.slot? n = e.slot? n := by
  simp only [MDie.slot?, h]

@[simp] theorem MDie.jnote_slots (d : MDie) (rs : List JRec) : (d.jnote rs).slots = d.slots := rfl
@[simp] theorem MDie.jnote_freed (d : MDie) (rs : List JRec) : (d.jnote rs).freed = d.freed := rfl

theorem MDie.slot?_occupy_of_ne (d : MDie) {n m : Nat} (x : Occupant) (h : m ≠ n) : (d.occupy n x).slot? m = d.slot? m := by
  simp only [MDie.occupy, MDie.slot?, alGet_alSet, if_neg h.symm]

theorem MDie.obj?_occupy (d : MDie) (n : Nat) (o : Obj) : (d.occupy n (.obj o)).obj? n = some o := by
  simp only [MDie.occupy, MDie.obj?, alGet_alSet, if_true]

theorem MDie.slot?_vacate (d : MDie) {n : Nat} {s : Slot} (m : Nat) (h : d.slot? n = some s) :
    (d.vacate n).slot? m = if n = m then some ⟨(s.gen + 1) % 8, .free⟩ else d.slot? m := by
  have h' : alGet d.slots n = some s := h
  simp only [MDie.vacate, MDie.slot?, h', alGet_alSet]

theorem MDie.freed_vacate (d : MDie) {n : Nat} {s : Slot} (h : d.slot? n = some s) : (d.vacate n).freed = d.freed ++ [n] := by
  have h' : alGet d.slots n = some s := h
  simp only [MDie.vacate, h']

theorem MDie.slot?_modObj_of_ne (d : MDie) {n m : Nat} (f : Obj → Obj) (h : m ≠ n) : (d.modObj n f).slot? m = d.slot? m := by
  unfold MDie.modObj MDie.setObj
  split
  · split
    · simp only [MDie.slot?, alGet_alSet, if_neg h.symm]
    · rfl
  · rfl

/-- A handle that names an object carries the generation of its slot. -/
theorem MDie.slot?_of_find {d : MDie} {h : U32} {n : Nat} {o : Obj} (hf : d.find h = some (n, o)) :
    d.slot? n = some ⟨hGen h, .obj o⟩ := by
  unfold MDie.find at hf
  split at hf
  · cases hf
  · split at hf
    · rename_i g o' hs
      split at hf
      · rename_i hgen
        cases hf
        exact hs.trans (congrArg (fun g => some (Slot.mk g (.obj o))) hgen.1)
      · cases hf
    · cases hf

/-! Enabling and disabling (R30). -/

theorem MDie.enableDo_of_idle {d : MDie} {n t : Nat} {o : Obj} (ho : d.obj? n = some o) (hl : o.life = .created ∨ o.life = .disabled) :
    d.enableDo n t = (d.setLife n .enabled).classEnableDo n t o.data := by
  simp only [MDie.enableDo, ho, hl, if_true]

theorem MDie.enableDo_of_running {d : MDie} {n t : Nat} {o : Obj} (ho : d.obj? n = some o) (hl : o.life = .enabled ∨ o.life = .draining) :
    d.enableDo n t = d := by
  have hl' : ¬ (o.life = .created ∨ o.life = .disabled) := by rcases hl with h | h <;> rw [h] <;> decide
  simp only [MDie.enableDo, ho, hl', if_false]

theorem MDie.disableDo_of_enabled {d : MDie} {n t : Nat} {o : Obj} (client : U16) (ho : d.obj? n = some o) (hl : o.life = .enabled) :
    d.disableDo n client t = (d.toDraining n 0 client).classDrain n t o.data := by
  simp only [MDie.disableDo, ho, hl, if_true]

theorem MDie.disableDo_of_notEnabled {d : MDie} {n t : Nat} {o : Obj} (client : U16) (ho : d.obj? n = some o) (hl : o.life ≠ .enabled) :
    d.disableDo n client t = d := by
  simp only [MDie.disableDo, ho, hl, if_false]

/-! Destruction (R28). -/

/-- What a destroyed object held beside its slot: memory, or its queue. The handle table is as before. -/
def MDie.giveBack (d : MDie) (n : Nat) (x : ObjData) : MDie :=
  match x with
  | .cam _ => { d with mem := d.mem.release n }
  | .trace _ => { d with mem := d.mem.release n }
  | .queue key => d.queueGone key
  | _ => d

@[simp] theorem MDie.giveBack_slots (d : MDie) (n : Nat) (x : ObjData) : (d.giveBack n x).slots = d.slots := by
  cases x <;> rfl

@[simp] theorem MDie.giveBack_freed (d : MDie) (n : Nat) (x : ObjData) : (d.giveBack n x).freed = d.freed := by
  cases x <;> rfl

theorem MDie.destroyDo_of_idle {d : MDie} {n : Nat} {o : Obj} (ho : d.obj? n = some o) (hn : 256 ≤ n)
    (hl : o.life = .created ∨ o.life = .disabled) : d.destroyDo n = ((d.giveBack n o.data).vacate n).jnote (d.jDestroy n o) := by
  have hidle : ¬ (o.life = .enabled ∨ o.life = .draining) := by rcases hl with h | h <;> rw [h] <;> decide
  have hstay : ¬ (n < 256 ∨ o.life = .enabled ∨ o.life = .draining) := not_or.2 ⟨Nat.not_lt.2 hn, hidle⟩
  simp only [MDie.destroyDo, ho, hstay, if_false]
  rfl

/-- The slot of a destroyed object is free, its generation one further, at the end of the free list; no other slot changes. -/
theorem MDie.destroyDo_slots {d : MDie} {h : U32} {n : Nat} {o : Obj} (hf : d.find h = some (n, o)) (hn : 256 ≤ n)
    (hl : o.life = .created ∨ o.life = .disabled) :
    (d.destroyDo n).slot? n = some ⟨(hGen h + 1) % 8, .free⟩ ∧ (d.destroyDo n).freed = d.freed ++ [n]
      ∧ ∀ m, m ≠ n → (d.destroyDo n).slot? m = d.slot? m := by
  have hback : (d.giveBack n o.data).slot? n = some ⟨hGen h, .obj o⟩ :=
    (MDie.slot?_congr (d.giveBack_slots n _) n).trans (MDie.slot?_of_find hf)
  rw [MDie.destroyDo_of_idle (d.find_obj? h n o hf).2 hn hl]
  refine ⟨?_, ?_, fun m hm => ?_⟩
  · rw [MDie.slot?_congr (MDie.jnote_slots _ _), MDie.slot?_vacate _ n hback, if_pos rfl]
  · rw [MDie.jnote_freed, MDie.freed_vacate _ hback, MDie.giveBack_freed]
  · rw [MDie.slot?_congr (MDie.jnote_slots _ _), MDie.slot?_vacate _ m hback, if_neg hm.symm]
    exact MDie.slot?_congr (d.giveBack_slots n _) m

/-! Reading (R92, R97). -/

theorem MDie.paramGet_of_obj {d : MDie} {n : Nat} {o : Obj} (b : List Byte) (ho : d.obj? n = some o) :
    d.paramGet n b =
      ((d.paramValue n o (rdU b 0 2) (rdU b 2 2)).1,
        ⟨(d.paramValue n o (rdU b 0 2) (rdU b 2 2)).2, BitVec.ofNat 64 (rdU b 0 2 + 65536 * rdU b 2 2)⟩) := by
  simp only [MDie.paramGet, ho]

theorem MDie.paramValue_state (d : MDie) (n : Nat) (o : Obj) (ix : Nat) :
    d.paramValue n o Par.objectState ix = (d, BitVec.ofNat 64 o.life.code) := if_pos rfl

theorem MDie.paramValue_owner (d : MDie) (n : Nat) (o : Obj) (ix : Nat) :
    d.paramValue n o Par.objectOwner ix = (d, o.owner.setWidth 64) := by
  rw [MDie.paramValue, if_neg (by decide), if_pos rfl]

/-- The route and the mask of events are stored values. -/
theorem MDie.paramValue_event (d : MDie) (n : Nat) (o : Obj) {id : Nat} (ix : Nat) (h : id = Par.objectEvtRoute ∨ id = Par.objectEvtMask) :
    d.paramValue n o id ix = (d, o.params.get id) := by
  have hstate : id ≠ Par.objectState := by rcases h with rfl | rfl <;> decide
  have howner : id ≠ Par.objectOwner := by rcases h with rfl | rfl <;> decide
  rw [MDie.paramValue, if_neg hstate, if_neg howner, if_pos h]

/-! Writing (R89, R93). -/

theorem MDie.pwmShadow_nil (d : MDie) (n t : Nat) : d.pwmShadow n t [] = d := by
  unfold MDie.pwmShadow
  split
  · rfl
  · exact if_pos rfl

/-- Where no entry was written there is nothing more to do. -/
theorem MDie.writtenHook_nil (d : MDie) (n t : Nat) (o : Obj) : d.writtenHook n t o [] = d := by
  unfold MDie.writtenHook
  cases o.data <;> rfl

theorem MDie.applyEntries_nil {d : MDie} {n t : Nat} : d.applyEntries n t [] = d := by
  unfold MDie.applyEntries
  split
  · rfl
  · simp only [List.filter_nil, List.map_nil, List.foldl_nil, MDie.pwmShadow_nil, MDie.writtenHook_nil]

/-- Classes whose parameters are no more than their stored values. -/
def storesOnly (c : Class) : Prop := c = .canmb ∨ c = .capt ∨ c = .evt ∨ c = .trace ∨ c = .dmac

theorem MDie.writtenHook_of_storesOnly (d : MDie) (n t : Nat) {o : Obj} (es : List Entry) (h : storesOnly o.cls) :
    d.writtenHook n t o es = d := by
  unfold storesOnly Obj.cls at h
  unfold MDie.writtenHook
  cases hd : o.data <;> simp only [hd, ObjData.cls, reduceCtorEq, or_false, or_true, or_self] at h <;> rfl

/-- One entry of such an object is stored as its access says. -/
theorem MDie.applyEntries_of_storesOnly {d : MDie} {n : Nat} {o : Obj} (t : Nat) (e : Entry) (ho : d.obj? n = some o) (h : storesOnly o.cls) :
    d.applyEntries n t [e] = d.storeEntry n e := by
  have hnotPwm : (o.cls == .pwmg) = false := by
    rcases h with h | h | h | h | h <;> rw [h] <;> rfl
  simp only [MDie.applyEntries, ho, hnotPwm, Bool.false_and, Bool.false_eq_true, not_false_eq_true, List.filter_cons_of_neg,
    List.filter_nil, List.map_nil, MDie.pwmShadow_nil, Bool.not_false, List.filter_cons_of_pos, List.foldl_cons, List.foldl_nil,
    MDie.writtenHook_of_storesOnly _ n t _ h]

theorem paramRow?_of_rowOf {c : Class} {id : Nat} {r : ParamRow} (h : rowOf c id = some r) : paramRow? id = some r ∧ r.ofClass c = true :=
  Option.filter_eq_some_iff.1 h

/-- The SSI clock, the one value that is stored rounded (R141), belongs to feedback channels. -/
theorem storedValue_of_rowOf {c : Class} {e : Entry} {r : ParamRow} (h : rowOf c e.id = some r) (hc : c ≠ .fbk) : storedValue e = e.v := by
  unfold storedValue
  split
  · rename_i hid
    obtain ⟨hrow, hcls⟩ := paramRow?_of_rowOf h
    have hssi : (paramRow? Par.fbkSsiClock).map (fun r => r.cls) = some (some .fbk) := by decide +kernel
    rw [← hid, hrow] at hssi
    have hr : r.cls = some .fbk := Option.some.inj hssi
    simp only [ParamRow.ofClass, hr, beq_iff_eq] at hcls
    exact absurd hcls.symm hc
  · rfl

section StoreEntry

variable {d : MDie} {n : Nat} {o : Obj} {e : Entry} {r : ParamRow}

theorem MDie.storeEntry_of_writable (ho : d.obj? n = some o) (hrow : paramRow? e.id = some r) (ha : r.access = .rw ∨ r.access = .rwl) :
    (d.storeEntry n e).obj? n = some { o with params := o.params.set e.id e.ix e.v } := by
  unfold MDie.storeEntry
  rw [MDie.modObj_obj? d n n _ o ho, if_pos rfl, hrow]
  rcases ha with ha | ha <;> simp only [Option.map_some, ha]

theorem MDie.storeEntry_of_w1c (ho : d.obj? n = some o) (hrow : paramRow? e.id = some r) (ha : r.access = .w1c) :
    (d.storeEntry n e).obj? n = some { o with params := o.params.set e.id e.ix (o.params.get e.id e.ix &&& ~~~e.v) } := by
  unfold MDie.storeEntry
  rw [MDie.modObj_obj? d n n _ o ho, if_pos rfl, hrow]
  simp only [Option.map_some, ha]

theorem MDie.slot?_storeEntry_of_ne {m : Nat} (h : m ≠ n) : (d.storeEntry n e).slot? m = d.slot? m :=
  MDie.slot?_modObj_of_ne d _ h

/-- `PARAM_SET` of such an object leaves the handle table as its entry does; its journal records are no part of it. -/
theorem MDie.paramSet_slots (t : Nat) (ho : d.obj? n = some o) (h : storesOnly o.cls) :
    (d.paramSet n t [e]).slots = (d.storeEntry n e).slots := by
  simp only [MDie.paramSet, MDie.applyEntries_of_storesOnly t e ho h, MDie.jnote_slots]

end StoreEntry

/-! Creation (R59, R90). -/

/-- The die once an object is in its slot: a `QUEUE` has its state in the Ringmaster from then on. -/
def MDie.withNew (d : MDie) (n : Nat) (o : Obj) : MDie :=
  match o.data with
  | .queue key => (d.occupy n (.obj o)).setQueue key QueueRt.create
  | _ => d.occupy n (.obj o)

theorem MDie.withNew_slots (d : MDie) (n : Nat) (o : Obj) : (d.withNew n o).slots = (d.occupy n (.obj o)).slots := by
  unfold MDie.withNew
  cases o.data <;> rfl

theorem MDie.withNew_obj? (d : MDie) (n : Nat) (o : Obj) : (d.withNew n o).obj? n = some o :=
  (MDie.obj?_congr (d.withNew_slots n o) n).trans (d.obj?_occupy n o)

theorem MDie.withNew_slot?_of_ne (d : MDie) {n m : Nat} (o : Obj) (h : m ≠ n) : (d.withNew n o).slot? m = d.slot? m :=
  (MDie.slot?_congr (d.withNew_slots n o) m).trans (d.slot?_occupy_of_ne _ h)

/-- The creation of the object now in a slot is noted where its class is recorded (R555). -/
def MDie.noteNew (d : MDie) (n : Nat) (c : Class) : MDie :=
  match d.obj? n with
  | some o => if journalled c then d.jnote (d.jCreate n o :: d.noteEntries n []) else d
  | none => d

@[simp] theorem MDie.noteNew_slots (d : MDie) (n : Nat) (c : Class) : (d.noteNew n c).slots = d.slots := by
  unfold MDie.noteNew
  split
  · split <;> rfl
  · rfl

/-- A creation without entries puts the object of its template into the slot and notes it. -/
theorem MDie.createDo_of_template {d : MDie} {client charge : U16} {origin n t : Nat} {b : List Byte} {c : Class} {x : Params × ObjData}
    (hc : classOfCode (rdU b 0 1) = some c) (hnone : rdU b 2 2 = 0) (hcam : c ≠ .cam) (hx : d.template client c (rdU b 4 4) = some x) :
    d.createDo client charge origin (some n) t b =
      let y := (d.withNew n (newObj (rdU b 4 4) client charge origin x.1 x.2)).noteNew n c
      (y, ⟨(y.handle n).setWidth 64, 0⟩) := by
  obtain ⟨ps, data⟩ := x
  have hentries : entriesOf .objectCreate b = [] := by simp only [entriesOf, hnone, List.range_zero, List.map_nil]
  unfold MDie.createDo
  simp only [hc, hx, hcam, hentries, if_false, MDie.applyEntries_nil]
  rfl

/-! The effect of each opcode, and its completion. -/

/-- What a creation leaves: its object in its slot, every other slot as it was, and the handle as its result. -/
theorem MDie.eff_objectCreate_object {d : MDie} {a : Action} {t n : Nat} {c : Class} {x : Params × ObjData} (h : a.op = .objectCreate)
    (hn : a.newSlot = some n) (hc : classOfCode (rdU a.pkt.body 0 1) = some c) (hnone : rdU a.pkt.body 2 2 = 0) (hcam : c ≠ .cam)
    (hx : d.template a.pkt.client c (rdU a.pkt.body 4 4) = some x) :
    let y := d.eff a t
    y.1.obj? n = some (newObj (rdU a.pkt.body 4 4) a.pkt.client a.charge a.pkt.origin.toNat x.1 x.2)
      ∧ (∀ m, m ≠ n → y.1.slot? m = d.slot? m) ∧ y.2 = ⟨(y.1.handle n).setWidth 64, 0⟩ := by
  rw [MDie.eff_objectCreate t h, hn, MDie.createDo_of_template hc hnone hcam hx]
  refine ⟨?_, fun m hm => ?_, rfl⟩
  · exact (MDie.obj?_congr (MDie.noteNew_slots _ n c) n).trans (d.withNew_obj? n _)
  · exact (MDie.slot?_congr (MDie.noteNew_slots _ n c) m).trans (d.withNew_slot?_of_ne _ hm)

theorem MDie.eff_objectEnable_life {d : MDie} {a : Action} {n : Nat} {o : Obj} (t : Nat) (h : a.op = .objectEnable)
    (hf : d.find a.pkt.target = some (n, o)) :
    (o.life = .created ∨ o.life = .disabled → d.eff a t = ((d.setLife n .enabled).classEnableDo n t o.data, noResult))
      ∧ (o.life = .enabled ∨ o.life = .draining → d.eff a t = (d, noResult)) := by
  have ho := (d.find_obj? _ n o hf).2
  rw [MDie.eff_objectEnable t h hf]
  exact ⟨fun hl => by rw [MDie.enableDo_of_idle ho hl], fun hl => by rw [MDie.enableDo_of_running ho hl]⟩

theorem MDie.eff_objectDisable_life {d : MDie} {a : Action} {n : Nat} {o : Obj} (t : Nat) (h : a.op = .objectDisable)
    (hf : d.find a.pkt.target = some (n, o)) :
    (o.life = .enabled → d.eff a t = ((d.toDraining n 0 a.pkt.client).classDrain n t o.data, noResult))
      ∧ (o.life ≠ .enabled → d.eff a t = (d, noResult)) := by
  have ho := (d.find_obj? _ n o hf).2
  rw [MDie.eff_objectDisable t h hf]
  exact ⟨fun hl => by rw [MDie.disableDo_of_enabled _ ho hl], fun hl => by rw [MDie.disableDo_of_notEnabled _ ho hl]⟩

theorem MDie.eff_objectDestroy_slots {d : MDie} {a : Action} {n : Nat} {o : Obj} (t : Nat) (h : a.op = .objectDestroy)
    (hf : d.find a.pkt.target = some (n, o)) (hn : 256 ≤ n) (hl : o.life = .created ∨ o.life = .disabled) :
    let x := (d.eff a t).1
    x.slot? n = some ⟨(hGen a.pkt.target + 1) % 8, .free⟩ ∧ x.freed = d.freed ++ [n] ∧ ∀ m, m ≠ n → x.slot? m = d.slot? m := by
  rw [MDie.eff_objectDestroy t h hf]
  exact MDie.destroyDo_slots hf hn hl

/-- `PARAM_GET`: the value, with the ID and the index (R92). -/
theorem MDie.eff_paramGet_value {d : MDie} {a : Action} {n : Nat} {o : Obj} (t : Nat) (h : a.op = .paramGet) (hf : d.find a.pkt.target = some (n, o)) :
    d.eff a t =
      ((d.paramValue n o (rdU a.pkt.body 0 2) (rdU a.pkt.body 2 2)).1,
        ⟨(d.paramValue n o (rdU a.pkt.body 0 2) (rdU a.pkt.body 2 2)).2,
          BitVec.ofNat 64 (rdU a.pkt.body 0 2 + 65536 * rdU a.pkt.body 2 2)⟩) := by
  rw [MDie.eff_paramGet t h hf, MDie.paramGet_of_obj _ (d.find_obj? _ n o hf).2]

/-- `PARAM_SET` to an object whose parameters are no more than their values. -/
theorem MDie.eff_paramSet_stored {d : MDie} {a : Action} {n : Nat} {o : Obj} {r : ParamRow} (t : Nat) (h : a.op = .paramSet)
    (hf : d.find a.pkt.target = some (n, o)) (hr : rowOf o.cls (rdU a.pkt.body 0 2) = some r) (hc : storesOnly o.cls) :
    let b := a.pkt.body
    let v := BitVec.ofNat 64 (rdU b 8 8)
    let x := d.eff a t
    (r.access = .rw ∨ r.access = .rwl → x.1.obj? n = some { o with params := o.params.set (rdU b 0 2) (rdU b 2 2) v })
      ∧ (r.access = .w1c → let w := o.params.get (rdU b 0 2) (rdU b 2 2) &&& ~~~v
          x.1.obj? n = some { o with params := o.params.set (rdU b 0 2) (rdU b 2 2) w })
      ∧ x.2 = ⟨v, 0⟩ ∧ ∀ m, m ≠ n → x.1.slot? m = d.slot? m := by
  have ho := (d.find_obj? _ n o hf).2
  have hrow := (paramRow?_of_rowOf hr).1
  have hslots := MDie.paramSet_slots (e := parEntry a.pkt.body 0) t ho hc
  have hfbk : o.cls ≠ .fbk := by rcases hc with h | h | h | h | h <;> rw [h] <;> decide
  rw [MDie.eff_paramSet t h hf]
  refine ⟨fun ha => ?_, fun ha => ?_, ?_, fun m hm => ?_⟩
  · exact (MDie.obj?_congr hslots n).trans (MDie.storeEntry_of_writable ho hrow ha)
  · exact (MDie.obj?_congr hslots n).trans (MDie.storeEntry_of_w1c ho hrow ha)
  · exact congrArg (Result.mk · 0) (storedValue_of_rowOf (e := parEntry a.pkt.body 0) hr hfbk)
  · exact (MDie.slot?_congr hslots m).trans (MDie.slot?_storeEntry_of_ne hm)

/-- Settles O14: the effect of each opcode by its own lemma, and the completion of a packet of any of them by `exec_row_of_runsNow_done`. -/
theorem generalCommandEffects : Obligations.GeneralCommandEffects := by
  constructor
  · intro d a t b
    refine ⟨MDie.eff_of_noEffect t, ?create, fun n o hf => ⟨?enable, ?disable, ?destroy, ?getEvent, ?get, ?set⟩⟩
    case create => exact fun n c x h hn hc hnone hcam hx => MDie.eff_objectCreate_object h hn hc hnone hcam hx
    case enable => exact fun h => MDie.eff_objectEnable_life t h hf
    case disable => exact fun h => MDie.eff_objectDisable_life t h hf
    case destroy => exact fun h hn hl => MDie.eff_objectDestroy_slots t h hf hn hl
    case getEvent =>
      intro h hid _
      rw [MDie.eff_paramGet_value t h hf, MDie.paramValue_event d n o _ hid]
    case get =>
      intro h
      rw [MDie.eff_paramGet_value t h hf]
      refine ⟨fun hid => ?_, fun hid => ?_, rfl⟩
      · rw [show rdU a.pkt.body 0 2 = Par.objectState from hid, MDie.paramValue_state]
      · rw [show rdU a.pkt.body 0 2 = Par.objectOwner from hid, MDie.paramValue_owner]
    case set => exact fun r h hr hc => MDie.eff_paramSet_stored t h hf hr hc
  · intro p s
    have completes (op : Op) (hop : op ∉ actsAtAcceptance) (h : RunsNow op p s) := exec_row_of_runsNow_done h hop
    exact ⟨completes .nop (by decide), completes .objectCreate (by decide), completes .objectDestroy (by decide),
      completes .objectEnable (by decide), completes .objectDisable (by decide), completes .paramGet (by decide),
      completes .paramSet (by decide), completes .paramSetMulti (by decide)⟩

end Sys2Proof.Machine
end

section
/-! PROOFS. Ticks and stamps: the rate classes, the tick of effect, commands accepted for a tick ahead, conditions the Planner meets at a
class 0 tick. -/

namespace Sys2Proof.Machine

open Sys2Proof

/-! The periods of the sample rate classes (R42). -/

/-- Settles O12: the period is 16 µs, 4,000 base ticks of 4 ns, doubled for every class. -/
theorem sampleClassPeriods : Obligations.SampleClassPeriods :=
  ⟨by decide, fun c _ => show 16000 * 2 ^ c = 4 * (4000 * 2 ^ c) by omega⟩

/-! The tick of effect (R47 … R49). -/

theorem ceilTick_mod (per t : Nat) : ceilTick per t % per = 0 := Nat.mul_mod_left _ _

section CeilTick

variable {per : Nat} (hper : 0 < per) (t : Nat)

include hper

theorem le_ceilTick : t ≤ ceilTick per t := by
  have hnext := Nat.lt_div_mul_add (a := t + per - 1) hper
  unfold ceilTick
  omega

theorem ceilTick_lt : ceilTick per t < t + per := by
  have hdiv := Nat.div_mul_le_self (t + per - 1) per
  unfold ceilTick
  omega

/-- No tick lies between a time and the tick it is carried to. -/
theorem ceilTick_le_of_tick {u : Nat} (hu : u % per = 0) (h : t ≤ u) : ceilTick per t ≤ u := by
  obtain ⟨k, rfl⟩ := Nat.dvd_of_mod_eq_zero hu
  have hk : (t + per - 1) / per ≤ k := Nat.le_of_lt_succ ((Nat.div_lt_iff_lt_mul hper).2 (by rw [Nat.succ_mul, Nat.mul_comm]; omega))
  calc ceilTick per t ≤ k * per := Nat.mul_le_mul_right per hk
    _ = per * k := Nat.mul_comm k per

end CeilTick

/-- The first whole ns at least 2 µs after a moment with a fraction of a ns (R48). -/
theorem two_us_after_le_iff (ns : Nat) (frac : BitVec 16) (u : Nat) :
    ns * 65536 + frac.toNat + 2000 * 65536 ≤ u * 65536 ↔ ns + 2000 + (if frac = 0 then 0 else 1) ≤ u := by
  have hfrac := frac.isLt
  split
  case isTrue h =>
    have hzero : frac.toNat = 0 := congrArg BitVec.toNat h
    omega
  case isFalse h =>
    have hpos : frac.toNat ≠ 0 := fun h0 => h (BitVec.eq_of_toNat_eq h0)
    omega

/-- The reach of a command accepted now (R48). -/
def MDie.reach (d : MDie) (per : Nat) : Nat := ceilTick per (d.ns + 2000 + (if d.time.frac = 0 then 0 else 1))

theorem MDie.effectTick_unstamped (d : MDie) (per : Nat) (p : Pkt) :
    d.effectTick false per { p with stamp := none } = (d.reach per, false) := rfl

/-- For a packet row the reach is the tick in progress (log 40). -/
theorem MDie.effectTick_unstamped_now (d : MDie) (per : Nat) (p : Pkt) :
    d.effectTick true per { p with stamp := none } = (d.ns / per * per, false) := rfl

/-- The moment a stamp names, in ns (R47). -/
def stampNs (b : StampBlock) : Nat := b.secs.toNat * 1000000000 + b.nanos.toNat

/-- A stamped command is late where its stamp lies before the acceptance, or the tick of its stamp before the reach (R49). -/
theorem MDie.effectTick_late {d : MDie} {per : Nat} (p : Pkt) {b : StampBlock}
    (h : stampNs b * 65536 < d.ns * 65536 + d.time.frac.toNat ∨ ceilTick per (stampNs b) < d.reach per) :
    d.effectTick false per { p with stamp := some b } = (d.reach per, true) :=
  if_pos (h.imp_left decide_eq_true)

/-- Otherwise the tick of its stamp is kept (R48). -/
theorem MDie.effectTick_kept {d : MDie} {per : Nat} (p : Pkt) {b : StampBlock}
    (hahead : d.ns * 65536 + d.time.frac.toNat ≤ stampNs b * 65536) (hkept : d.reach per ≤ ceilTick per (stampNs b)) :
    d.effectTick false per { p with stamp := some b } = (ceilTick per (stampNs b), false) :=
  if_neg (not_or.2 ⟨fun h => Nat.not_lt.2 hahead (of_decide_eq_true h), Nat.not_lt.2 hkept⟩)

theorem MDie.reach_isFirst (d : MDie) {per : Nat} (hper : 0 < per) :
    let A := d.ns * 65536 + d.time.frac.toNat
    d.reach per % per = 0 ∧ A + 2000 * 65536 ≤ d.reach per * 65536
      ∧ ∀ t, t % per = 0 → A + 2000 * 65536 ≤ t * 65536 → d.reach per ≤ t := by
  have after (u : Nat) := two_us_after_le_iff d.ns d.time.frac u
  exact ⟨ceilTick_mod per _, (after _).2 (le_ceilTick hper _), fun t ht h => ceilTick_le_of_tick hper _ ht ((after t).1 h)⟩

/-- Settles O9: `reach_isFirst` is the tick of an unstamped command; `effectTick_late` and `effectTick_kept` are the two ways of a stamped one,
whose own tick `ceilTick` lies less than a period after the stamp. -/
theorem tickOfEffect : Obligations.TickOfEffect := by
  intro d per p hper A reach
  have hreach : reach = d.reach per := congrArg Prod.fst (d.effectTick_unstamped per p)
  refine ⟨?first, congrArg Prod.snd (d.effectTick_unstamped per p), ?now, ?stamped⟩
  case first =>
    rw [hreach]
    exact d.reach_isFirst hper
  case now =>
    rw [d.effectTick_unstamped_now per p]
    exact ⟨rfl, Nat.mul_mod_left _ _, Nat.div_mul_le_self _ _, Nat.lt_div_mul_add hper⟩
  case stamped =>
    intro b S e
    have hlo : S ≤ ceilTick per S := le_ceilTick hper S
    have hhi : ceilTick per S < S + per := ceilTick_lt hper S
    rw [hreach]
    refine ⟨fun hpast => MDie.effectTick_late p (.inl hpast), fun hbefore => MDie.effectTick_late p (.inr (Nat.lt_of_lt_of_le hhi hbefore)),
      fun hahead hkept => ?_⟩
    have he : e = (ceilTick per S, false) := MDie.effectTick_kept p hahead (Nat.le_trans hkept hlo)
    rw [he]
    exact ⟨rfl, ceilTick_mod per S, hlo, hhi⟩

/-! Commands accepted for a tick ahead (R48, R49, R53). -/

/-- An accepted packet whose tick lies ahead takes an action slot. -/
theorem exec_row_of_ahead {op : Op} {p : Pkt} {s : State} (h : Accepts op p s)
    (hahead : (packetDie op p s).ns < (packetAction op p s).effect) :
    exec (op.row p) s = .next (s.after ((packetDie op p s).queued true op p (packetReply op p s))) := by
  obtain ⟨harr, hreach, htask, hgood, hslot, hheld⟩ := h
  have hheld' : (packetDie op p s).queueHeld (replyTo op.code p (packetGot op p s).2) = false := hheld
  have hahead' : ¬ ((packetDie op p s).takeTick true op p).1 ≤ ((packetDie op p s).noted op p).ns := by
    rw [MDie.noted_ns]
    exact Nat.not_le.2 hahead
  refine exec_row_of_done harr ((MDie.take_of_reaches true _ hreach).trans ((MDie.takeOwn_of_good htask hgood).trans ?_))
  rw [hslot, hheld']
  show Taken.done (MDie.enlist _ _ _ _ _ _ _ _ _) = _
  unfold MDie.enlist
  dsimp only
  rw [if_neg fun hnow => hahead' hnow.2, MDie.ownPkt_stamp]
  rfl

/-- `x` is `d` but for what a reply to a host of this die writes: queues and registers of the Ringmaster, the SRAM, the outputs. The
accepted commands and the open challenge are the same. -/
def MDie.RepliedFrom (x d : MDie) : Prop :=
  ∃ rm mem out, x = { d with rm := rm, mem := mem, out := out }
    ∧ rm.actions = d.rm.actions ∧ rm.nextSeq = d.rm.nextSeq ∧ mem.challenge = d.mem.challenge

namespace MDie.RepliedFrom

theorem refl (d : MDie) : d.RepliedFrom d := ⟨d.rm, d.mem, d.out, rfl, rfl, rfl, rfl⟩

theorem trans {x y d : MDie} (hy : y.RepliedFrom x) (hx : x.RepliedFrom d) : y.RepliedFrom d := by
  obtain ⟨rm, mem, out, rfl, hact, hseq, hch⟩ := hx
  obtain ⟨rm', mem', out', rfl, hact', hseq', hch'⟩ := hy
  exact ⟨rm', mem', out', rfl, hact'.trans hact, hseq'.trans hseq, hch'.trans hch⟩

section Unchanged

variable {x d : MDie} (h : x.RepliedFrom d)

include h

theorem slots : x.slots = d.slots := by
  obtain ⟨rm, mem, out, rfl, _⟩ := h
  rfl

theorem fab : x.fab = d.fab := by
  obtain ⟨rm, mem, out, rfl, _⟩ := h
  rfl

theorem dieIndex : x.dieIndex = d.dieIndex := by
  obtain ⟨rm, mem, out, rfl, _⟩ := h
  rfl

end Unchanged

theorem emit (d : MDie) (o : Output) : (d.emit o).RepliedFrom d := ⟨d.rm, d.mem, _, rfl, rfl, rfl, rfl⟩

theorem setQueue (d : MDie) (k : Nat) (q : QueueRt) : (d.setQueue k q).RepliedFrom d := ⟨_, d.mem, d.out, rfl, rfl, rfl, rfl⟩

theorem modFlight (d : MDie) (rt : ReplyTo) (f : Flight → Flight) : (d.modFlight rt f).RepliedFrom d := by
  unfold MDie.modFlight
  split
  · dsimp only
    split
    · exact setQueue d _ _
    · exact refl d
  · exact refl d

theorem hostWrite (d : MDie) (port : HostPort) (addr : Nat) (b : List Byte) : (d.hostWrite port addr b).RepliedFrom d := by
  cases port with
  | pcie => exact emit d _
  | qspi => exact ⟨d.rm, _, d.out, rfl, rfl, rfl, rfl⟩

theorem queueIndex (d : MDie) (port : HostPort) (key : Nat) : (d.queueIndex port key).RepliedFrom d := by
  unfold MDie.queueIndex
  split
  · exact hostWrite d _ _ _
  · exact refl d

theorem ringMessage (d : MDie) (port : HostPort) (vec : U32) (outstanding : Bool) :
    (d.ringMessage port vec outstanding).1.RepliedFrom d := by
  unfold MDie.ringMessage
  split
  · exact refl d
  · cases port with
    | qspi => exact refl d
    | pcie =>
      dsimp only
      split
      · exact ⟨_, d.mem, d.out, rfl, rfl, rfl, rfl⟩
      · exact emit d _

/-- A record, its queue, the index words of the queue, and the message of its ring. -/
theorem recordWritten (d : MDie) (port : HostPort) (key addr : Nat) (rec : List Byte) (q : QueueRt) (vec : U32) (outstanding : Bool) :
    ((((d.hostWrite port addr rec).setQueue key q).queueIndex port key).ringMessage port vec outstanding).1.RepliedFrom d :=
  (ringMessage _ _ _ _).trans ((queueIndex _ _ _).trans ((setQueue _ _ _).trans (hostWrite d _ _ _)))

theorem replyRecord (d : MDie) (port : HostPort) (key : Nat) (rec : List Byte) : (d.replyRecord port key rec).RepliedFrom d := by
  unfold MDie.replyRecord
  split
  case h_1 =>
    dsimp only
    split
    · exact (setQueue _ _ _).trans (recordWritten d _ _ _ _ _ _ _)
    · exact recordWritten d _ _ _ _ _ _ _
  case h_2 => exact refl d

/-- The reply to a host of this lead die. -/
theorem reply {d : MDie} {rt : ReplyTo} (hhost : (hostOf rt.client).isSome = true) (hlead : d.dieIndex = 0) (st : Status) (res : Result)
    (ns : Nat) : (d.reply rt st res ns).RepliedFrom d := by
  obtain ⟨port, hport⟩ := Option.isSome_iff_exists.1 hhost
  unfold MDie.reply
  dsimp only
  generalize he : (if replyDue rt st = true then d.emit (.reply rt.client rt.origin rt.queue (replyBytes rt st res ns)) else d) = e
  have hemit : e.RepliedFrom d := by
    rw [← he]
    split
    · exact emit d _
    · exact refl d
  simp only [hport, hemit.dieIndex.trans hlead, ne_eq, not_true_eq_false, if_false]
  split
  · exact (replyRecord e _ _ _).trans hemit
  · exact hemit

end MDie.RepliedFrom

/-- A host is a client of this package. -/
theorem isRemoteClient_of_host {client : U16} (h : (hostOf client).isSome = true) : isRemoteClient client = false := by
  unfold hostOf at h
  split at h
  case isTrue hp => exact hp ▸ rfl
  case isFalse =>
    split at h
    case isTrue hq => exact hq ▸ rfl
    case isFalse => cases h

theorem MDie.returnPlace_of_host (d : MDie) {rt : ReplyTo} (h : (hostOf rt.client).isSome = true) : d.returnPlace rt = d := by
  simp only [MDie.returnPlace, isRemoteClient_of_host h, Bool.false_eq_true, if_false]

theorem MDie.find_congr {d x : MDie} (hslots : x.slots = d.slots) (hfab : x.fab = d.fab) (h : U32) : x.find h = d.find h := by
  unfold MDie.find MDie.isOwn
  rw [hslots, hfab]

/-- A command whose target is no axis, link or path enters no plan (R202). -/
theorem MDie.planned_of_noMotion {d : MDie} {a : Action}
    (h : ∀ n o, d.find a.pkt.target = some (n, o) → o.cls ≠ .axis ∧ o.cls ≠ .gear ∧ o.cls ≠ .path) : d.planned a = d := by
  unfold MDie.planned
  dsimp only
  split
  case h_1 => rfl
  case h_2 n o hf =>
    obtain ⟨haxis, hgear, hpath⟩ := h n o hf
    cases hd : o.data with
    | axis x => exact absurd (congrArg ObjData.cls hd) haxis
    | gear x => exact absurd (congrArg ObjData.cls hd) hgear
    | path x => exact absurd (congrArg ObjData.cls hd) hpath
    | _ => rfl

/-- Opcodes that change something at their acceptance (R117, R475, R529, R535, R568). -/
def notedAtAcceptance : List Op := [.canTx, .canFiltSwitch, .lcChallenge, .lcAdvance, .fabricCommit, .taskCancel, .taskCancelAll]

/-- Of the opcodes that a row treats apart, a reset and a sync alone leave their acceptance without a note. -/
theorem MDie.acceptNote_of_not_noted (d : MDie) {a : Action} (h : a.op ∉ notedAtAcceptance) : d.acceptNote a = (d, none) := by
  by_cases hacts : a.op ∈ actsAtAcceptance
  · rcases List.mem_cons.1 hacts with hreset | hrest
    · simp only [MDie.acceptNote, hreset]
    · rcases List.mem_cons.1 hrest with hsync | hnoted
      · simp only [MDie.acceptNote, hsync]
      · exact absurd hnoted h
  · exact d.acceptNote_of_not_mem hacts

/-- The die once a command accepted for a tick ahead has its first reply, or is known to be answered at its tick (R74, R83). -/
def MDie.answeredAhead (d : MDie) (a : Action) (res : Result) : MDie :=
  if a.late then d.settled a.rt else (d.reply a.rt (if a.okLate then .okLate else .ok) res a.effect).release2 a.rt

theorem MDie.answeredAhead_repliedFrom {d : MDie} {a : Action} (res : Result) (hhost : (hostOf a.rt.client).isSome = true)
    (hlead : d.dieIndex = 0) : (d.answeredAhead a res).RepliedFrom d := by
  unfold MDie.answeredAhead
  split
  · exact .modFlight d _ _
  · exact (MDie.RepliedFrom.modFlight _ _ _).trans (.reply hhost hlead _ res a.effect)

/-- A host's command that waits for its tick has been answered, and is among the accepted ones; nothing else of it happens (R53). -/
theorem MDie.enqueue_of_quiet {d : MDie} {a : Action} (res : Result)
    (hmotion : ∀ n o, d.find a.pkt.target = some (n, o) → o.cls ≠ .axis ∧ o.cls ≠ .gear ∧ o.cls ≠ .path) (hslot : a.newSlot = none)
    (hop : a.op ∉ notedAtAcceptance) (hhost : (hostOf a.rt.client).isSome = true) (hlead : d.dieIndex = 0) :
    let x := d.answeredAhead a res
    d.enqueue a res = { x with rm := { x.rm with actions := x.rm.actions ++ [a], nextSeq := x.rm.nextSeq + 1 } } := by
  intro x
  have henq : d.enqueue a res =
      (({ x with rm := { x.rm with actions := x.rm.actions ++ [a], nextSeq := x.rm.nextSeq + 1 } } : MDie).planned a).returnPlace a.rt := by
    simp only [MDie.enqueue, d.acceptNote_of_not_noted hop, hslot, Option.getD_none]
    rfl
  have hx : x.RepliedFrom d := MDie.answeredAhead_repliedFrom res hhost hlead
  rw [henq, MDie.returnPlace_of_host _ hhost]
  exact MDie.planned_of_noMotion fun n o hf => hmotion n o ((MDie.find_congr hx.slots hx.fab _).symm.trans hf)

/-- Settles O5: an accepted packet runs in its row (`exec_row_of_runsNow`) or waits for its tick (`exec_row_of_ahead`), and what waits has
changed nothing but the list of accepted commands and what its reply writes (`enqueue_of_quiet`). -/
theorem acceptedPacketRuns : Obligations.AcceptedPacketRuns := by
  refine ⟨fun op p s h => ⟨exec_row_of_runsNow, exec_row_of_runsNow_done, exec_row_of_ahead h⟩, ?_⟩
  intro d a res hmotion hslot hop hhost hlead
  obtain ⟨rm, mem, out, hx, hact, hseq, hch⟩ := MDie.answeredAhead_repliedFrom (a := a) res hhost hlead
  dsimp only
  rw [MDie.enqueue_of_quiet res hmotion hslot hop hhost hlead, hx]
  exact ⟨congrArg (· ++ [a]) hact, congrArg (· + 1) hseq, rfl, rfl, rfl, rfl, rfl, hch, rfl⟩

/-! The Planner at a class 0 tick (R54, R184, R224, R261). -/

theorem exec_ss1WireChangeSeen_of_running {s : State} (h : s.md.boot.inReset = false) :
    exec .ss1WireChangeSeen s = .next (s.after s.md.start.ss1Row) := onDie_of_running s _ h

theorem exec_predLimitReached_of_running (n : Nat) {s : State} (h : s.md.boot.inReset = false) :
    exec (.predLimitReached n) s = .next (s.after (s.md.start.predLimit n)) := onDie_of_running s _ h

theorem exec_lclkPredLimit_of_running (n : Nat) {s : State} (h : s.md.boot.inReset = false) :
    exec (.lclkPredLimit n) s = .next (s.after (s.md.start.lclkPredLimit n)) := onDie_of_running s _ h

section Wires

variable {d : MDie} {t : Nat} {new old : List (Nat × Nat)} {x : Nat × Nat}

/-- The latest level that is 1 µs old is seen, and what came before it is forgotten. -/
theorem MDie.seeSs1_of_old (hw : d.ss1Wire = new ++ x :: old) (hnew : ∀ y ∈ new, t < y.2 + 1000) (hold : x.2 + 1000 ≤ t) :
    d.seeSs1 t = { d with ss1Seen := x.1, ss1Wire := new ++ [x] } := by
  have hfind : d.ss1Wire.find? (fun x => decide (x.2 + 1000 ≤ t)) = some x :=
    hw ▸ List.find?_eq_some_iff_append.2 ⟨decide_eq_true hold, new, old, rfl, fun y hy => by simpa using hnew y hy⟩
  have htake : d.ss1Wire.takeWhile (fun y => decide (t < y.2 + 1000)) = new := by
    rw [hw, List.takeWhile_append_of_pos fun y hy => decide_eq_true (hnew y hy),
      List.takeWhile_cons_of_neg (by simpa using hold), List.append_nil]
  simp only [MDie.seeSs1, hfind, htake]

theorem MDie.seeSs1_of_young (hw : ∀ y ∈ d.ss1Wire, t < y.2 + 1000) : d.seeSs1 t = d := by
  have hfind : d.ss1Wire.find? (fun x => decide (x.2 + 1000 ≤ t)) = none :=
    List.find?_eq_none.2 fun y hy => by simpa using hw y hy
  simp only [MDie.seeSs1, hfind]

end Wires

theorem MDie.predLimit_of_over {d : MDie} {n : Nat} {o : Obj} {a : Axis} {h : U32} (ha : d.axis? n = some (o, a))
    (hs : d.sourceOf n a = some h) (hr : d.isRemote h = true) (hl : o.life = .enabled) (hover : o.params.u Par.axisPredLimit < a.ra.predRun) :
    d.predLimit n = d.axisFault n (faultEv Evt.streamLost d.tick (d32 h.toNat ++ d16 a.ra.predRun)) (d.tickOf n) := by
  simp only [MDie.predLimit, ha, hs]
  exact if_pos ⟨hl, hr, hover⟩

theorem MDie.lclkPredLimit_of_over {d : MDie} {n : Nat} {o : Obj} {l : Lclk} (hc : d.lclk? n = some (o, l)) (hl : o.life = .enabled)
    (hrun : 0 < l.predRun) (hover : o.params.u Par.lclkPredLimit ≤ l.predRun) : d.lclkPredLimit n = d.lclkLost n d.ns l.predRun := by
  simp only [MDie.lclkPredLimit, hc]
  exact if_pos ⟨hl, hrun, hover⟩

/-- Settles O30: the row of the SS1 wires is `ss1Row`, in which `seeSs1` takes the latest level that is old enough; a run beyond its limit
loses the stream. -/
theorem plannerConditions : Obligations.PlannerConditions := by
  refine ⟨fun s hrun => ⟨exec_ss1WireChangeSeen_of_running hrun, fun d t new old x => ⟨MDie.seeSs1_of_old, MDie.seeSs1_of_young⟩⟩,
    fun s n hrun => ⟨?axis, ?lclk⟩⟩
  case axis =>
    intro o a h ha hs hr hl hover
    rw [exec_predLimitReached_of_running n hrun, MDie.predLimit_of_over (d := s.md.start) ha hs hr hl hover]
    rfl
  case lclk =>
    intro o l hc hl hpos hover
    rw [exec_lclkPredLimit_of_running n hrun, MDie.lclkPredLimit_of_over (d := s.md.start) hc hl hpos hover]
    rfl

end Sys2Proof.Machine
end

section
/-! PROOFS. Packets as bytes (R66 … R68, R102, R103): what the encoder writes is what the decoder reads. -/

namespace Sys2Proof.Machine

open Sys2Proof

/-! Little-endian fields in a run of bytes (R3). -/

@[simp] theorem leBytes_length (n v : Nat) : (leBytes n v).length = n := by
  induction n generalizing v with
  | zero => rfl
  | succ n ih => simp only [leBytes, List.length_cons, ih]

theorem leNat_leBytes (n v : Nat) : leNat (leBytes n v) = v % 256 ^ n := by
  induction n generalizing v with
  | zero => simp only [leBytes, leNat, Nat.pow_zero, Nat.mod_one]
  | succ n ih =>
    rw [leBytes, leNat, ih, BitVec.toNat_ofNat, Nat.pow_succ' (m := 256)]
    exact (Nat.mod_mul (a := 256)).symm

/-- A field behind other bytes lies as much further on. -/
theorem rdU_append_right (a b : List Byte) (off n : Nat) : rdU (a ++ b) (a.length + off) n = rdU b off n := by
  rw [rdU, rdU, List.drop_length_add_append]

/-- A field that a run of bytes begins with. -/
theorem rdU_leBytes_append (n v : Nat) (b : List Byte) : rdU (leBytes n v ++ b) 0 n = v % 256 ^ n := by
  rw [rdU, List.drop_zero, List.take_left' (leBytes_length n v), leNat_leBytes]

/-- A word that a run of bytes begins with. -/
theorem rdU_word_append {w n : Nat} (hw : 2 ^ w = 256 ^ n) (x : BitVec w) (b : List Byte) :
    rdU (leBytes n x.toNat ++ b) 0 n = x.toNat := by
  rw [rdU_leBytes_append, ← hw, Nat.mod_eq_of_lt x.isLt]

/-- Fields are read past those before them. -/
theorem rdU_leBytes_append_of_le {k off : Nat} (v n : Nat) (b : List Byte) (h : k ≤ off) :
    rdU (leBytes k v ++ b) off n = rdU b (off - k) n := by
  have hskip := rdU_append_right (leBytes k v) b (off - k) n
  rwa [leBytes_length, Nat.add_sub_cancel' h] at hskip

/-- The bytes of words, one after the other. -/
def wordBytes {w : Nat} (n : Nat) (l : List (BitVec w)) : List Byte := l.flatMap (fun x => leBytes n x.toNat)

@[simp] theorem wordBytes_length {w : Nat} (n : Nat) (l : List (BitVec w)) : (wordBytes n l).length = n * l.length := by
  induction l with
  | nil => rfl
  | cons x l ih =>
    have hl : (wordBytes n l).length = n * l.length := ih
    simp only [wordBytes, List.flatMap_cons, List.length_append, leBytes_length, List.length_cons, Nat.mul_succ] at hl ⊢
    omega

/-- Words of `n` bytes read one after the other are those written. -/
theorem map_rdU_wordBytes {w n : Nat} (hw : 2 ^ w = 256 ^ n) (l : List (BitVec w)) (b : List Byte) :
    (List.range l.length).map (fun i => BitVec.ofNat w (rdU (wordBytes n l ++ b) (n * i) n)) = l := by
  induction l with
  | nil => rfl
  | cons x l ih =>
    have hbytes : wordBytes n (x :: l) ++ b = leBytes n x.toNat ++ (wordBytes n l ++ b) := by
      simp only [wordBytes, List.flatMap_cons, List.append_assoc]
    have hfirst : BitVec.ofNat w (rdU (wordBytes n (x :: l) ++ b) (n * 0) n) = x := by
      rw [hbytes, Nat.mul_zero, rdU_word_append hw, BitVec.ofNat_toNat, BitVec.setWidth_eq]
    have hrest (i : Nat) : rdU (wordBytes n (x :: l) ++ b) (n * (i + 1)) n = rdU (wordBytes n l ++ b) (n * i) n := by
      rw [hbytes, rdU_leBytes_append_of_le _ _ _ (Nat.le_mul_of_pos_right n (Nat.succ_pos i)), Nat.mul_succ, Nat.add_sub_cancel]
    rw [List.length_cons, List.range_succ_eq_map, List.map_cons, List.map_map, hfirst]
    refine congrArg (x :: ·) (Eq.trans (List.map_congr_left fun i _ => ?_) ih)
    exact congrArg (BitVec.ofNat w) (hrest i)

/-! The parts of a packet. -/

/-- The header (R66). -/
def headBytes (p : Pkt) (opcode : Nat) : List Byte :=
  d16 opcode ++ d8 p.len.toNat ++ d8 p.flags.toNat ++ d32 p.seq.toNat ++ d32 p.target.toNat ++ d32 p.reserved.toNat

/-- The task block and its extension units (R102, R103). -/
def taskBytes (t : TaskBlock) : List Byte :=
  d16 t.tag.toNat ++ d8 t.ctrl.toNat ++ d8 t.deps.toNat ++ d8 t.shape.toNat ++ d8 t.next.toNat ++ d16 t.evtCode.toNat
    ++ wordBytes 2 t.succs ++ wordBytes 4 t.ext

/-- The stamp block (R67). -/
def stampBytes (s : StampBlock) : List Byte := d64 s.secs.toNat ++ d32 s.nanos.toNat ++ d32 s.reserved.toNat

/-- The task block at the front of a run of bytes. -/
def readTask (b : List Byte) : TaskBlock :=
  let ext := (b.drop 16).take (8 * rdU b 5 1)
  { tag := BitVec.ofNat 16 (rdU b 0 2), ctrl := BitVec.ofNat 8 (rdU b 2 1), deps := BitVec.ofNat 8 (rdU b 3 1)
    shape := BitVec.ofNat 8 (rdU b 4 1), next := BitVec.ofNat 8 (rdU b 5 1), evtCode := BitVec.ofNat 16 (rdU b 6 2)
    succs := (List.range 4).map (fun i => BitVec.ofNat 16 (rdU b (8 + 2 * i) 2))
    ext := (List.range (ext.length / 4)).map (fun i => BitVec.ofNat 32 (rdU ext (4 * i) 4)) }

/-- The stamp block at the front of a run of bytes. -/
def readStamp (b : List Byte) : StampBlock := ⟨BitVec.ofNat 64 (rdU b 0 8), BitVec.ofNat 32 (rdU b 8 4), BitVec.ofNat 32 (rdU b 12 4)⟩

theorem pktEncode_eq (p : Pkt) (opcode : Nat) :
    pktEncode p opcode = headBytes p opcode ++ (p.task.elim [] taskBytes ++ (p.stamp.elim [] stampBytes ++ p.body)) := by
  simp only [pktEncode, headBytes, List.append_assoc]
  cases p.task <;> cases p.stamp <;> simp only [Option.elim, taskBytes, stampBytes, wordBytes, d16, d32, List.append_assoc]

/-- The blocks that the flags announce are read where the bytes reach for them (R67, R102). -/
theorem pktDecode_eq (client : U16) (origin queue : Nat) (b : List Byte) :
    pktDecode client origin queue b =
      let rest := b.drop 16
      let isTask := bitOf (rdU b 3 1) 1 && decide (16 ≤ rest.length)
      let rest' := if isTask then rest.drop (16 + 8 * rdU rest 5 1) else rest
      let isStamp := bitOf (rdU b 3 1) 2 && decide (16 ≤ rest'.length)
      (rdU b 0 2,
        { client := client, origin := BitVec.ofNat 2 origin, queue := BitVec.ofNat 3 queue, len := BitVec.ofNat 8 (rdU b 2 1)
          flags := BitVec.ofNat 8 (rdU b 3 1), seq := BitVec.ofNat 32 (rdU b 4 4), target := BitVec.ofNat 32 (rdU b 8 4)
          reserved := BitVec.ofNat 32 (rdU b 12 4), task := if isTask then some (readTask rest) else none
          stamp := if isStamp then some (readStamp rest') else none, body := if isStamp then rest'.drop 16 else rest' }) := rfl

/-! Each part is read back. -/

theorem headBytes_length (p : Pkt) (opcode : Nat) : (headBytes p opcode).length = 16 := by
  simp only [headBytes, d8, d16, d32, List.length_append, leBytes_length]

/-- The fields of the header, each at its place (R66). -/
theorem rdU_headBytes (p : Pkt) {opcode : Nat} (h : opcode < 65536) (b : List Byte) :
    rdU (headBytes p opcode ++ b) 0 2 = opcode ∧ rdU (headBytes p opcode ++ b) 2 1 = p.len.toNat
      ∧ rdU (headBytes p opcode ++ b) 3 1 = p.flags.toNat ∧ rdU (headBytes p opcode ++ b) 4 4 = p.seq.toNat
      ∧ rdU (headBytes p opcode ++ b) 8 4 = p.target.toNat ∧ rdU (headBytes p opcode ++ b) 12 4 = p.reserved.toNat := by
  have hop : rdU (headBytes p opcode ++ b) 0 2 = opcode := by
    simp only [headBytes, d16, List.append_assoc, rdU_leBytes_append]
    exact Nat.mod_eq_of_lt h
  refine ⟨hop, ?_⟩
  simp [headBytes, d16, d8, d32, rdU_word_append, rdU_leBytes_append_of_le]

theorem taskBytes_length {t : TaskBlock} (hs : t.succs.length = 4) (he : t.ext.length = 2 * t.next.toNat) :
    (taskBytes t).length = 16 + 8 * t.next.toNat := by
  simp only [taskBytes, d8, d16, List.length_append, leBytes_length, wordBytes_length]
  omega

/-- The fields of a task block of one word each (R102). -/
theorem rdU_taskBytes (t : TaskBlock) (b : List Byte) :
    rdU (taskBytes t ++ b) 0 2 = t.tag.toNat ∧ rdU (taskBytes t ++ b) 2 1 = t.ctrl.toNat ∧ rdU (taskBytes t ++ b) 3 1 = t.deps.toNat
      ∧ rdU (taskBytes t ++ b) 4 1 = t.shape.toNat ∧ rdU (taskBytes t ++ b) 5 1 = t.next.toNat
      ∧ rdU (taskBytes t ++ b) 6 2 = t.evtCode.toNat := by
  simp [taskBytes, d16, d8, rdU_word_append, rdU_leBytes_append_of_le]

/-- Its successors. -/
theorem rdU_taskBytes_succ (t : TaskBlock) (b : List Byte) (i : Nat) :
    rdU (taskBytes t ++ b) (8 + 2 * i) 2 = rdU (wordBytes 2 t.succs ++ (wordBytes 4 t.ext ++ b)) (2 * i) 2 := by
  rw [taskBytes, List.append_assoc, List.append_assoc]
  exact rdU_append_right _ _ (2 * i) 2

/-- Its extension units lie behind its 16 bytes, as far as `NEXT` counts them (R103). -/
theorem taskBytes_ext {t : TaskBlock} (hs : t.succs.length = 4) (he : t.ext.length = 2 * t.next.toNat) (b : List Byte) :
    ((taskBytes t ++ b).drop 16).take (8 * t.next.toNat) = wordBytes 4 t.ext := by
  have hlen : (wordBytes 4 t.ext).length = 8 * t.next.toNat := by
    rw [wordBytes_length]
    omega
  rw [taskBytes, List.append_assoc, List.drop_left', List.take_left' hlen]
  simp only [d8, d16, List.length_append, leBytes_length, wordBytes_length, hs]

theorem readTask_taskBytes {t : TaskBlock} (hs : t.succs.length = 4) (he : t.ext.length = 2 * t.next.toNat) (b : List Byte) :
    readTask (taskBytes t ++ b) = t := by
  obtain ⟨htag, hctrl, hdeps, hshape, hnext, hevt⟩ := rdU_taskBytes t b
  have hsuccs : (List.range 4).map (fun i => BitVec.ofNat 16 (rdU (taskBytes t ++ b) (8 + 2 * i) 2)) = t.succs := by
    simp only [rdU_taskBytes_succ]
    exact hs ▸ map_rdU_wordBytes rfl t.succs _
  have hext := map_rdU_wordBytes (n := 4) rfl t.ext []
  rw [List.append_nil] at hext
  simp only [readTask, hnext, taskBytes_ext hs he, wordBytes_length, Nat.mul_div_cancel_left _ (Nat.succ_pos 3), htag, hctrl, hdeps, hshape,
    hevt, hsuccs, hext, BitVec.ofNat_toNat, BitVec.setWidth_eq]

theorem stampBytes_length (s : StampBlock) : (stampBytes s).length = 16 := by
  simp only [stampBytes, d32, d64, List.length_append, leBytes_length]

theorem readStamp_stampBytes (s : StampBlock) (b : List Byte) : readStamp (stampBytes s ++ b) = s := by
  simp [readStamp, stampBytes, d32, d64, rdU_word_append, rdU_leBytes_append_of_le]

/-- A task block is read where there is one, and what follows it comes next. -/
theorem readTask_of_block {o : Option TaskBlock} (h : ∀ t, o = some t → t.succs.length = 4 ∧ t.ext.length = 2 * t.next.toNat) (b : List Byte) :
    let rest := o.elim [] taskBytes ++ b
    let isTask := o.isSome && decide (16 ≤ rest.length)
    (if isTask then some (readTask rest) else none) = o ∧ (if isTask then rest.drop (16 + 8 * rdU rest 5 1) else rest) = b := by
  cases o with
  | none => exact ⟨rfl, rfl⟩
  | some t =>
    obtain ⟨hs, he⟩ := h t rfl
    have hlen := taskBytes_length hs he
    obtain ⟨-, -, -, -, hnext, -⟩ := rdU_taskBytes t b
    have hroom : 16 ≤ (taskBytes t ++ b).length := by
      rw [List.length_append]
      omega
    simp only [Option.elim, Option.isSome_some, hroom, decide_true, Bool.and_self, if_true, readTask_taskBytes hs he, hnext,
      List.drop_left' hlen, and_self]

/-- So is a stamp block. -/
theorem readStamp_of_block (o : Option StampBlock) (b : List Byte) :
    let rest := o.elim [] stampBytes ++ b
    let isStamp := o.isSome && decide (16 ≤ rest.length)
    (if isStamp then some (readStamp rest) else none) = o ∧ (if isStamp then rest.drop 16 else rest) = b := by
  cases o with
  | none => exact ⟨rfl, rfl⟩
  | some s =>
    have hroom : 16 ≤ (stampBytes s ++ b).length := by
      rw [List.length_append, stampBytes_length]
      omega
    simp only [Option.elim, Option.isSome_some, hroom, decide_true, Bool.and_self, if_true, readStamp_stampBytes,
      List.drop_left' (stampBytes_length s), and_self]

theorem Op.code_lt (op : Op) : op.code < 65536 := by
  cases op <;> decide

/-- Settles O10: the header, the task block and the stamp block are read back one after the other, and what is left is the body. -/
theorem packetBytesReadBack : Obligations.PacketBytesReadBack := by
  intro op p htask hstamp hblock
  obtain ⟨hop, hlen, hflags, hseq, htarget, hres⟩ :=
    rdU_headBytes p op.code_lt (p.task.elim [] taskBytes ++ (p.stamp.elim [] stampBytes ++ p.body))
  obtain ⟨hreadTask, hpastTask⟩ := readTask_of_block hblock (p.stamp.elim [] stampBytes ++ p.body)
  obtain ⟨hreadStamp, hpastStamp⟩ := readStamp_of_block p.stamp p.body
  have hflagTask : bitOf p.flags.toNat 1 = p.task.isSome := htask.symm
  have hflagStamp : bitOf p.flags.toNat 2 = p.stamp.isSome := hstamp.symm
  rw [pktEncode_eq, pktDecode_eq]
  simp only [hop, hlen, hflags, hseq, htarget, hres, List.drop_left' (headBytes_length p op.code), hflagTask, hflagStamp, hreadTask, hpastTask,
    hreadStamp, hpastStamp, BitVec.ofNat_toNat, BitVec.setWidth_eq]

end Sys2Proof.Machine
end

section
/-! PROOFS. Reply records and when they are written, doorbells of the command and reply rings, event-ring registers. -/

namespace Sys2Proof.Machine

open Sys2Proof

/-! Reply records (R73, R75). -/

theorem replyDue_iff (rt : ReplyTo) (st : Status) : replyDue rt st = true ↔ rt.ackReq = true ∨ 0x10 ≤ st.code := by
  simp only [replyDue, Bool.or_eq_true, decide_eq_true_eq]

/-- The codes below 0x0010 are those of the statuses that refuse nothing (R71). -/
theorem Status.code_lt_iff (st : Status) : st = .ok ∨ st = .okLate ∨ st = .queued ↔ st.code < 0x10 := by
  cases st <;> decide

/-- A reply to a host of this lead die: a record where it is due, and into the ring of a packet fetched from there. -/
theorem MDie.reply_of_host {d : MDie} {rt : ReplyTo} {port : HostPort} (hp : hostOf rt.client = some port) (h0 : d.dieIndex = 0) (st : Status)
    (r : Result) (ns : Nat) :
    d.reply rt st r ns =
      let rec' := replyBytes rt st r ns
      let e := d.emit (.reply rt.client rt.origin rt.queue rec')
      if replyDue rt st = true then (if rt.pid.isSome = true then e.replyRecord port (queueKey port rt.queue) rec' else e) else d := by
  by_cases hdue : replyDue rt st = true <;>
    simp only [MDie.reply, hp, hdue, h0, MDie.emit_dieIndex, ne_eq, not_true_eq_false, if_false, if_true, Bool.true_and, Bool.false_and,
      Bool.false_eq_true]

section Outputs

/-! What has left the die stays out while a record is written. -/

variable (d : MDie) (port : HostPort)

theorem MDie.out_subset_hostWrite (addr : Nat) (b : List Byte) : d.out ⊆ (d.hostWrite port addr b).out := by
  cases port with
  | pcie => exact List.subset_append_left d.out _
  | qspi => exact List.Subset.refl _

theorem MDie.out_subset_queueIndex (key : Nat) : d.out ⊆ (d.queueIndex port key).out := by
  unfold MDie.queueIndex
  split
  · exact d.out_subset_hostWrite port _ _
  · exact List.Subset.refl _

theorem MDie.out_subset_ringMessage (vec : U32) (outstanding : Bool) : d.out ⊆ (d.ringMessage port vec outstanding).1.out := by
  unfold MDie.ringMessage
  split
  · exact List.Subset.refl _
  · cases port with
    | qspi => exact List.Subset.refl _
    | pcie =>
      dsimp only
      split
      · exact List.Subset.refl _
      · exact List.subset_append_left d.out _

theorem MDie.out_subset_replyRecord (key : Nat) (rec : List Byte) : d.out ⊆ (d.replyRecord port key rec).out := by
  have hwritten (addr : Nat) (q : QueueRt) (vec : U32) (m : Bool) :
      d.out ⊆ ((((d.hostWrite port addr rec).setQueue key q).queueIndex port key).ringMessage port vec m).1.out :=
    List.Subset.trans (d.out_subset_hostWrite port addr rec)
      (List.Subset.trans (((d.hostWrite port addr rec).setQueue key q).out_subset_queueIndex port key)
        (MDie.out_subset_ringMessage _ port vec m))
  unfold MDie.replyRecord
  split
  case h_1 =>
    dsimp only
    split
    · exact hwritten _ _ _ _
    · exact hwritten _ _ _ _
  case h_2 => exact List.Subset.refl _

end Outputs

/-- Settles O11: a reply to a host writes its record exactly where `replyDue` says so (`reply_of_host`), and what follows the record takes
nothing back. -/
theorem replyRecordOnlyWhenDue : Obligations.ReplyRecordOnlyWhenDue := by
  intro d rt st r ns
  refine ⟨replyDue_iff rt st, Status.code_lt_iff st, fun h0 hhost hdue => ?notDue, fun h0 hhost hdue => ?due⟩
  case notDue =>
    obtain ⟨port, hp⟩ := Option.isSome_iff_exists.1 hhost
    simp only [MDie.reply_of_host hp h0, hdue, Bool.false_eq_true, if_false]
  case due =>
    obtain ⟨port, hp⟩ := Option.isSome_iff_exists.1 hhost
    have hemit : .reply rt.client rt.origin rt.queue (replyBytes rt st r ns) ∈
        (d.emit (.reply rt.client rt.origin rt.queue (replyBytes rt st r ns))).out := List.mem_append_right d.out (List.mem_singleton_self _)
    simp only [MDie.reply_of_host hp h0, hdue, if_true]
    split
    · exact MDie.out_subset_replyRecord _ port _ _ hemit
    · exact hemit

/-! Host rows of the lead die (R590, R593). -/

/-- A row of a host port on the lead die that is not in reset is its own effect and the end of the step. -/
theorem onDie_host_of_lead {s : State} (f : MDie → MDie) (h : s.md.boot.inReset = false) (h0 : s.md.dieIndex = 0) :
    onDie s (fun d => d.host f) = .next (s.after (f s.md.start)) := by
  have hlead : s.md.start.host f = f s.md.start := if_pos h0
  rw [onDie_of_running s _ h, hlead]

section Doorbells

variable {d : MDie} {p : HostPort} {q : Nat} {c : QueueCfg} {rt : QueueRt} (hc : d.queueCfg (queueKey p q) = some c)
  (hq : d.queue? (queueKey p q) = some rt) (hopen : d.doorsOpen (queueKey p q) = true)

include hc hq hopen

/-- A command-tail doorbell of an enabled queue that takes doorbells (R62). -/
theorem MDie.cmdTail_of_on (hon : c.on = true) (v : Nat) :
    d.cmdTail p q v =
      if c.units ≤ v then d.queueHalt (queueKey p q) 2 0 else d.setQueue (queueKey p q) { rt with tail := v, partly := false } := by
  simp only [MDie.cmdTail, hc, hq, hopen, hon, Bool.not_true, Bool.false_eq_true, or_self, if_false]

/-- A reply-head doorbell of a queue past CREATED that takes doorbells (R63, R80). -/
theorem MDie.rplHead_of_begun (hbegun : d.queueBegun (queueKey p q) = true) (v : Nat) :
    d.rplHead p q v =
      if c.rplSize ≤ v then d.queueHalt (queueKey p q) 2 0 else d.setQueue (queueKey p q) { rt with rplHead := v, msgOut := false } := by
  simp only [MDie.rplHead, hc, hq, hopen, hbegun, Bool.not_true, Bool.false_eq_true, or_self, if_false]

end Doorbells

/-- The registers of one event ring change. -/
theorem MDie.modRing_of_ring {d : MDie} {p : HostPort} {r : Nat} {e : EvRing} (f : EvRing → EvRing) (he : (d.rm.regs p).evr[r]? = some e) :
    d.modRing p r f = d.setRegs p (fun h => { h with evr := h.evr.set r (f e) }) := by
  simp only [MDie.modRing, MDie.setRegs, listMod, he]

/-- A power of two has its highest bit alone. -/
theorem isPow2_iff (n : Nat) : isPow2 n = true ↔ ∃ k, n = 2 ^ k := by
  simp only [isPow2, Bool.and_eq_true, decide_eq_true_eq]
  constructor
  · rintro ⟨hpos, hand⟩
    refine ⟨n.log2, Decidable.byContradiction fun hne => ?_⟩
    have hlo := Nat.log2_self_le hpos
    have hhi := Nat.lt_log2_self (n := n)
    have htop : n.testBit n.log2 = true := Nat.testBit_of_two_pow_le_and_two_pow_add_one_gt hlo hhi
    have hpred : (n - 1).testBit n.log2 = true := Nat.testBit_of_two_pow_le_and_two_pow_add_one_gt (by omega) (by omega)
    have hboth : (n &&& (n - 1)).testBit n.log2 = true := by rw [Nat.testBit_and, htop, hpred, Bool.and_self]
    rw [hand, Nat.zero_testBit] at hboth
    exact Bool.noConfusion hboth
  · rintro ⟨k, rfl⟩
    exact ⟨Nat.ne_of_gt (Nat.two_pow_pos k), by rw [Nat.and_two_pow_sub_one_eq_mod, Nat.mod_self]⟩

/-- The sizes of an event ring: 0, or a power of two from 32 to 32,768 records (R593). -/
theorem ringSize_legal_iff (v : Nat) :
    v = 0 ∨ (32 ≤ v ∧ v ≤ 32768 ∧ isPow2 v = true) ↔ v = 0 ∨ ∃ k, 5 ≤ k ∧ k ≤ 15 ∧ v = 2 ^ k := by
  refine or_congr_right ⟨?_, ?_⟩
  · rintro ⟨hlo, hhi, hpow⟩
    obtain ⟨k, rfl⟩ := (isPow2_iff v).1 hpow
    exact ⟨k, (Nat.pow_le_pow_iff_right (a := 2) (n := 5) Nat.one_lt_two).1 hlo,
      (Nat.pow_le_pow_iff_right (a := 2) (m := 15) Nat.one_lt_two).1 hhi, rfl⟩
  · rintro ⟨k, hlo, hhi, rfl⟩
    exact ⟨Nat.pow_le_pow_right Nat.two_pos hlo, Nat.pow_le_pow_right Nat.two_pos hhi, (isPow2_iff _).2 ⟨k, rfl⟩⟩

section EventRings

variable {d : MDie} {p : HostPort} {r v : Nat} {e : EvRing}

theorem MDie.evrHead_of_inRing (he : (d.rm.regs p).evr[r]? = some e) (hv : v < e.size) :
    d.evrHead p r v = d.setRegs p (fun h => { h with evr := h.evr.set r { e with head := v, msgOut := false } }) := by
  rw [MDie.evrHead, MDie.modRing_of_ring _ he, if_neg (Nat.not_le.2 hv)]

theorem MDie.evrSize_of_legal (he : (d.rm.regs p).evr[r]? = some e) (hv : v = 0 ∨ ∃ k, 5 ≤ k ∧ k ≤ 15 ∧ v = 2 ^ k) :
    d.evrSize p r v = d.setRegs p (fun h => { h with evr := h.evr.set r { e with size := v, head := 0, tail := 0 } }) := by
  rw [MDie.evrSize, if_pos ((ringSize_legal_iff v).2 hv), MDie.modRing_of_ring _ he]

/-- A size that is none is discarded (log 38). -/
theorem MDie.evrSize_of_illegal (hv : ¬ (v = 0 ∨ ∃ k, 5 ≤ k ∧ k ≤ 15 ∧ v = 2 ^ k)) : d.evrSize p r v = d := by
  rw [MDie.evrSize, if_neg (mt (ringSize_legal_iff v).1 hv)]

end EventRings

/-- Settles O19: each row is that of its register on the lead die; a doorbell halts the queue from the size of its ring on
(`cmdTail_of_on`, `rplHead_of_begun`), and the legal sizes of an event ring are the powers of two of `ringSize_legal_iff`. -/
theorem doorbellsAndRings : Obligations.DoorbellsAndRings := by
  refine ⟨fun s p q v c rt hrun h0 hc hq hopen => ?doorbells, fun s p r v e hrun h0 he => ?rings⟩
  case doorbells =>
    have htail (hon : c.on = true) := MDie.cmdTail_of_on (d := s.md.start) hc hq hopen hon v.toNat
    have hhead (hbegun : s.md.queueBegun (queueKey p q) = true) := MDie.rplHead_of_begun (d := s.md.start) hc hq hopen hbegun v.toNat
    have htailRow : exec (.dbCmdTail p q v) s = .next (s.after (s.md.start.cmdTail p q v.toNat)) := onDie_host_of_lead _ hrun h0
    have hheadRow : exec (.dbRplHead p q v) s = .next (s.after (s.md.start.rplHead p q v.toNat)) := onDie_host_of_lead _ hrun h0
    refine ⟨fun hon (hv : v.toNat < c.units) => ?_, fun hon (hv : c.units ≤ v.toNat) => ?_, fun hbegun hv => ?_, fun hbegun hv => ?_⟩
    · rw [htailRow, htail hon, if_neg (Nat.not_le.2 hv)]
    · rw [htailRow, htail hon, if_pos hv]
    · rw [hheadRow, hhead hbegun, if_neg (Nat.not_le.2 hv)]
    · rw [hheadRow, hhead hbegun, if_pos hv]
  case rings =>
    have hheadRow : exec (.evrHead p r v) s = .next (s.after (s.md.start.evrHead p r v.toNat)) := onDie_host_of_lead _ hrun h0
    have hsizeRow : exec (.evrSize p r v) s = .next (s.after (s.md.start.evrSize p r v.toNat)) := onDie_host_of_lead _ hrun h0
    refine ⟨fun hv => ?_, fun hv => ?_, fun hzero hpow => ?_⟩
    · rw [hheadRow, MDie.evrHead_of_inRing (d := s.md.start) he hv]
    · rw [hsizeRow, MDie.evrSize_of_legal (d := s.md.start) he hv]
    · rw [hsizeRow, MDie.evrSize_of_illegal fun h => h.elim hzero fun ⟨k, hlo, hhi, hk⟩ => hpow k hlo hhi hk]

end Sys2Proof.Machine
end

section
/-! PROOFS. Packets fetched from rings, packets that wait, commands that another node does not answer. -/

namespace Sys2Proof.Machine

open Sys2Proof

/-! A packet accepted for a tick ahead, whichever way it came (R48, R53). -/

/-- A packet that passes its checks, and is no row of its own, takes an action slot. -/
theorem MDie.take_of_accepts {d : MDie} {code : Nat} {op : Op} {p : Pkt} (hcode : code = op.code) (pid : Option Nat)
    (h : d.Accepts false op p) : d.take false code p pid = .done (d.queued false op p (replyTo op.code p pid)) := by
  subst hcode
  obtain ⟨hreach, htask, hgood, hslot, hheld⟩ := h
  have hheld' : d.queueHeld (replyTo op.code p pid) = false := hheld
  refine (MDie.take_of_reaches false pid hreach).trans ((MDie.takeOwn_of_good htask hgood).trans ?_)
  rw [hslot, hheld']
  show Taken.done (MDie.enlist _ _ _ _ _ _ _ _ _) = _
  unfold MDie.enlist
  dsimp only
  rw [if_neg fun hnow => Bool.noConfusion hnow.1, MDie.ownPkt_stamp]
  rfl

/-! Rings (R62, R64, R83, R84, R87). -/

theorem exec_packetFetch_of_running (port : HostPort) (queue : Nat) (r : RingRead) {s : State} (h : s.md.boot.inReset = false) :
    exec (.packetFetch port queue r) s = .next (s.after (s.md.start.packetFetch port queue r)) := onDie_of_running s _ h

section Fetch

variable {d : MDie} {port : HostPort} {queue : Nat} {c : QueueCfg} {q : QueueRt} (hqueue : queue < 8)

include hqueue

/-- Nothing is fetched from a queue whose turn it is not (R84). -/
theorem MDie.packetFetch_of_otherTurn {r : RingRead} (hc : d.queueCfg (queueKey port queue) = some c)
    (hq : d.queue? (queueKey port queue) = some q) (hr : r ≠ .writeError) (hturn : d.turnKey ≠ some (queueKey port queue)) :
    d.packetFetch port queue r = d := by
  simp only [MDie.packetFetch, Nat.mod_eq_of_lt hqueue, hc, hq, hr, and_false, if_false, hturn, ne_eq, not_false_eq_true, if_true]

/-- The bytes of the ring whose turn it is go to the fetch of its head (R62, R65). -/
theorem MDie.packetFetch_of_turn {ring : List Byte} (hc : d.queueCfg (queueKey port queue) = some c)
    (hq : d.queue? (queueKey port queue) = some q) (hturn : d.turnKey = some (queueKey port queue))
    (hring : port = .qspi → ring = d.qspiRing c q) : d.packetFetch port queue (.data ring) = d.fetchBytes port queue c q ring := by
  simp only [MDie.packetFetch, Nat.mod_eq_of_lt hqueue, hc, hq, hturn, reduceCtorEq, and_false, ne_eq, not_true_eq_false, if_false]
  cases port with
  | pcie => rfl
  | qspi => rw [hring rfl]

variable (hc : d.queueCfg (queueKey .pcie queue) = some c) (hq : d.queue? (queueKey .pcie queue) = some q)

include hc hq

/-- A failed read of the ring whose turn it is halts its queue (R87). -/
theorem MDie.packetFetch_of_readError (hturn : d.turnKey = some (queueKey .pcie queue)) :
    d.packetFetch .pcie queue .error = d.queueHalt (queueKey .pcie queue) 2 0 := by
  simp only [MDie.packetFetch, Nat.mod_eq_of_lt hqueue, hc, hq, hturn, reduceCtorEq, and_false, ne_eq, not_true_eq_false, if_false]

/-- A failed write-back halts an open queue that writes replies, whether or not it can fetch (R87). -/
theorem MDie.packetFetch_of_writeError (hrun : q.halted = false) (hopen : d.doorsOpen (queueKey .pcie queue) = true)
    (hw : d.writesReplies (queueKey .pcie queue) = true) :
    d.packetFetch .pcie queue .writeError = d.queueHalt (queueKey .pcie queue) 3 0 := by
  simp only [MDie.packetFetch, Nat.mod_eq_of_lt hqueue, hc, hq, hrun, hopen, hw, and_self, Bool.not_true, Bool.false_eq_true, or_self,
    if_false, if_true]

end Fetch

/-- A field that lies in the part of the bytes that is kept. -/
theorem rdU_take {b : List Byte} {off n m : Nat} (h : off + n ≤ m) : rdU (b.take m) off n = rdU b off n := by
  rw [rdU, rdU, List.drop_take, List.take_take, Nat.min_eq_left (by omega)]

/-- A packet that lies whole at the head of its ring, and that no `FENCE` holds, is fetched and goes to its checks (R62, R64, R83). -/
theorem MDie.fetchBytes_of_whole {d : MDie} {port : HostPort} {queue : Nat} {c : QueueCfg} {q : QueueRt} {ring : List Byte} {len : Nat}
    (hlen : rdU ring 2 1 = len) (hmin : 2 ≤ len) (hmax : len ≤ 128) (hring : 8 * len ≤ ring.length) (havail : 8 * len ≤ c.avail q) :
    let key := queueKey port queue
    let got := pktDecode (clientOf port) 0 queue (ring.take (8 * len))
    let e := d.fetched key got.1 got.2 true
    d.fenced key got.2 = false → d.fetchBytes port queue c q ring = d.orHold (e.1.take false got.1 got.2 e.2) got.1 got.2 none 1 := by
  intro key got e hfence
  have hhave : 8 * len ≤ (ring.take (c.avail q)).length := by
    rw [List.length_take]
    exact Nat.le_min.2 ⟨havail, hring⟩
  have hread : rdU (ring.take (c.avail q)) 2 1 = len := (rdU_take (by omega)).trans hlen
  have hbytes : (ring.take (c.avail q)).take (8 * len) = ring.take (8 * len) := by rw [List.take_take, Nat.min_eq_left havail]
  have h8 : ¬ (ring.take (c.avail q)).length < 8 := by omega
  have hlegal : ¬ (len < 2 ∨ 128 < len) := by omega
  simp only [MDie.fetchBytes, hread, hbytes, h8, hlegal, Nat.not_lt.2 havail, Nat.not_lt.2 hhave, if_false]
  exact if_neg (by rw [hfence]; exact Bool.false_ne_true)

/-- Settles O22: an error halts the queue whatever its head holds; the bytes of the ring whose turn it is go through `fetchBytes`, and
`take_of_accepts` is what becomes of a packet that passes its checks. -/
theorem packetsFetchedFromRings : Obligations.PacketsFetchedFromRings := by
  refine ⟨fun s queue c q hrun hqueue hc hq => ?errors, fun s port queue c q ring b x => ?packets⟩
  case errors =>
    have hkey : queueKey .pcie queue = queue := Nat.zero_add queue
    rw [← hkey] at hc hq
    refine ⟨fun hturn => ?_, fun hgoing hopen hw => ?_, fun b hturn => ?_⟩
    · rw [exec_packetFetch_of_running _ _ _ hrun, MDie.packetFetch_of_readError (d := s.md.start) hqueue hc hq (hkey.symm ▸ hturn), hkey]
    · rw [exec_packetFetch_of_running _ _ _ hrun,
        MDie.packetFetch_of_writeError (d := s.md.start) hqueue hc hq hgoing (hkey.symm ▸ hopen) (hkey.symm ▸ hw), hkey]
    · rw [exec_packetFetch_of_running _ _ _ hrun,
        MDie.packetFetch_of_otherTurn (d := s.md.start) hqueue hc hq RingRead.noConfusion (hkey.symm ▸ hturn)]
  case packets =>
    intro key got hrun hqueue hc hq hturn hring hmin hmax hwhole havail hb hfence d
    subst hb
    have hfetch : exec (.packetFetch port queue (.data ring)) s =
        .next (s.after (s.md.start.orHold (d.1.take false got.1 got.2 d.2) got.1 got.2 none 1)) := by
      rw [exec_packetFetch_of_running _ _ _ hrun, MDie.packetFetch_of_turn (d := s.md.start) hqueue hc hq hturn hring]
      exact congrArg (fun d => Host.Outcome.next (s.after d)) (MDie.fetchBytes_of_whole rfl hmin hmax hwhole havail hfence)
    refine ⟨fun hdone => ?_, fun op hop hacc => ?_⟩
    · rw [hfetch, hdone]
      rfl
    · rw [hfetch, MDie.take_of_accepts hop d.2 hacc]
      rfl

/-! Packets that wait (R64, R83, R85). -/

theorem exec_heldPacketAccept_of_running {s : State} (h : s.md.boot.inReset = false) :
    exec .heldPacketAccept s = .next (s.after s.md.start.acceptHeld) := onDie_of_running s _ h

@[simp] theorem ReplyTo.sameQueue_self (rt : ReplyTo) : rt.sameQueue rt = true := by
  simp only [ReplyTo.sameQueue, beq_self_eq_true, Bool.and_self]

/-- The die without packets that wait. -/
def MDie.noneHeld (d : MDie) : MDie := { d with rm := { d.rm with held := [] } }

section Held

variable {d : MDie} {h : Held} {x : MDie} (hheld : d.rm.held = [h])

include hheld

theorem MDie.acceptHeld_of_single (hx : d.takeHeld h = some x) : d.acceptHeld = x := by
  simp only [MDie.acceptHeld, hheld, List.findSome?_cons, hx]

/-- The one packet that waits, of another node, is dealt with at once. -/
theorem MDie.takeHeld_of_node (hnode : hostOf h.rt.client = none) (hx : d.noneHeld.take false h.rt.opcode.toNat h.pkt none = .done x) :
    d.takeHeld h = some x := by
  unfold MDie.noneHeld at hx
  simp [MDie.takeHeld, hheld, hnode, hx]

/-- The one packet that waits in the ring of a host is fetched and dealt with, once its queue can fetch it and no `FENCE` holds it. -/
theorem MDie.takeHeld_of_host {port : HostPort} {got : MDie × Option Nat} (hhost : hostOf h.rt.client = some port) (hring : h.ring ≠ 0)
    (hgot : d.noneHeld.fetched (queueKey port h.rt.queue) h.rt.opcode.toNat h.pkt (h.ring == 1) = got)
    (hfetch : d.canFetch (queueKey port h.rt.queue) = true) (hfence : d.fenced (queueKey port h.rt.queue) h.pkt = false)
    (hx : got.1.take false h.rt.opcode.toNat h.pkt got.2 = .done x) : d.takeHeld h = some x := by
  unfold MDie.noneHeld at hgot
  simp [MDie.takeHeld, hheld, hhost, hring, hfetch, hfence, hgot, hx]

end Held

theorem MDie.acceptHeld_of_none {d : MDie} (h : d.rm.held = []) : d.acceptHeld = d := by
  simp only [MDie.acceptHeld, h, List.findSome?_nil]

/-! Commands that another node does not answer (R86). -/

theorem exec_cmdTimeoutExpiry_of_running (pid : Nat) {s : State} (h : s.md.boot.inReset = false) :
    exec (.cmdTimeoutExpiry pid) s = .next (s.after (s.md.start.cmdTimeout pid)) := onDie_of_running s _ h

/-- Where the flight of a forwarded command of the queue with this key is answered. -/
def flightReply (key pid : Nat) (f : Flight) : ReplyTo :=
  { client := clientOf (portOfKey key), origin := 0, queue := key % 8, seq := f.seq, opcode := f.opcode, ackReq := f.ack, pid := some pid }

/-- The open flight with this number. -/
def QueueRt.openFlight? (q : QueueRt) (pid : Nat) : Option Flight := q.flights.find? (fun f => decide (f.pid = pid) && !f.settled)

/-- What the timeout of a flight does for one queue. -/
def MDie.timeoutOf (pid : Nat) (d : MDie) (x : Nat × QueueRt) : MDie :=
  match x.2.openFlight? pid with
  | none => d
  | some f => match f.fwd with
    | none => d
    | some (_, due) => match d.passUp due with
      | none => d
      | some d => ((d.reply (flightReply x.1 pid f) .timeout noResult d.ns).release1 (flightReply x.1 pid f)).release2 (flightReply x.1 pid f)

theorem MDie.cmdTimeout_eq (d : MDie) (pid : Nat) : d.cmdTimeout pid = d.rm.queues.foldl (MDie.timeoutOf pid) d := rfl

/-- Queues without the flight are left alone. -/
theorem foldl_timeoutOf_of_none {pid : Nat} {l : List (Nat × QueueRt)} (h : ∀ x ∈ l, x.2.openFlight? pid = none) (d : MDie) :
    l.foldl (MDie.timeoutOf pid) d = d := by
  induction l with
  | nil => rfl
  | cons x l ih =>
    have hx : MDie.timeoutOf pid d x = d := by simp only [MDie.timeoutOf, h x List.mem_cons_self]
    rw [List.foldl_cons, hx]
    exact ih fun y hy => h y (List.mem_cons_of_mem x hy)

/-- A forwarded command whose time has come is answered `TIMEOUT`, and its reservations are released. -/
theorem MDie.timeoutOf_of_due {d e : MDie} {pid key node due : Nat} {q : QueueRt} {f : Flight} (hf : q.openFlight? pid = some f)
    (hfwd : f.fwd = some (node, due)) (hpass : d.passUp due = some e) :
    MDie.timeoutOf pid d (key, q) =
      ((e.reply (flightReply key pid f) .timeout noResult e.ns).release1 (flightReply key pid f)).release2 (flightReply key pid f) := by
  simp only [MDie.timeoutOf, hf, hfwd, hpass]

/-- Settles O23: one packet waits alone, so `acceptHeld` is `takeHeld` of it; of all queues the one that holds the flight alone is touched by
its timeout. -/
theorem heldAndForwardedPackets : Obligations.HeldAndForwardedPackets := by
  refine ⟨fun s hrun => ?held, fun s pid key node due l r q f d hrun hqueues hothers hf hfwd hpass => ?timeout⟩
  case held =>
    have hrow := exec_heldPacketAccept_of_running hrun
    have hdealt {h : Held} {x : MDie} (hheld : s.md.rm.held = [h]) (hx : s.md.start.takeHeld h = some x) :
        exec .heldPacketAccept s = .next (s.after x) := by
      rw [hrow, MDie.acceptHeld_of_single (d := s.md.start) hheld hx]
    refine ⟨?none, ?node, ?accepted, ?host⟩
    case none =>
      intro hnone
      rw [hrow, MDie.acceptHeld_of_none (d := s.md.start) hnone]
    case node =>
      intro h x hheld hnode hx
      exact hdealt hheld (MDie.takeHeld_of_node (d := s.md.start) hheld hnode hx)
    case accepted =>
      intro h op hheld hnode hop d hacc
      exact hdealt hheld (MDie.takeHeld_of_node (d := s.md.start) hheld hnode (MDie.take_of_accepts hop none hacc))
    case host =>
      intro h port x hheld hhost hring key got hfetch hfence hx
      exact hdealt hheld (MDie.takeHeld_of_host (d := s.md.start) hheld hhost hring rfl hfetch hfence hx)
  case timeout =>
    have hbefore : ∀ x ∈ l, x.2.openFlight? pid = none := fun x hx => hothers x (List.mem_append_left r hx)
    have hafter : ∀ x ∈ r, x.2.openFlight? pid = none := fun x hx => hothers x (List.mem_append_right l hx)
    have hqueues' : s.md.start.rm.queues = l ++ (key, q) :: r := hqueues
    rw [exec_cmdTimeoutExpiry_of_running pid hrun, MDie.cmdTimeout_eq, hqueues', List.foldl_append, List.foldl_cons,
      foldl_timeoutOf_of_none hbefore, MDie.timeoutOf_of_due hf hfwd hpass, foldl_timeoutOf_of_none hafter]
    rfl

end Sys2Proof.Machine
end

section
/-! PROOFS. What each routed packet does on the node it is for. -/

namespace Sys2Proof.Machine

open Sys2Proof

/-- A routed packet for this node, with hops left, that arrives at an UP port (R465). -/
def MDie.ForHere (d : MDie) (k : Nat) (p : FabPkt) : Prop :=
  d.portUp k = true ∧ p.hops ≠ 0 ∧ p.dst = d.fab.node ∧ d.fab.node ≠ 0xFFFF

/-- Types of packets with rules of their own at a port: time messages, `DISC`, `TOPO` and `ROUTE`. Every other type is routed. -/
def portTypes : List Nat := [1, 8, 9, 10]

/-- It is taken here. -/
theorem MDie.packetIn_of_forHere {d : MDie} {k ty : Nat} {p : FabPkt} (h : d.ForHere k p) (hty : ty ∉ portTypes) :
    d.packetIn k ⟨ty, p⟩ = d.packetHere ⟨ty, p⟩ [] := by
  obtain ⟨hup, hhops, hdst, hnode⟩ := h
  simp only [portTypes, List.mem_cons, List.not_mem_nil, or_false, not_or] at hty
  obtain ⟨htime, hdisc, htopo, hroute⟩ := hty
  simp only [MDie.packetIn, MDie.arrived, hup, htime, hdisc, htopo, hroute, hhops, hdst, hnode, false_and, ne_eq, not_false_eq_true, and_self,
    if_false, if_true]

/-- A row of a routed packet for this node is what the packet does here, and the end of the step. -/
theorem onDie_packetIn_of_forHere {s : State} {k ty : Nat} {p : FabPkt} (hrun : s.md.boot.inReset = false) (h : s.md.ForHere k p)
    (hty : ty ∉ portTypes) :
    onDie s (fun d => d.packetIn k ⟨ty, p⟩) = .next (s.after (s.md.start.packetHere ⟨ty, p⟩ [])) := by
  have hhere : s.md.start.ForHere k p := h
  rw [onDie_of_running s _ hrun, MDie.packetIn_of_forHere hhere hty]

/-! `BIND` (R214, R231). -/

/-- The receivers of an axis but for one node. -/
def Axis.othersThan (a : Axis) (node : Nat) : List (Nat × Bool) := a.ra.receivers.filter (fun r => decide (r.1 ≠ node))

def MDie.setReceivers (d : MDie) (n : Nat) (a : Axis) (rs : List (Nat × Bool)) : MDie :=
  d.setData n (.axis { a with ra := { a.ra with receivers := rs } })

/-- The lead of a source does not depend on what the step begins with. -/
theorem MDie.start_leadNs (d : MDie) (k : Nat) (h : U32) : d.start.leadNs k h = d.leadNs k h := by
  induction k generalizing h with
  | zero => rfl
  | succ k ih =>
    simp only [MDie.leadNs, ih]
    rfl

theorem MDie.start_leadOf (d : MDie) (n : Nat) (o : Obj) (a : Axis) : d.start.leadOf n o a = d.leadOf n o a := by
  simp only [MDie.leadOf, MDie.srcLead, MDie.start_leadNs]
  rfl

theorem MDie.start_bindRecords (d : MDie) (n : Nat) (o : Obj) (a : Axis) : d.start.bindRecords n o a = d.bindRecords n o a := by
  simp only [MDie.bindRecords, MDie.start_leadOf]
  rfl

section Bind

variable {d : MDie} {m : FabMsg} {n : Nat} {o o' : Obj} {a : Axis} (hf : d.find m.pkt.xaux = some (n, o')) (ha : d.axis? n = some (o, a))

include hf ha

theorem MDie.takeBind_of_remove (hb : m.pkt.xtag % 2 = 0) : d.takeBind m = d.setReceivers n a (a.othersThan m.pkt.src) := by
  simp only [MDie.takeBind, hf, ha, hb, if_true]
  rfl

/-- A source with room for it sends a new receiver the samples held. -/
theorem MDie.takeBind_of_add (hb : m.pkt.xtag % 2 = 1) (hroom : (a.othersThan m.pkt.src).length < 32) :
    d.takeBind m =
      (d.setReceivers n a (a.othersThan m.pkt.src ++ [(m.pkt.src, (d.bindRecords n o a).isEmpty)])).sendRecords m.pkt.src
        (d.bindRecords n o a) := by
  have hroom' : ¬ 32 ≤ (a.ra.receivers.filter (fun r => decide (r.1 ≠ m.pkt.src))).length := Nat.not_le.2 hroom
  simp only [MDie.takeBind, hf, ha, hb, Nat.one_ne_zero, if_false]
  exact if_neg hroom'

end Bind

/-! Commands, replies and events of other nodes (R463, R464). -/

theorem MDie.takeCmd_of_ready {d : MDie} {m : FabMsg} (h : d.boot.ready = true) :
    d.takeCmd m =
      let r := pktDecode (d.cmdClient m.pkt.src (bitsOf m.pkt.xtag 4 3)) (bitsOf m.pkt.xtag 4 3) (m.pkt.xtag % 8) m.pkt.payload
      d.orHold (d.take false r.1 r.2 none) r.1 r.2 none 0 := by
  simp only [MDie.takeCmd, h, Bool.not_true, Bool.false_eq_true, if_false]

/-- The one record of a reply packet. -/
theorem MDie.takeReply_of_single {d : MDie} {m : FabMsg} {port : HostPort} (hport : originHost (bitsOf m.pkt.xtag 4 3) = some port)
    (hone : m.pkt.xaux = 1) : d.takeReply m = d.takeReplyRec port (m.pkt.xtag % 8) (fitBytes 32 m.pkt.payload) := by
  simp only [MDie.takeReply, hport, hone]
  rfl

/-- The one record of an event packet. -/
theorem MDie.takeEvent_of_single {d : MDie} {m : FabMsg} (hone : m.pkt.xaux = 1) :
    d.takeEvent m = d.toOrigin (bitsOf m.pkt.xtag 4 3) (m.pkt.xtag % 8) (fitBytes 32 m.pkt.payload) := by
  simp only [MDie.takeEvent, hone]
  rfl

/-- Settles O50: each row is `packetHere` of its type (`onDie_packetIn_of_forHere`), and that is the block that takes the packet. -/
theorem packetsForThisNode : Obligations.PacketsForThisNode := by
  intro s k p hrun hup hhops hdst hnode
  have hhere : s.md.ForHere k p := ⟨hup, hhops, hdst, hnode⟩
  have hrow {ty : Nat} (hty : ty ∉ portTypes) := onDie_packetIn_of_forHere (ty := ty) hrun hhere hty
  have hstream : exec (.streamPacket k p) s = .next (s.after (s.md.start.takeStream ⟨2, p⟩)) := hrow (by decide)
  have hcmd : exec (.cmdPacket k p) s = .next (s.after (s.md.start.takeCmd ⟨3, p⟩)) := hrow (by decide)
  have hreply : exec (.replyPacket k p) s = .next (s.after (s.md.start.takeReply ⟨4, p⟩)) := hrow (by decide)
  have hevent : exec (.eventPacket k p) s = .next (s.after (s.md.start.takeEvent ⟨5, p⟩)) := hrow (by decide)
  have hbind : exec (.bindPacket k p) s = .next (s.after (s.md.start.takeBind ⟨6, p⟩)) := hrow (by decide)
  have hcredit : exec (.e2eCreditPacket k p) s = .next (s.after (s.md.start.e2eBack ⟨7, p⟩)) := hrow (by decide)
  have hlevel : exec (.levelPacket k p) s = .next (s.after (s.md.start.takeLevel ⟨11, p⟩)) := hrow (by decide)
  refine ⟨?stream, ?remove, ?add, ?cmd, ?reply, ?event, hcredit, hlevel⟩
  case stream => exact hstream
  case remove =>
    intro n o o' a hf ha hb
    rw [hbind, MDie.takeBind_of_remove (d := s.md.start) (m := ⟨6, p⟩) hf ha hb]
    rfl
  case add =>
    intro n o o' a hf ha hb others rs hroom
    rw [hbind, MDie.takeBind_of_add (d := s.md.start) (m := ⟨6, p⟩) hf ha hb hroom, MDie.start_bindRecords]
    rfl
  case cmd =>
    intro hready r
    have htaken : exec (.cmdPacket k p) s = .next (s.after (s.md.start.orHold (s.md.start.take false r.1 r.2 none) r.1 r.2 none 0)) := by
      rw [hcmd, MDie.takeCmd_of_ready (d := s.md.start) hready]
      rfl
    refine ⟨htaken, fun op hop hacc => ?_⟩
    rw [htaken, MDie.take_of_accepts hop none hacc]
    rfl
  case reply =>
    intro port hport hone
    rw [hreply, MDie.takeReply_of_single (m := ⟨4, p⟩) hport hone]
  case event =>
    intro hone
    rw [hevent, MDie.takeEvent_of_single (m := ⟨5, p⟩) hone]

end Sys2Proof.Machine
end

section
/-! PROOFS. The Turnstile: the intake of a task packet, the dispatch of the task that goes first, completions between nodes. -/

namespace Sys2Proof.Machine

open Sys2Proof

/-! Intake (R105, R106, R109, R110). -/

/-- A task packet whose checks 1 … 9 hold goes to the Turnstile, whatever checks 10 … 12 say (R105). -/
theorem MDie.takeOwn_of_task {d : MDie} {now : Bool} {op : Op} {p : Pkt} {b : TaskBlock} (pid : Option Nat) (htask : p.task = some b)
    (hchecks : ∀ k st r, d.takeBad now op p = some (k, st, r) → 9 < k) :
    d.takeOwn now op (d.ownPkt op p) (replyTo op.code p pid) = d.intake op (d.ownPkt op p) (replyTo op.code p pid) b := by
  have hchk : (d.projected (d.effectTick now (d.targetPeriod (d.ownPkt op p).target) (d.ownPkt op p)).1).ownBad op (d.ownPkt op p)
      (replyTo op.code p pid).client = d.takeBad now op p := rfl
  simp only [MDie.takeOwn, MDie.ownPkt_task, htask, hchk]
  cases hbad : d.takeBad now op p with
  | none => rfl
  | some bad =>
    obtain ⟨k, st, r⟩ := bad
    exact if_neg (Nat.not_le.2 (hchecks k st r hbad))

/-- The record of a task packet that this die takes (R106, R110). -/
def MDie.newTask (d : MDie) (op : Op) (p : Pkt) (rt : ReplyTo) (b : TaskBlock) : TaskRec :=
  { op := op, pkt := p, rt := rt, deps := b.deps.toNat, succs := (taskRefs b).map (fun r => d.succHandle r)
    st := if b.deps = 0 then .ready d.rm.nextReady else .waiting, intake := d.rm.nextSeq, doomed := false }

/-- The die with a task in slot `n`, answered `QUEUED` with its handle and its tag (R106). -/
def MDie.enrol (d : MDie) (n : Nat) (t : TaskRec) (tag : U16) : MDie :=
  let e := d.occupy n (.task t)
  let x : MDie := { e with rm := { e.rm with nextSeq := e.rm.nextSeq + 1 } }
  ((x.reply t.rt .queued ⟨(x.handle n).setWidth 64, tag.setWidth 64⟩ x.ns).settled t.rt).returnPlace t.rt

section Intake

variable {d : MDie} {op : Op} {p : Pkt} {rt : ReplyTo} {b : TaskBlock}

theorem MDie.intake_of_badSucc {x : MDie} {st : Status} {i : Nat} (hsucc : d.succsBad (taskRefs b) = (x, some (st, i))) :
    d.intake op p rt b = .done (x.turnAway rt st ⟨0, BitVec.ofNat 64 i⟩) := by
  simp only [MDie.intake, hsucc]

theorem MDie.intake_of_noRoom (hsucc : d.succsBad (taskRefs b) = (d, none))
    (hroom : d.taskRoom rt.client (taskRefs b).length = false) : d.intake op p rt b = .wait := by
  simp only [MDie.intake, hsucc, List.length_map, hroom, Bool.not_false, Bool.true_or, if_true]

theorem MDie.intake_of_room {n : Nat} (hsucc : d.succsBad (taskRefs b) = (d, none))
    (hroom : d.taskRoom rt.client (taskRefs b).length = true) (hheld : d.queueHeld rt = false) (hslot : d.nextSlot = some n) :
    d.intake op p rt b = .done (d.enrol n (d.newTask op p rt b) b.tag) := by
  simp only [MDie.intake, hsucc, List.length_map, hroom, hheld, hslot, Bool.not_true, Bool.or_self, Bool.false_eq_true, if_false]
  rfl

end Intake

/-- A task packet that reaches its die and passes checks 1 … 9 is what its intake is. -/
theorem MDie.take_of_task {d : MDie} {now : Bool} {op : Op} {p : Pkt} {b : TaskBlock} (pid : Option Nat) (hreach : d.Reaches op p)
    (htask : p.task = some b) (hchecks : ∀ k st r, d.takeBad now op p = some (k, st, r) → 9 < k) :
    d.take now op.code p pid = d.intake op (d.ownPkt op p) (replyTo op.code p pid) b :=
  (MDie.take_of_reaches now pid hreach).trans (MDie.takeOwn_of_task pid htask hchecks)

theorem exec_row_of_taskFits {op : Op} {p : Pkt} {s : State} {b : TaskBlock} {n : Nat} (h : TaskFits op p b n s) :
    exec (op.row p) s = .next (taskTaken op p b n s) := by
  obtain ⟨hreach, htask, hchecks, hsucc, hroom, hheld, hslot⟩ := h
  exact exec_row_of_done hreach.1 ((MDie.take_of_task _ hreach.2 htask hchecks).trans (MDie.intake_of_room hsucc hroom hheld hslot))

/-- Settles O6: checks 1 … 9 passed, the packet is its intake (`take_of_task`), and that has three ends: a successor fails, there is no
room, or there is. -/
theorem taskPacketTaken : Obligations.TaskPacketTaken := by
  intro op p s b
  refine ⟨fun n hfits => exec_row_of_taskFits hfits, fun n hfits => exec_row_of_taskFits hfits, fun hreach htask => ?ends⟩
  case ends =>
    intro d rt hchecks
    have htake := MDie.take_of_task (packetGot op p s).2 hreach.2 htask hchecks
    exact ⟨fun x st i hsucc => exec_row_of_done hreach.1 (htake.trans (MDie.intake_of_badSucc hsucc)),
      fun hsucc hroom => exec_row_of_wait hreach.1 (htake.trans (MDie.intake_of_noRoom hsucc hroom))⟩

/-! Dispatch (R111, R112). -/

theorem exec_taskDispatch_of_running {s : State} (h : s.md.boot.inReset = false) :
    exec .taskDispatch s = .next (s.after s.md.start.dispatch) := onDie_of_running s _ h

/-- The command that a task issues at its dispatch: its packet without the task block. -/
def TaskRec.command (t : TaskRec) : Pkt := { t.pkt with task := none, flags := t.pkt.flags &&& 0xFD }

/-- The tick of its effect, and whether its stamp is late (R112). -/
def MDie.dispatchTick (d : MDie) (t : TaskRec) : Nat × Bool := d.effectTick false (d.targetPeriod t.command.target) t.command

/-- The first check that the command fails against the state its tick will find (log 41); a `TASK_WAIT` is checked as a `NOP`. -/
def MDie.dispatchBad (d : MDie) (t : TaskRec) : Bad :=
  (d.projected (d.dispatchTick t).1).ownBad (if t.op = .taskWait then .nop else t.op) t.command clientTurnstile

/-- The task once its command is accepted, with the status of its second reply. -/
def MDie.dispatched (d : MDie) (t : TaskRec) : TaskRec :=
  { t with st := .dispatched (d.dispatchTick t).1 (if (d.dispatchTick t).2 then Status.okLate.code else Status.ok.code) }

theorem MDie.dispatch_of_none {d : MDie} (h : d.nextTask = none) : d.dispatch = d := by
  simp only [MDie.dispatch, h]

section Dispatch

variable {d : MDie} {n : Nat} {t : TaskRec} (hnext : d.nextTask = some (n, t))

include hnext

/-- A command that passes its checks waits where no action slot is free, and is accepted otherwise. -/
theorem MDie.dispatch_of_good (hgood : d.dispatchBad t = none) :
    d.dispatch =
      if !d.slotFor clientTurnstile then { d with rm := { d.rm with stalled := some t.intake } }
      else (d.setTask n (d.dispatched t)).enlist (d.projected (d.dispatchTick t).1) false t.op t.command t.rt clientTurnstile (some n)
        (d.dispatchTick t) := by
  simp only [MDie.dispatchBad, MDie.dispatchTick, TaskRec.command] at hgood
  by_cases hwait : t.op = .taskWait
  · rw [if_pos hwait] at hgood
    simp only [MDie.dispatch, hnext, if_pos hwait, hgood]
    rfl
  · rw [if_neg hwait] at hgood
    simp only [MDie.dispatch, hnext, if_neg hwait, hgood]
    rfl

/-- A command that fails a check is refused, and its task is to end with cause 1. -/
theorem MDie.dispatch_of_bad {k : Nat} {st : Status} {r : Result} (hwait : t.op ≠ .taskWait) (hbad : d.dispatchBad t = some (k, st, r)) :
    d.dispatch =
      let x := (((d.refusalNote t.op t.command r).reply t.rt st r d.ns).release1 t.rt).release2 t.rt
      { x with rm := { x.rm with ended := x.rm.ended ++ [(n, 1, st.code)] } } := by
  simp only [MDie.dispatchBad, MDie.dispatchTick, TaskRec.command, if_neg hwait] at hbad
  simp only [MDie.dispatch, hnext, if_neg hwait, hbad]
  rfl

end Dispatch

/-- Settles O26: `dispatch_of_good` gives what becomes of a command that passes its checks, `dispatch_of_bad` the refusal of one that
does not. -/
theorem readyTaskDispatched : Obligations.ReadyTaskDispatched := by
  intro s hrun
  have hrow := exec_taskDispatch_of_running hrun
  refine ⟨fun hnone => ?none, fun n t hnext => ?next⟩
  case none => rw [hrow, MDie.dispatch_of_none (d := s.md.start) hnone]
  case next =>
    intro d p eff chk
    refine ⟨fun hgood hslot => ?slot, fun hgood hslot => ?noSlot, fun k st r hwait hbad => ?bad⟩
    case slot =>
      rw [hrow, MDie.dispatch_of_good hnext hgood, hslot]
      rfl
    case noSlot =>
      rw [hrow, MDie.dispatch_of_good hnext hgood, hslot]
      rfl
    case bad =>
      rw [hrow, MDie.dispatch_of_bad hnext hwait hbad]
      rfl

/-! Completions between nodes (R110, R114, R116). -/

/-- A handle that names a task names the slot it is in. -/
theorem MDie.task?_of_findTask {d : MDie} {h : U32} {n : Nat} {t : TaskRec} (hf : d.findTask h = some (n, t)) : d.task? n = some t := by
  unfold MDie.findTask at hf
  split at hf
  · cases hf
  · split at hf
    · rename_i hslot
      split at hf
      · cases hf
        simp only [MDie.task?, hslot]
      · cases hf
    · cases hf

section Lower

variable {d : MDie} {n : Nat} {t : TaskRec} (ht : d.task? n = some t) (hst : t.st = .waiting)

include ht hst

theorem MDie.lower_of_lt {k : Nat} (h : k < t.deps) : d.lower n k = (d.setTask n { t with deps := t.deps - k }, true) := by
  simp only [MDie.lower, ht, hst, h, if_true]

/-- A count that reaches 0 makes the task ready. -/
theorem MDie.lower_of_le {k : Nat} (h : t.deps ≤ k) :
    d.lower n k = (d.setTask n { t with deps := 0, st := .ready d.rm.nextReady }, true) := by
  simp only [MDie.lower, ht, hst, Nat.not_lt.2 h, if_false]

end Lower

/-- The die once it has acknowledged a completion or cancellation of another node and noted it as taken. -/
def MDie.received (d : MDie) (node token : Nat) : MDie :=
  let e := d.emit (.taskAck node token)
  { e with rm := { e.rm with taken := e.rm.taken ++ [(node, token)] } }

section Received

variable {d : MDie} {succ : U32} {node token : Nat} (cancel : Bool)

theorem MDie.succReceived_of_taken (h : (node, token) ∈ d.rm.taken) :
    d.succReceived succ node token cancel = d.emit (.taskAck node token) := if_pos (List.contains_iff_mem.2 h)

theorem MDie.succReceived_of_new {n : Nat} {t : TaskRec} (h : (node, token) ∉ d.rm.taken) (hf : d.findTask succ = some (n, t)) :
    d.succReceived succ node token cancel =
      if cancel then (d.received node token).cancelTask n true else ((d.received node token).lower n 1).1 := by
  have hnew : (d.emit (.taskAck node token)).rm.taken.contains (node, token) = false :=
    Bool.eq_false_iff.2 fun htaken => h (List.contains_iff_mem.1 htaken)
  have hf' : (d.received node token).findTask succ = some (n, t) := hf
  unfold MDie.received at hf' ⊢
  simp only [MDie.succReceived, hnew, hf', Bool.false_eq_true, if_false]

end Received

theorem exec_taskCompletionReceived_of_running (succ : U32) (node token : Nat) {s : State} (h : s.md.boot.inReset = false) :
    exec (.taskCompletionReceived succ node token) s = .next (s.after (s.md.start.succReceived succ node token false)) :=
  onDie_of_running s _ h

theorem exec_successorCancelReceived_of_running (succ : U32) (node token : Nat) {s : State} (h : s.md.boot.inReset = false) :
    exec (.successorCancelReceived succ node token) s = .next (s.after (s.md.start.succReceived succ node token true)) :=
  onDie_of_running s _ h

theorem exec_taskCompletionAck_of_running (token : Nat) {s : State} (h : s.md.boot.inReset = false) :
    exec (.taskCompletionAck token) s = .next (s.after (s.md.start.succAck token)) := onDie_of_running s _ h

theorem exec_taskSuccAckTimeout_of_running (token : Nat) {s : State} (h : s.md.boot.inReset = false) :
    exec (.taskSuccAckTimeout token) s = .next (s.after (s.md.start.succTimeout token)) := onDie_of_running s _ h

/-- A completion whose deadline comes before the next tick is given up then, and reported unless it is a cancellation (R116, log 140). -/
theorem MDie.succTimeout_of_due {d e : MDie} {token : Nat} {r : RemoteDone}
    (hheld : d.rm.remote.find? (fun r => decide (r.token = token)) = some r) (hpass : d.passUp r.deadline = some e) :
    d.succTimeout token =
      if r.cancel then e.succAck token
      else (e.succAck token).postTo r.pred
        (faultEv Evt.taskSuccLost e.tick (d16 r.tag.toNat ++ d16 r.client.toNat ++ d32 r.succ.toNat)) r.client r.ring := by
  simp only [MDie.succTimeout, hheld, hpass]
  rfl

/-- Settles O27: a completion or cancellation new to this die acts on the task it names through `lower` and `cancelTask`, one taken before is
only acknowledged; the other end of it is an acknowledgement, or `succTimeout_of_due`. -/
theorem remoteTaskCompletions : Obligations.RemoteTaskCompletions := by
  refine ⟨fun s succ node token hrun => ?received, fun s token hrun => ⟨exec_taskCompletionAck_of_running token hrun, ?timeout⟩⟩
  case received =>
    intro d d'
    refine ⟨fun htaken => ?again, fun hnew n t hf => ?first⟩
    case again =>
      rw [exec_taskCompletionReceived_of_running succ node token hrun, exec_successorCancelReceived_of_running succ node token hrun,
        MDie.succReceived_of_taken (d := s.md.start) false htaken, MDie.succReceived_of_taken (d := s.md.start) true htaken]
      exact ⟨rfl, rfl⟩
    case first =>
      have hlowered : exec (.taskCompletionReceived succ node token) s = .next (s.after (d'.lower n 1).1) := by
        rw [exec_taskCompletionReceived_of_running succ node token hrun, MDie.succReceived_of_new (d := s.md.start) false hnew hf]
        rfl
      have htask : d'.task? n = some t := MDie.task?_of_findTask hf
      refine ⟨fun hst hmany => ?_, fun hst hlast => ?_, ?_⟩
      · rw [hlowered, MDie.lower_of_lt htask hst hmany]
      · rw [hlowered, MDie.lower_of_le htask hst (Nat.le_of_eq hlast)]
      · rw [exec_successorCancelReceived_of_running succ node token hrun, MDie.succReceived_of_new (d := s.md.start) true hnew hf]
        rfl
  case timeout =>
    intro r e hheld hpass
    rw [exec_taskSuccAckTimeout_of_running token hrun, MDie.succTimeout_of_due (d := s.md.start) hheld hpass]
    rfl

end Sys2Proof.Machine
end

section
/-! PROOFS. Commands of feedback channels, axes, paths, gear links, compare events, captures and line clocks at their tick. -/

namespace Sys2Proof.Machine

open Sys2Proof

/-! An opcode that goes to the block of its target's class (R70). -/

/-- Opcodes whose effect does not go to the block of the target's class, whatever the class: those of every object, of tasks, a `CAN_TX`, and a
`MOVE_REL`, which keeps the base of its acceptance (R172). -/
def effOfOwn : List Op :=
  [.taskCancel, .taskSignal, .taskCancelAll, .taskWait, .nop, .objectCreate, .objectDestroy, .objectEnable, .objectDisable, .paramGet, .paramSet,
    .paramSetMulti, .canTx, .moveRel]

section Eff

variable {d : MDie} {a : Action} {n : Nat} {o : Obj} {op : Op} (t : Nat) (hf : d.find a.pkt.target = some (n, o)) (h : a.op = op)

include hf h

theorem MDie.eff_of_classOp (hop : op ∉ effOfOwn) (hs : o.cls ≠ .system) : d.eff a t = d.objDo op n t o a.pkt.body := by
  subst h
  have hne : ∀ op ∈ effOfOwn, a.op ≠ op := fun op hmem heq => hop (heq ▸ hmem)
  unfold MDie.eff
  dsimp only
  split
  case h_7 =>
    simp only [hf]
    split
    case h_9 => exact if_neg hs
    all_goals exact absurd ‹a.op = _› (hne _ (by decide))
  all_goals exact absurd ‹a.op = _› (hne _ (by decide))

theorem MDie.eff_fbk {f : Fbk} (hd : o.data = .fbk f) (hop : op ∉ effOfOwn) : d.eff a t = d.fbkDo op n t a.pkt.body := by
  have hs : o.cls ≠ .system := by rw [Obj.cls, hd]; exact nofun
  rw [MDie.eff_of_classOp t hf h hop hs, MDie.objDo, hd]

theorem MDie.eff_axis {x : Axis} (hd : o.data = .axis x) (hop : op ∉ effOfOwn) : d.eff a t = d.motionDo op n t a.pkt.body := by
  have hs : o.cls ≠ .system := by rw [Obj.cls, hd]; exact nofun
  rw [MDie.eff_of_classOp t hf h hop hs, MDie.objDo, hd]

theorem MDie.eff_path {x : Path} (hd : o.data = .path x) (hop : op ∉ effOfOwn) : d.eff a t = d.motionDo op n t a.pkt.body := by
  have hs : o.cls ≠ .system := by rw [Obj.cls, hd]; exact nofun
  rw [MDie.eff_of_classOp t hf h hop hs, MDie.objDo, hd]

/-- Gear links, compare events, captures and line clocks. -/
theorem MDie.eff_orrery (hc : o.cls = .gear ∨ o.cls = .evt ∨ o.cls = .capt ∨ o.cls = .lclk) (hop : op ∉ effOfOwn) :
    d.eff a t = d.orreryDo op n t a.pkt.body := by
  have hs : o.cls ≠ .system := by rcases hc with hc | hc | hc | hc <;> rw [hc] <;> decide
  rw [MDie.eff_of_classOp t hf h hop hs, MDie.objDo]
  cases hd : o.data <;> simp only [Obj.cls, hd, ObjData.cls, reduceCtorEq, or_self] at hc ⊢

omit h in
theorem MDie.eff_moveRel (h : a.op = .moveRel) : d.eff a t = (d.axisDo n t (.moveRel (posAt a.pkt.body 0) a.chained), noResult) := by
  simp only [MDie.eff, h, hf]

end Eff

/-! The object in a slot, by its class. -/

section ByClass

variable {d : MDie} {n : Nat} {o : Obj} (ho : d.obj? n = some o)

include ho

theorem MDie.fbk?_of_data {f : Fbk} (hd : o.data = .fbk f) : d.fbk? n = some (o, f) := by simp only [MDie.fbk?, ho, hd]

theorem MDie.axis?_of_data {x : Axis} (hd : o.data = .axis x) : d.axis? n = some (o, x) := by simp only [MDie.axis?, ho, hd]

theorem MDie.path?_of_data {x : Path} (hd : o.data = .path x) : d.path? n = some (o, x) := by simp only [MDie.path?, ho, hd]

theorem MDie.path?_of_axis {x : Axis} (hd : o.data = .axis x) : d.path? n = none := by simp only [MDie.path?, ho, hd]

theorem MDie.gear?_of_data {g : Gear} (hd : o.data = .gear g) : d.gear? n = some (o, g) := by simp only [MDie.gear?, ho, hd]

theorem MDie.evt?_of_data {c : Cmp} (hd : o.data = .evt c) : d.evt? n = some (o, c) := by simp only [MDie.evt?, ho, hd]

theorem MDie.capt?_of_data {c : Capt} (hd : o.data = .capt c) : d.capt? n = some (o, c) := by simp only [MDie.capt?, ho, hd]

theorem MDie.lclk?_of_data {l : Lclk} (hd : o.data = .lclk l) : d.lclk? n = some (o, l) := by simp only [MDie.lclk?, ho, hd]

theorem MDie.enabledAt_of_enabled (hl : o.life = .enabled) : d.enabledAt n = true := by simp only [MDie.enabledAt, ho, hl, BEq.rfl]

end ByClass

/-! Feedback channels (R153, R160). -/

section Fbk

variable {d : MDie} {n : Nat} {o : Obj} {f : Fbk} (t : Nat) (b : List Byte) (hx : d.fbk? n = some (o, f)) (hl : o.life = .enabled)

include hx hl

theorem MDie.fbkDo_setState :
    d.fbkDo .fbkSetState n t b =
      let r := fbkSetState f (chStateOf (rdU b 0 1)) t
      ((d.setData n (.fbk r.1)).postAll n r.2, noResult) := by
  simp only [MDie.fbkDo, hx, hl, ne_eq, not_true_eq_false, if_false]

theorem MDie.fbkDo_setPos :
    d.fbkDo .fbkSetPos n t b =
      let delta := posAt b 0 - f.sample.pos
      ((d.setData n (.fbk (moveOffset f delta))).rollback n delta, ⟨image64 (counts delta), BitVec.ofNat 64 (delta % oneCount).toNat⟩) := by
  simp only [MDie.fbkDo, hx, hl, setPosDelta, ne_eq, not_true_eq_false, if_false]

theorem MDie.fbkDo_refIndex :
    d.fbkDo .fbkRefIndex n t b =
      (d.setData n (.fbk { f with mon := { f.mon with ref := some (rdI b 0 8 * oneCount, rdU b 8 1, t) } }), noResult) := by
  simp only [MDie.fbkDo, hx, hl, ne_eq, not_true_eq_false, if_false]

theorem MDie.fbkDo_refCancel :
    d.fbkDo .fbkRefCancel n t b =
      (d.setData n (.fbk { f with mon := { f.mon with ref := none } }), ⟨if f.mon.ref.isSome then 1 else 0, 0⟩) := by
  simp only [MDie.fbkDo, hx, hl, ne_eq, not_true_eq_false, if_false]

theorem MDie.fbkDo_getSample :
    d.fbkDo .fbkGetSample n t b =
      (d, ⟨image64 (counts f.sample.pos), BitVec.ofNat 64 ((f.sample.pos % oneCount).toNat + f.sample.status * 2 ^ 32)⟩) := by
  simp only [MDie.fbkDo, hx, hl, ne_eq, not_true_eq_false, if_false]

end Fbk

/-! Axes (R169, R171, R200, R238). -/

/-- No motion command is the write of a limit. -/
theorem Action.motion_ne_limit {a : Action} {c : AxisCmd} (h : a.motion = some c) (id : Nat) : c ≠ .limit id := by
  rintro rfl
  unfold Action.motion motionCmd at h
  split at h
  · cases h
  · split at h <;> cases h

/-- The motion commands that go to the block of axes and paths. -/
theorem motionCmd_eq_none_of_effOfOwn (b : List Byte) :
    ∀ op ∈ effOfOwn, op ≠ .moveRel → op ≠ .objectDisable → motionCmd op b = none := by
  simp [effOfOwn, motionCmd]

theorem MDie.motionDo_of_motionCmd {d : MDie} {op : Op} {n t : Nat} {b : List Byte} {c : AxisCmd} (hp : d.path? n = none)
    (hc : motionCmd op b = some c) : d.motionDo op n t b = (d.axisDo n t c, noResult) := by
  unfold MDie.motionDo
  split
  case h_5 => simp only [hp, hc]
  all_goals cases hc

/-- A motion command is done by its axis, whichever of its opcodes it is (R172, R200). -/
theorem MDie.eff_motion {d : MDie} {a : Action} {n : Nat} {o : Obj} {x : Axis} {c : AxisCmd} (t : Nat) (hf : d.find a.pkt.target = some (n, o))
    (hd : o.data = .axis x) (hc : a.motion = some c) (hdis : a.op ≠ .objectDisable) : d.eff a t = (d.axisDo n t c, noResult) := by
  by_cases hrel : a.op = .moveRel
  · have hc' : AxisCmd.moveRel (posAt a.pkt.body 0) a.chained = c := by simpa only [Action.motion, hrel, Option.some.injEq] using hc
    rw [MDie.eff_moveRel t hf hrel, hc']
  · have hc' : motionCmd a.op a.pkt.body = some c := by simpa only [Action.motion] using hc
    have hop : a.op ∉ effOfOwn := fun hmem => by simp only [motionCmd_eq_none_of_effOfOwn _ _ hmem hrel hdis, reduceCtorEq] at hc'
    rw [MDie.eff_axis t hf rfl hd hop, MDie.motionDo_of_motionCmd (MDie.path?_of_axis (d.find_obj? _ n o hf).2 hd) hc']

section Axis

variable {d : MDie} {n t : Nat} {o : Obj} {x : Axis} {c : AxisCmd} (hx : d.axis? n = some (o, x))

include hx

theorem MDie.axisDo_of_taken (hl : o.life = .enabled) (htake : takesCmd x.core.mode c = true) (hgear : x.core.mode ≠ .geared)
    (hlim : ∀ id, c ≠ .limit id) : d.axisDo n t c = d.axisTake n t 1 x (axisCore o.params x t c) := by
  simp only [MDie.axisDo, hx, hl, htake]
  cases c with
  | limit id => exact absurd rfl (hlim id)
  | _ => simp [hgear]

/-- A `STOP` takes the axis out of its link, which is released (R238). -/
theorem MDie.axisDo_stop_of_geared (q : Bool) (hl : o.life = .enabled) (hgear : x.core.mode = .geared) :
    d.axisDo n t (.stop q) =
      (d.axisTake n t 1 { x with ra := x.ra.unlink } (axisCore o.params x t (.stop q))).gearRelease n (if q then 2 else 1) t := by
  simp [MDie.axisDo, hx, hl, hgear, takesCmd]

theorem MDie.axisDo_of_notTaken (htake : takesCmd x.core.mode c = false) : d.axisDo n t c = d := by
  simp only [MDie.axisDo, hx, htake, or_true, if_true]

theorem MDie.motionDo_getSample (b : List Byte) : d.motionDo .axisGetSample n t b = (d, d.axisSample n o x) := by
  simp only [MDie.motionDo, hx]

end Axis

/-! Paths (R190, R195). -/

section Path

variable {d : MDie} {n t : Nat} {o : Obj} {x : Path} {op : Op} {b : List Byte} (hx : d.path? n = some (o, x))

include hx

theorem MDie.motionDo_append (hop : op = .pathLine ∨ op = .pathArc) (hl : o.life = .enabled) (hroom : x.queued < 64)
    (hfree : d.pathBlocked o = false) :
    d.motionDo op n t b =
      ((d.setData n (.path (x.append o.params (d.memberLims o) (pathSeg op o.params b (d.segStart o x)) t))).noteMembers o, noResult) := by
  have happend : d.motionDo op n t b = (d.pathAppend op n t b, noResult) := by rcases hop with rfl | rfl <;> rfl
  simp only [happend, MDie.pathAppend, hx, hl, Nat.not_le.2 hroom, hfree, ne_eq, not_true_eq_false, Bool.false_eq_true, or_self, if_false]

/-- Where no segment runs, those that wait are all that have not begun. -/
theorem MDie.motionDo_flush (hl : o.life = .enabled) (hmode : x.mode ≠ 1) :
    d.motionDo .pathFlush n t b = (d.setData n (.path { x with next := [] }), ⟨BitVec.ofNat 64 x.next.length, 0⟩) := by
  simp only [MDie.motionDo, MDie.pathFlush, hx, hl, Path.flush, hmode, ne_eq, not_true_eq_false, not_false_eq_true, if_false, if_true]

theorem MDie.motionDo_pathStop (hop : op = .stop ∨ op = .stopQuick) :
    d.motionDo op n t b = (d.pathStop n t (op == .stopQuick), noResult) := by
  rcases hop with rfl | rfl <;> simp only [MDie.motionDo, hx]

end Path

/-! Gear links (R236, R237, R244). -/

section Gear

variable {d : MDie} {n t : Nat} {o : Obj} {g : Gear} {b : List Byte} (hx : d.gear? n = some (o, g)) (hl : o.life = .enabled)

include hx hl

theorem MDie.orreryDo_camSwitch :
    d.orreryDo .gearCamSwitch n t b =
      ((d.setData n (.gear { g with camArmed := some (BitVec.ofNat 32 (rdU b 0 4)) })).noteSlave o, noResult) := by
  simp only [MDie.orreryDo, MDie.gearDo, hx, hl, gearCmd, MDie.postAll, List.foldl_nil, ne_eq, not_true_eq_false, if_false]

/-- A link that is not engaged keeps a shift until it is, with those it kept before. -/
theorem MDie.orreryDo_shift (hg : g.engaged = false) :
    d.orreryDo .gearShift n t b =
      ((d.setData n (.gear { g with
        heldShift := some (((g.heldShift.map (fun x => x.1)).getD 0) + posAt b 0, rdU b 16 8 * 2 ^ 32) })).noteSlave o, noResult) := by
  simp only [MDie.orreryDo, MDie.gearDo, hx, hl, hg, gearCmd, MDie.postAll, List.foldl_nil, ne_eq, not_true_eq_false, Bool.false_eq_true, if_false]

/-- A link that is not engaged keeps the ratio until it is. -/
theorem MDie.orreryDo_ratio (hg : g.engaged = false) :
    d.orreryDo .gearRatio n t b =
      let c : RatioChange := { pos := rdI b 0 8 * oneCount, num := rdI b 8 4, den := rdU b 12 4, blend := rdU b 16 8 * 2 ^ 32
                               dir := rdU b 24 1 % 4, immediate := bitOf (rdU b 24 1) 2, late := false, waits := none }
      ((d.setData n (.gear { g with heldRatio := some c })).noteSlave o, noResult) := by
  simp only [MDie.orreryDo, MDie.gearDo, hx, hl, hg, gearCmd, MDie.postAll, List.foldl_nil, ne_eq, not_true_eq_false, Bool.false_eq_true, if_false]

end Gear

/-! Compare events, captures and line clocks (R247, R252, R256, R259, R269). -/

section Orrery

variable {d : MDie} {n t : Nat} {o : Obj} {b : List Byte} (ho : d.obj? n = some o) (hl : o.life = .enabled)

include ho hl

/-- A disarmed compare event answers how many positions were left. -/
theorem MDie.orreryDo_evtDisarm {c : Cmp} (hd : o.data = .evt c) :
    d.orreryDo .evtDisarm n t b =
      (d.setData n (.evt { c with st := 0, placed := [] }), ⟨BitVec.ofInt 64 ((evtRead c Par.evtRemain).getD 0), 0⟩) := by
  simp only [MDie.orreryDo, MDie.evtDisarm, MDie.evt?_of_data ho hd, hl, ne_eq, not_true_eq_false, if_false]

theorem MDie.orreryDo_evtArm : d.orreryDo .evtArm n t b = (d.evtArm n t b, noResult) := by
  simp only [MDie.orreryDo, MDie.enabledAt_of_enabled ho hl, if_true]

theorem MDie.orreryDo_captArm {c : Capt} (hd : o.data = .capt c) :
    d.orreryDo .captArm n t b = (d.setData n (.capt { c with armed := true }), noResult) := by
  simp only [MDie.orreryDo, MDie.capt?_of_data ho hd, hl, if_true]

theorem MDie.orreryDo_lclkArm {l : Lclk} (hd : o.data = .lclk l) :
    d.orreryDo .lclkArm n t b =
      ((d.setData n (.lclk (l.arm o.params (posAt b 0) (rdU b 12 4) (d.srcSample (o.params.h Par.lclkSource) t).p t))).lclkPlace
        n (max t d.ns) 4, noResult) := by
  simp only [MDie.orreryDo, MDie.lclkArm, MDie.lclk?_of_data ho hd, hl, ne_eq, not_true_eq_false, if_false]

end Orrery

/-- Settles O15: an opcode goes to the block of its target's class (`eff_fbk`, `eff_axis`, `eff_path`, `eff_orrery`), a motion command to its
axis (`eff_motion`), and each block's lemma gives the effect; a packet completes by `exec_row_of_runsNow_done`. -/
theorem motionCommandEffects : Obligations.MotionCommandEffects := by
  constructor
  · intro d a t n o hf b
    have ho := (d.find_obj? _ n o hf).2
    refine ⟨?fbk, ?motion, ?sample, ?path, ?camSwitch, ?gear, ?evt, ?capt, ?lclk⟩
    case fbk =>
      intro f hd hl
      have hx := MDie.fbk?_of_data ho hd
      exact ⟨fun h => (MDie.eff_fbk t hf h hd (by decide)).trans (MDie.fbkDo_setState t b hx hl),
        fun h => (MDie.eff_fbk t hf h hd (by decide)).trans (MDie.fbkDo_setPos t b hx hl),
        fun h => (MDie.eff_fbk t hf h hd (by decide)).trans (MDie.fbkDo_refIndex t b hx hl),
        fun h => (MDie.eff_fbk t hf h hd (by decide)).trans (MDie.fbkDo_refCancel t b hx hl),
        fun h => (MDie.eff_fbk t hf h hd (by decide)).trans (MDie.fbkDo_getSample t b hx hl)⟩
    case motion =>
      intro x c hd hc hdis
      have hx := MDie.axis?_of_data ho hd
      have heff := MDie.eff_motion t hf hd hc hdis
      refine ⟨heff, fun hl htake hgear => ?_, fun q hl hstop hgear => ?_, fun htake => ?_⟩
      · rw [heff, MDie.axisDo_of_taken hx hl htake hgear (Action.motion_ne_limit hc)]
      · rw [heff, hstop, MDie.axisDo_stop_of_geared hx q hl hgear]
      · rw [heff, MDie.axisDo_of_notTaken hx htake]
    case sample =>
      exact fun x hd h => (MDie.eff_axis t hf h hd (by decide)).trans (MDie.motionDo_getSample (MDie.axis?_of_data ho hd) b)
    case path =>
      intro x hd hl
      have hx := MDie.path?_of_data ho hd
      refine ⟨fun hop hroom hfree => ?_, fun h hmode => ?_, fun hop => ?_⟩
      · rw [MDie.eff_path t hf rfl hd (by rcases hop with h | h <;> rw [h] <;> decide), MDie.motionDo_append hx hop hl hroom hfree]
      · rw [MDie.eff_path t hf h hd (by decide), MDie.motionDo_flush hx hl hmode]
      · rw [MDie.eff_path t hf rfl hd (by rcases hop with h | h <;> rw [h] <;> decide), MDie.motionDo_pathStop hx hop]
    case camSwitch =>
      intro g hd hl h
      exact (MDie.eff_orrery t hf h (.inl (congrArg ObjData.cls hd)) (by decide)).trans (MDie.orreryDo_camSwitch (MDie.gear?_of_data ho hd) hl)
    case gear =>
      intro g hd hl hg
      have hx := MDie.gear?_of_data ho hd
      have heff {op : Op} (h : a.op = op) := MDie.eff_orrery t hf h (.inl (congrArg ObjData.cls hd))
      exact ⟨fun h => (heff h (by decide)).trans (MDie.orreryDo_shift hx hl hg),
        fun h => (heff h (by decide)).trans (MDie.orreryDo_ratio hx hl hg)⟩
    case evt =>
      intro c hd hl
      have heff {op : Op} (h : a.op = op) := MDie.eff_orrery t hf h (.inr (.inl (congrArg ObjData.cls hd)))
      exact ⟨fun h => ⟨_, (heff h (by decide)).trans (MDie.orreryDo_evtDisarm ho hl hd)⟩,
        fun h => (heff h (by decide)).trans (MDie.orreryDo_evtArm ho hl)⟩
    case capt =>
      intro c hd hl h
      exact (MDie.eff_orrery t hf h (.inr (.inr (.inl (congrArg ObjData.cls hd)))) (by decide)).trans (MDie.orreryDo_captArm ho hl hd)
    case lclk =>
      intro l hd hl
      have heff {op : Op} (h : a.op = op) := MDie.eff_orrery t hf h (.inr (.inr (.inr (congrArg ObjData.cls hd))))
      exact ⟨fun h => (heff h (by decide)).trans (MDie.orreryDo_lclkArm ho hl hd), fun h => heff h (by decide)⟩
  · intro p s
    have completes (op : Op) (hop : op ∉ actsAtAcceptance) (h : RunsNow op p s) := exec_row_of_runsNow_done h hop
    exact ⟨completes .fbkSetState (by decide), completes .fbkSetPos (by decide), completes .fbkRefIndex (by decide),
      completes .fbkRefCancel (by decide), completes .fbkGetSample (by decide), completes .moveAbs (by decide), completes .moveRel (by decide),
      completes .moveVel (by decide), completes .moveHold (by decide), completes .stop (by decide), completes .stopQuick (by decide),
      completes .axisGetSample (by decide), completes .pathLine (by decide), completes .pathArc (by decide), completes .pathFlush (by decide),
      completes .gearRatio (by decide), completes .gearCamSwitch (by decide), completes .gearShift (by decide), completes .evtArm (by decide),
      completes .evtDisarm (by decide), completes .captArm (by decide), completes .lclkArm (by decide), completes .lclkReg (by decide)⟩

end Sys2Proof.Machine
end

section
/-! PROOFS. The rows of feedback channels and of the pair link to the F die. -/

namespace Sys2Proof.Machine

open Sys2Proof

/-! Time that passes up to a row's own time (R41). -/

theorem MDie.le_ns_passTo (d : MDie) (t : Nat) : t ≤ (d.passTo t).ns := by
  have ht := le_baseCeil t
  simp only [MDie.passTo, MDie.ns]
  split
  · exact ht
  · omega

@[simp] theorem MDie.passTo_fbk? (d : MDie) (t n : Nat) : (d.passTo t).fbk? n = d.fbk? n := by
  simp only [MDie.fbk?, MDie.passTo_obj?]

theorem MDie.whenNs_of_le {d : MDie} {t : Nat} (f : MDie → MDie) (h : t ≤ d.nextTick) : d.whenNs t f = f (d.passTo t) := if_pos h

/-! Feedback channels (R126, R134, R138, R139, R152, R157). -/

theorem exec_fbkSnapshot_of_running (t : Nat) (srcs : List SrcSnap) {s : State} (h : s.md.boot.inReset = false) :
    exec (.fbkSnapshot t srcs) s = .next (s.after (s.md.start.snapshotAt t srcs)) := onDie_of_running s _ h

theorem exec_ampFiltCount_of_running (n : Nat) {s : State} (h : s.md.boot.inReset = false) :
    exec (.ampFiltCount n) s = .next (s.after (s.md.start.fbkAmpCount n)) := onDie_of_running s _ h

theorem exec_indexCrossing_of_running (n : Nat) {s : State} (h : s.md.boot.inReset = false) :
    exec (.indexCrossing n) s = .next (s.after (s.md.start.fbkIndexCheck n)) := onDie_of_running s _ h

theorem exec_speedTimeoutExpiry_of_running (n : Nat) {s : State} (h : s.md.boot.inReset = false) :
    exec (.speedTimeoutExpiry n) s = .next (s.after (s.md.start.speedTimeout n)) := onDie_of_running s _ h

theorem exec_ssiReadStart_of_running (n : Nat) (high : Bool) {s : State} (h : s.md.boot.inReset = false) :
    exec (.ssiReadStart n high) s = .next (s.after (s.md.start.fbkReadStart n high)) := onDie_of_running s _ h

theorem exec_ssiReadComplete_of_running (n : Nat) (frame : BitVec 48) {s : State} (h : s.md.boot.inReset = false) :
    exec (.ssiReadComplete n frame) s = .next (s.after (s.md.start.fbkReadDone n frame.toNat)) := onDie_of_running s _ h

/-- A snapshot lies at a multiple of 500 ns, not in the past and not beyond the next tick. -/
theorem MDie.snapshotAt_of_grid {d : MDie} {t : Nat} (srcs : List SrcSnap) (hgrid : t % 500 = 0) (hnow : d.ns ≤ t) (htick : t ≤ d.nextTick) :
    d.snapshotAt t srcs = (d.passTo t).snapshot t srcs := (if_pos ⟨hgrid, hnow⟩).trans (MDie.whenNs_of_le _ htick)

/-- When the speed timeout of a channel has run since its last base (R157). -/
def Fbk.speedDue (f : Fbk) (ps : Params) : Nat := (f.spd.baseTime + ps.u Par.fbkSpeedTimeout * 1000 : Int).toNat

/-- The channel once its speed timeout has run: speed 0, status bit 7 set and bit 6 clear, and the 1/T method stands next (R157). -/
def Fbk.standing (f : Fbk) : Fbk :=
  { f with
    spd := (speedZero { f.spd with methodT := false } true).sp
    sample := { f.sample with speed := 0, status := f.sample.status % 64 + f.sample.status / 256 * 256 + 128 } }

section Rows

variable {d : MDie} {n : Nat} {o : Obj} {f : Fbk} (hx : d.fbk? n = some (o, f))

include hx

theorem MDie.fbkAmpCount_of_sinCos (hl : o.life = .enabled) (hty : f.type = 0) :
    d.fbkAmpCount n = d.setData n (.fbk { f with mon := ampFilter o.params f.mon }) := by
  simp only [MDie.fbkAmpCount, hx]
  exact if_pos ⟨hl, hty⟩

theorem MDie.fbkIndexCheck_of_fbk : d.fbkIndexCheck n = d.setData n (.fbk (checkIndices o.params f)) := by
  simp only [MDie.fbkIndexCheck, hx]

/-- Once the timeout has run since the last base, the channel counts as standing. -/
theorem MDie.fbkSpeedTimeout_of_due (hl : o.life = .enabled) (hty : f.type ≠ 3) (hdue : f.speedDue o.params ≤ d.ns) :
    d.fbkSpeedTimeout n = d.setData n (.fbk f.standing) := by
  have hrun : f.spd.baseTime + o.params.u Par.fbkSpeedTimeout * 1000 ≤ d.ns := by
    unfold Fbk.speedDue at hdue
    omega
  simp only [MDie.fbkSpeedTimeout, hx]
  exact if_pos ⟨hl, hty, hrun⟩

/-- Time passes to the end of the timeout, and there it has run. -/
theorem MDie.speedTimeout_of_due (hl : o.life = .enabled) (hty : f.type ≠ 3) (htick : f.speedDue o.params ≤ d.nextTick) :
    d.speedTimeout n = (d.passTo (f.speedDue o.params)).setData n (.fbk f.standing) := by
  simp only [MDie.speedTimeout, hx]
  exact (MDie.whenNs_of_le _ htick).trans
    (MDie.fbkSpeedTimeout_of_due ((d.passTo_fbk? _ n).trans hx) hl hty (d.le_ns_passTo _))

theorem MDie.fbkReadStart_of_idle (high : Bool) (hl : o.life = .enabled) (hty : f.type = 3) (hidle : f.cnt.ssiBusy = none) :
    d.fbkReadStart n high = (d.passTo (ssiStart o.params f.cnt.ssiNext)).setData n (.fbk (ssiReadStart o.params f high)) := by
  simp only [MDie.fbkReadStart, hx]
  exact if_pos ⟨hl, hty, Option.isNone_iff_eq_none.2 hidle⟩

theorem MDie.fbkReadDone_of_ssi (frame : Nat) (hl : o.life = .enabled) (hty : f.type = 3) :
    d.fbkReadDone n frame = (d.setData n (.fbk (ssiReadComplete o.params f frame))).fbkMoved n f := by
  simp only [MDie.fbkReadDone, hx]
  exact if_pos ⟨hl, hty⟩

end Rows

/-- Settles O28: each row is that of its channel on the die as the step finds it; at the end of the speed timeout it has run
(`speedTimeout_of_due`). -/
theorem feedbackRows : Obligations.FeedbackRows := by
  refine ⟨fun s n o f hrun hx => ⟨?snapshot, ?amplitude, ?index, ?speed⟩, fun s n o f hrun hx hl hty => ⟨?start, ?done⟩⟩
  case snapshot =>
    intro t srcs hgrid hnow htick
    rw [exec_fbkSnapshot_of_running t srcs hrun, MDie.snapshotAt_of_grid (d := s.md.start) srcs hgrid hnow htick]
  case amplitude =>
    intro hl hty
    rw [exec_ampFiltCount_of_running n hrun, MDie.fbkAmpCount_of_sinCos (d := s.md.start) hx hl hty]
  case index => rw [exec_indexCrossing_of_running n hrun, MDie.fbkIndexCheck_of_fbk (d := s.md.start) hx]
  case speed =>
    intro due hl hty htick
    rw [exec_speedTimeoutExpiry_of_running n hrun, MDie.speedTimeout_of_due (d := s.md.start) hx hl hty htick]
    rfl
  case start =>
    intro high hidle
    rw [exec_ssiReadStart_of_running n high hrun, MDie.fbkReadStart_of_idle (d := s.md.start) hx high hl hty hidle]
  case done =>
    intro frame
    rw [exec_ssiReadComplete_of_running n frame hrun, MDie.fbkReadDone_of_ssi (d := s.md.start) hx _ hl hty]

/-! The pair link (R148, R411). -/

theorem exec_pairLinkLoss_of_running {s : State} (h : s.md.boot.inReset = false) :
    exec .pairLinkLoss s = .next (s.after s.md.start.pairLost) := onDie_of_running s _ h

theorem exec_pairLinkRestored_of_running {s : State} (h : s.md.boot.inReset = false) :
    exec .pairLinkRestored s = .next (s.after s.md.start.pairRestored) := onDie_of_running s _ h

section PairLink

variable {d : MDie}

theorem MDie.pairLost_of_up (h : d.pairLink = true) :
    d.pairLost = (({ d with pairLink := false } : MDie).fbkPairLost d.tick).fioLinkLost d.tick := if_pos h

theorem MDie.pairLost_of_down (h : d.pairLink = false) : d.pairLost = d := if_neg (ne_true_of_eq_false h)

/-- The F die takes its settings back from the M die that has passed boot stage 2. -/
theorem MDie.pairRestored_of_down (h : d.pairLink = false) (hlo : 3 ≤ d.boot.stage) (hhi : d.boot.stage ≤ 5) :
    d.pairRestored = ({ d with pairLink := true } : MDie).logicReturn := by
  have hstage : ¬ (d.pairLink = true ∨ d.boot.stage < 3 ∨ 5 < d.boot.stage) := by simp only [h, Bool.false_eq_true, false_or]; omega
  exact if_neg hstage

theorem MDie.pairRestored_of_up (h : d.pairLink = true) : d.pairRestored = d := if_pos (.inl h)

end PairLink

/-- Settles O29: what is lost or comes back is what `pairLost` and `pairRestored` give by the state of the link; a link that is so already
changes nothing. -/
theorem pairLinkRowsComplete : Obligations.PairLinkRowsComplete := by
  intro s hrun
  rw [exec_pairLinkLoss_of_running hrun, exec_pairLinkRestored_of_running hrun]
  refine ⟨fun hup => ?lost, fun hdown => ?lostAgain, fun hdown hlo hhi => ?restored, fun hup => ?restoredAgain⟩
  case lost =>
    rw [MDie.pairLost_of_up (d := s.md.start) hup]
    rfl
  case lostAgain => rw [MDie.pairLost_of_down (d := s.md.start) hdown]
  case restored => rw [MDie.pairRestored_of_down (d := s.md.start) hdown hlo hhi]
  case restoredAgain => rw [MDie.pairRestored_of_up (d := s.md.start) hup]

end Sys2Proof.Machine
end

section
/-! PROOFS. Edges that leave, pulses that end, and edges at the capture inputs (chapter 9). -/

namespace Sys2Proof.Machine

open Sys2Proof

theorem exec_evtFire_of_running (n : Nat) {s : State} (h : s.md.boot.inReset = false) :
    exec (.evtFire n) s = .next (s.after (s.md.start.edgeLeaves n)) := onDie_of_running s _ h

theorem exec_lclkEdge_of_running (n : Nat) {s : State} (h : s.md.boot.inReset = false) :
    exec (.lclkEdge n) s = .next (s.after (s.md.start.edgeLeaves n)) := onDie_of_running s _ h

theorem exec_pulseEnd_of_running (n : Nat) {s : State} (h : s.md.boot.inReset = false) :
    exec (.pulseEnd n) s = .next (s.after (s.md.start.pulseEnds n)) := onDie_of_running s _ h

theorem exec_capInEdge_of_running (ball pin : Nat) (rising : Bool) (width : Nat) {s : State} (h : s.md.boot.inReset = false) :
    exec (.capInEdge ball pin rising width) s = .next (s.after (s.md.start.capEdge ball pin rising width)) := onDie_of_running s _ h

/-! Time that passes touches no output and no input. -/

@[simp] theorem MDie.passTo_lclkOut (d : MDie) (t : Nat) : (d.passTo t).lclkOut = d.lclkOut := by
  simp only [MDie.passTo]
  split <;> rfl

@[simp] theorem MDie.passTo_capIn (d : MDie) (t : Nat) : (d.passTo t).capIn = d.capIn := by
  simp only [MDie.passTo]
  split <;> rfl

@[simp] theorem MDie.passTo_capSeen (d : MDie) (t : Nat) : (d.passTo t).capSeen = d.capSeen := by
  simp only [MDie.passTo]
  split <;> rfl

/-! What comes first at the outputs (R246, R251, R257). -/

/-- Nothing is to happen before the time of what comes first. -/
theorem MDie.edgesBefore_of_firstDue {d : MDie} {x : Nat × Nat × Nat} (h : firstDue d.edgeDue = some x) (k : Nat) :
    d.edgesBefore x.1 k = d := by
  cases k with
  | zero => rfl
  | succ k => simp only [MDie.edgesBefore, h, Nat.lt_irrefl, if_false]

theorem MDie.edgeRow_of_firstDue {d : MDie} {n kind t : Nat} (h : firstDue d.edgeDue = some (t, kind, n)) (htick : t ≤ d.nextTick) :
    d.edgeRow n kind t = (d.passTo t).edgeDo (t, kind, n) := by
  rw [MDie.edgeRow, if_pos htick, MDie.edgesBefore_of_firstDue h]

section Outputs

variable {d : MDie} {n : Nat} {o : Obj} (ho : d.obj? n = some o)

include ho

section Evt

variable {c : Cmp} (hd : o.data = .evt c)

include hd

theorem MDie.edgeDo_of_evtEdge (t : Nat) : d.edgeDo (t, 1, n) = d.evtFire n := by simp only [MDie.edgeDo, ho, hd]

theorem MDie.edgeDo_of_evtPulse (t : Nat) : d.edgeDo (t, 0, n) = d.evtPulseEnd n := by simp only [MDie.edgeDo, ho, hd]

theorem MDie.edgeLeaves_of_evt {e : EvtEdge} {r : List EvtEdge} (hplaced : c.placed = e :: r)
    (hfirst : firstDue d.edgeDue = some (e.leave, 1, n)) (htick : e.leave ≤ d.nextTick) :
    d.edgeLeaves n = (d.passTo e.leave).evtFire n := by
  simp only [MDie.edgeLeaves, ho, Option.map_some, hd, hplaced]
  rw [MDie.edgeRow_of_firstDue hfirst htick, MDie.edgeDo_of_evtEdge ((d.passTo_obj? _ n).trans ho) hd]

theorem MDie.pulseEnds_of_evt {t : Nat} (hpulse : c.pulseEnd = some t) (hfirst : firstDue d.edgeDue = some (t, 0, n))
    (htick : t ≤ d.nextTick) : d.pulseEnds n = (d.passTo t).evtPulseEnd n := by
  simp only [MDie.pulseEnds, ho, Option.map_some, hd, hpulse]
  rw [MDie.edgeRow_of_firstDue hfirst htick, MDie.edgeDo_of_evtPulse ((d.passTo_obj? _ n).trans ho) hd]

end Evt

section LineClock

variable {l : Lclk} (hd : o.data = .lclk l)

include hd

theorem MDie.edgeDo_of_lclkEdge (t : Nat) : d.edgeDo (t, 1, n) = d.lclkFire n := by simp only [MDie.edgeDo, ho, hd]

theorem MDie.edgeDo_of_lclkPulse (t : Nat) : d.edgeDo (t, 0, n) = d.lclkPulseEnd n := by simp only [MDie.edgeDo, ho, hd]

theorem MDie.edgeLeaves_of_lclk {e : LineEdge} {r : List LineEdge} (hplaced : l.placed = e :: r)
    (hfirst : firstDue d.edgeDue = some (e.leave, 1, n)) (htick : e.leave ≤ d.nextTick) :
    d.edgeLeaves n = (d.passTo e.leave).lclkFire n := by
  simp only [MDie.edgeLeaves, ho, Option.map_some, hd, hplaced]
  rw [MDie.edgeRow_of_firstDue hfirst htick, MDie.edgeDo_of_lclkEdge ((d.passTo_obj? _ n).trans ho) hd]

theorem MDie.pulseEnds_of_lclk {t : Nat} (hpulse : l.pulseEnd = some t) (hfirst : firstDue d.edgeDue = some (t, 0, n))
    (htick : t ≤ d.nextTick) : d.pulseEnds n = (d.passTo t).lclkPulseEnd n := by
  simp only [MDie.pulseEnds, ho, Option.map_some, hd, hpulse]
  rw [MDie.edgeRow_of_firstDue hfirst htick, MDie.edgeDo_of_lclkPulse ((d.passTo_obj? _ n).trans ho) hd]

/-- An edge that leaves drives the ball of its output to the active level, and no other ball. -/
theorem MDie.lclkFire_lclkOut {e : LineEdge} {r : List LineEdge} (hplaced : l.placed = e :: r) :
    (d.lclkFire n).lclkOut = d.lclkOut.set l.output true := by
  simp only [MDie.lclkFire, MDie.lclk?_of_data ho hd, hplaced, MDie.emit_lclkOut]

end LineClock

/-- The pulse of a field output ends without regard to the other outputs. -/
theorem MDie.pulseEnds_of_fio {k t : Nat} {ch : Chan} (hd : o.data = .fio k) (hch : d.field.chans[k]? = some ch)
    (hpulse : ch.out.pulseEnd = some t) (htick : t ≤ d.nextTick) : d.pulseEnds n = (d.passTo t).fioTimers k t := by
  simp only [MDie.pulseEnds, ho, Option.map_some, hd, hch, Option.bind_some, hpulse]
  exact MDie.whenNs_of_le _ htick

end Outputs

/-! Capture inputs (R136, R252, R253). -/

section Inputs

variable {d : MDie} {ball : Nat} {level : Bool} (pin width : Nat)

theorem MDie.capEdge_of_change (hball : ball < 8) (hlevel : d.capIn.getD ball false ≠ level) (htick : pin ≤ d.nextTick) :
    d.capEdge ball pin level width = (d.passTo pin).capBall ball level pin width :=
  (if_pos ⟨hball, hlevel⟩).trans (MDie.whenNs_of_le _ htick)

theorem MDie.capEdge_of_same (hlevel : d.capIn.getD ball false = level) : d.capEdge ball pin level width = d :=
  if_neg fun h => h.2 hlevel

/-- A level that passes the deglitch and is not the one seen before is offered to the channels. -/
theorem MDie.capBall_of_passed (hwidth : 10 ≤ width) (hseen : d.capSeen.getD ball false ≠ level) :
    d.capBall ball level pin width =
      ({ d with capIn := d.capIn.set ball level, capSeen := d.capSeen.set ball level } : MDie).captEdge 0 ball level pin width := by
  simp only [MDie.capBall, hwidth, decide_true, Bool.true_or, Bool.not_true, Bool.false_or, beq_iff_eq, hseen, if_false]

/-- A level of less than 5 ns, and the level seen before, go no further than the pin. -/
theorem MDie.capBall_of_ignored (h : width < 5 ∨ d.capSeen.getD ball false = level) :
    d.capBall ball level pin width = { d with capIn := d.capIn.set ball level } := by
  rcases h with hwidth | hseen
  · have h5 : ¬ 5 ≤ width := Nat.not_le.2 hwidth
    have h10 : ¬ 10 ≤ width := fun h => h5 (Nat.le_trans (by decide) h)
    simp only [MDie.capBall, h5, h10, decide_false, Bool.false_and, Bool.or_false, Bool.not_false, Bool.true_or, if_true]
  · simp only [MDie.capBall, hseen, BEq.rfl, Bool.or_true, if_true]

end Inputs

/-- Settles O31: what comes first at the outputs leaves or ends at its time (`edgeLeaves_of_evt` and the lemmas beside it); at an input,
`capEdge` finds whether there is an edge and `capBall` whether it passes. -/
theorem positionEdges : Obligations.PositionEdges := by
  refine ⟨fun s n o hrun ho => ⟨?evtEdge, ?lclkEdge, ?evtPulse, ?lclkPulse, ?fioPulse⟩,
    fun s ball pin width rising hrun hball => ⟨?change, ?passed, ?ignored, ?same⟩⟩
  case evtEdge =>
    intro c e r hd hplaced hfirst htick
    rw [exec_evtFire_of_running n hrun, MDie.edgeLeaves_of_evt (d := s.md.start) ho hd hplaced hfirst htick]
  case lclkEdge =>
    intro l e r hd hplaced hfirst htick
    rw [exec_lclkEdge_of_running n hrun, MDie.edgeLeaves_of_lclk (d := s.md.start) ho hd hplaced hfirst htick,
      MDie.lclkFire_lclkOut ((s.md.start.passTo_obj? _ n).trans ho) hd hplaced, MDie.passTo_lclkOut]
    exact ⟨rfl, rfl⟩
  case evtPulse =>
    intro c t hd hpulse hfirst htick
    rw [exec_pulseEnd_of_running n hrun, MDie.pulseEnds_of_evt (d := s.md.start) ho hd hpulse hfirst htick]
  case lclkPulse =>
    intro l t hd hpulse hfirst htick
    rw [exec_pulseEnd_of_running n hrun, MDie.pulseEnds_of_lclk (d := s.md.start) ho hd hpulse hfirst htick]
  case fioPulse =>
    intro k ch t hd hch hpulse htick
    rw [exec_pulseEnd_of_running n hrun, MDie.pulseEnds_of_fio (d := s.md.start) ho hd hch hpulse htick]
  case change =>
    intro hlevel htick
    rw [exec_capInEdge_of_running _ _ _ _ hrun, MDie.capEdge_of_change (d := s.md.start) pin width hball hlevel htick]
  case passed =>
    intro hwidth hseen
    rw [MDie.capBall_of_passed pin width hwidth (by rwa [MDie.passTo_capSeen]), MDie.passTo_capIn, MDie.passTo_capSeen]
    rfl
  case ignored =>
    intro h
    rw [MDie.capBall_of_ignored pin width (by rwa [MDie.passTo_capSeen]), MDie.passTo_capIn]
    rfl
  case same =>
    intro hlevel
    rw [exec_capInEdge_of_running _ _ _ _ hrun, MDie.capEdge_of_same (d := s.md.start) pin width hlevel]

end Sys2Proof.Machine
end

section
/-! PROOFS. Engine halts, gates, following errors and the settling of loop groups (chapter 10). -/

namespace Sys2Proof.Machine

open Sys2Proof

theorem exec_engineHaltTakesEffect_of_running (e : Nat) {s : State} (h : s.md.boot.inReset = false) :
    exec (.engineHaltTakesEffect e) s = .next (s.after (s.md.start.engineHalt e)) := onDie_of_running s _ h

theorem exec_loopGate_of_running (n : Nat) {s : State} (h : s.md.boot.inReset = false) :
    exec (.loopGate n) s = .next (s.after ((s.md.start.passTo (s.md.tick + 1000)).gateOf n)) := onDie_of_running s _ h

theorem exec_feTimeReached_of_running (n i : Nat) {s : State} (h : s.md.boot.inReset = false) :
    exec (.feTimeReached n i) s = .next (s.after (s.md.start.lgrpFeReached n i)) := onDie_of_running s _ h

theorem exec_settleReached_of_running (n : Nat) {s : State} (h : s.md.boot.inReset = false) :
    exec (.settleReached n) s = .next (s.after (s.md.start.lgrpSettled n (s.md.tickOf n))) := onDie_of_running s _ h

/-! Time that passes touches no engine and no group. -/

@[simp] theorem MDie.passTo_engines (d : MDie) (t : Nat) : (d.passTo t).engines = d.engines := by
  simp only [MDie.passTo]
  split <;> rfl

@[simp] theorem MDie.passTo_tick (d : MDie) (t : Nat) : (d.passTo t).tick = d.tick := by
  simp only [MDie.passTo]
  split <;> rfl

@[simp] theorem MDie.passTo_lgrp? (d : MDie) (t n : Nat) : (d.passTo t).lgrp? n = d.lgrp? n := by
  simp only [MDie.lgrp?, MDie.passTo_obj?]

/-! Engines (R330, R598, R599). -/

/-- The engine once its halt has taken effect. -/
def Engine.stopped (x : Engine) (now : Nat) : Engine :=
  { x with haltReq := false, halted := true, resumeReq := false, since := now, stepping := none }

section Engine

variable {d : MDie} {e : Nat} {x : Engine} (he : d.engines[e]? = some x)

include he

theorem MDie.modEngine_of_engine (f : Engine → Engine) : d.modEngine e f = { d with engines := d.engines.set e (f x) } := by
  simp only [MDie.modEngine, listMod, he]

theorem MDie.engineHalt_of_requested (h : x.haltReq = true) :
    d.engineHalt e = ({ d with engines := d.engines.set e (x.stopped d.upNs) } : MDie).post 0
      (report Evt.engineHalted d.tick (d8 e ++ d8 1 ++ d16 0 ++ d32 0)) := by
  simp only [MDie.engineHalt, he, h, Bool.not_true, Bool.false_eq_true, if_false, MDie.modEngine_of_engine he]
  rfl

theorem MDie.engineHalt_of_notRequested (h : x.haltReq = false) : d.engineHalt e = d := by
  simp only [MDie.engineHalt, he, h, Bool.not_false, if_true]

theorem MDie.engineResume_of_running (h : x.halted = false) : d.engineResume e = d := by
  simp only [MDie.engineResume, he, h, Bool.not_false, true_or, if_true]

theorem MDie.debugStep_of_notStepping (t : Nat) (h : x.stepping = none) : d.debugStep e t = d := by
  simp only [MDie.debugStep, he, h]

end Engine

/-! Loop groups (R282, R290, R291). -/

section Group

variable {d : MDie} {n : Nat} {o : Obj} {g : Lgrp} (hg : d.lgrp? n = some (o, g))

include hg

/-- Where debug asks nothing of the engine, the gate of the tick is all there is to do. -/
theorem MDie.gateOf_of_running {x : Engine} (he : d.engines[g.engine]? = some x) (hreq : x.haltReq = false) (hrun : x.halted = false)
    (hstep : x.stepping = none) : d.gateOf n = d.lgrpGate n d.tick := by
  simp only [MDie.gateOf, hg, MDie.engineHalt_of_notRequested he hreq, MDie.engineResume_of_running he hrun,
    MDie.debugStep_of_notStepping he _ hstep]

theorem MDie.lgrpFeReached_of_due {i : Nat} (hi : i < 4) (hl : o.life = .enabled) (hrun : d.lgrpHalted g = false)
    (hlimit : o.params.u Par.lgrpFeLimit i ≠ 0) (hpos : 0 < g.feCount.getD i 0)
    (hdue : o.params.u Par.lgrpFeTime i ≤ g.feCount.getD i 0) :
    d.lgrpFeReached n i = (d.setData n (.lgrp { g with feHit := g.feHit.set i true })).lgrpFeFault n i (d.tickOf n) := by
  simp only [MDie.lgrpFeReached, hg]
  exact if_pos ⟨hl, hrun, hi, hlimit, hpos, hdue⟩

theorem MDie.lgrpSettled_of_due (t : Nat) (hl : o.life = .draining) (hrun : d.lgrpHalted g = false) (hdrop : g.dropAt = none)
    (hdue : o.params.u Par.lgrpSettle ≤ g.settle) :
    d.lgrpSettled n t = ((d.lgrpAxes n).foldl (fun d x => d.axisStill x.2.1) d).toIdle n t := by
  simp only [MDie.lgrpSettled, hg]
  exact if_pos ⟨hl, hrun, Option.isNone_iff_eq_none.2 hdrop, hdue⟩

end Group

/-- Settles O32: each row is that of its engine or group on the die as the step finds it; an engine of which debug asks nothing goes straight
to the gate (`gateOf_of_running`). -/
theorem enginesAndLoops : Obligations.EnginesAndLoops := by
  refine ⟨fun s e x hrun he => ⟨?requested, ?notRequested⟩, fun s n o g hrun hg => ⟨?gate, ?followingError, ?settled⟩⟩
  case requested =>
    intro hreq
    rw [exec_engineHaltTakesEffect_of_running e hrun, MDie.engineHalt_of_requested (d := s.md.start) he hreq]
    rfl
  case notRequested =>
    intro hreq
    rw [exec_engineHaltTakesEffect_of_running e hrun, MDie.engineHalt_of_notRequested (d := s.md.start) he hreq]
  case gate =>
    intro x he hreq hlive hstep
    have hg' := (s.md.start.passTo_lgrp? (s.md.tick + 1000) n).trans hg
    have he' := (congrArg (·[g.engine]?) (s.md.start.passTo_engines (s.md.tick + 1000))).trans he
    rw [exec_loopGate_of_running n hrun, MDie.gateOf_of_running hg' he' hreq hlive hstep, MDie.passTo_tick]
    rfl
  case followingError =>
    intro i hi hl hlive hlimit hpos hdue
    rw [exec_feTimeReached_of_running n i hrun, MDie.lgrpFeReached_of_due (d := s.md.start) hg hi hl hlive hlimit hpos hdue]
    rfl
  case settled =>
    intro hl hlive hdrop hdue
    rw [exec_settleReached_of_running n hrun, MDie.lgrpSettled_of_due (d := s.md.start) hg _ hl hlive hdrop hdue]

end Sys2Proof.Machine
end

section
/-! PROOFS. Commands of loop groups, traces, PWM groups, drive lanes, field channels and safety objects at their tick. -/

namespace Sys2Proof.Machine

open Sys2Proof

/-! An opcode that goes to the block of its target's class, or of `SYSTEM` (R70). -/

section Eff

variable {d : MDie} {a : Action} {n : Nat} {o : Obj} {op : Op} (t : Nat) (hf : d.find a.pkt.target = some (n, o)) (h : a.op = op)

include hf h

/-- Which block it is depends on the kind of the target alone. -/
theorem MDie.eff_of_data {x : ObjData} (hd : o.data = x) (hs : x.cls ≠ .system) (hop : op ∉ effOfOwn) :
    d.eff a t = d.objDo op n t { o with data := x } a.pkt.body := by
  subst hd
  exact MDie.eff_of_classOp t hf h hop hs

theorem MDie.eff_lgrp {g : Lgrp} (hd : o.data = .lgrp g) (hop : op ∉ effOfOwn) : d.eff a t = d.lgrpDo op n t a.pkt.body :=
  MDie.eff_of_data t hf h hd nofun hop

theorem MDie.eff_trace {x : Trace} (hd : o.data = .trace x) (hop : op ∉ effOfOwn) : d.eff a t = d.traceDo op n t a.pkt.body :=
  MDie.eff_of_data t hf h hd nofun hop

theorem MDie.eff_pwmg {g : Pwmg} (hd : o.data = .pwmg g) (hop : op ∉ effOfOwn) : d.eff a t = (d.pwmDo op n t a.pkt.body, noResult) :=
  MDie.eff_of_data t hf h hd nofun hop

theorem MDie.eff_lane {l : Lane} (hd : o.data = .dlane l) (hop : op ∉ effOfOwn) : d.eff a t = d.laneDo op n a.pkt.body :=
  MDie.eff_of_data t hf h hd nofun hop

theorem MDie.eff_fio {k : Nat} (hd : o.data = .fio k) (hop : op ∉ effOfOwn) : d.eff a t = d.fioDo op n t a.pkt.body :=
  MDie.eff_of_data t hf h hd nofun hop

theorem MDie.eff_safe {k : Nat} (hd : o.data = .safe k) (hop : op ∉ effOfOwn) : d.eff a t = (d, d.safeLog a.pkt.body) :=
  MDie.eff_of_data t hf h hd nofun hop

/-- Reads and writes of all field channels are addressed to `SYSTEM` (R416). -/
theorem MDie.eff_fieldOfSystem (hd : o.data = .system) (hop : op = .fioReadAll ∨ op = .fioWriteMask) :
    d.eff a t = d.fioDo op 0 t a.pkt.body := by
  have hs : o.cls = .system := congrArg ObjData.cls hd
  rcases hop with rfl | rfl <;> simp only [MDie.eff, h, hf, hs, if_true, MDie.sysDo]

end Eff

/-- A group that is CREATED or DISABLED does not run. -/
theorem Life.not_running {l : Life} (h : l = .created ∨ l = .disabled) : ¬ (l = .enabled ∨ l = .draining) := by
  rcases h with rfl | rfl <;> decide

section ByClass

variable {d : MDie} {n : Nat} {o : Obj} (ho : d.obj? n = some o)

include ho

theorem MDie.lgrp?_of_data {g : Lgrp} (hd : o.data = .lgrp g) : d.lgrp? n = some (o, g) := by simp only [MDie.lgrp?, ho, hd]

theorem MDie.pwmg?_of_data {g : Pwmg} (hd : o.data = .pwmg g) : d.pwmg? n = some (o, g) := by simp only [MDie.pwmg?, ho, hd]

theorem MDie.lane?_of_data {l : Lane} (hd : o.data = .dlane l) : d.lane? n = some (o, l) := by simp only [MDie.lane?, ho, hd]

end ByClass

/-! Loop groups (R286 … R288, R295, R326, R334). -/

section Lgrp

variable {d : MDie} {n : Nat} {o : Obj} {g : Lgrp} (t : Nat) (b : List Byte) (hg : d.lgrp? n = some (o, g))

include hg

theorem MDie.lgrpDo_coefWrite :
    d.lgrpDo .lgrpCoefWrite n t b = (d.setData n (.lgrp (g.coefWrite (rdU b 0 1) (rdU b 4 4) ((b.drop 8).take (rdU b 2 2)))), noResult) := by
  simp only [MDie.lgrpDo, hg]

/-- A running group exchanges its banks at its next gate. -/
theorem MDie.lgrpDo_bankSwap_of_running (hl : o.life = .enabled ∨ o.life = .draining) :
    d.lgrpDo .lgrpBankSwap n t b =
      (d.setData n (.lgrp { g with active := 1 - g.active, swapNow := true }), ⟨BitVec.ofNat 64 (1 - g.active), 0⟩) := by
  simp only [MDie.lgrpDo, hg, hl, decide_true, if_true]

/-- One that does not run has exchanged them at once. -/
theorem MDie.lgrpDo_bankSwap_of_notRunning (hl : ¬ (o.life = .enabled ∨ o.life = .draining)) :
    d.lgrpDo .lgrpBankSwap n t b =
      ((d.setData n (.lgrp { g with active := 1 - g.active, swapNow := false })).post n
        (report Evt.bankSwapped t (d8 (1 - g.active) ++ [0, 0])), ⟨BitVec.ofNat 64 (1 - g.active), 0⟩) := by
  simp only [MDie.lgrpDo, hg, hl, decide_false, Bool.false_eq_true, if_false]

theorem MDie.lgrpDo_resetState (hl : o.life = .enabled) :
    d.lgrpDo .lgrpResetState n t b =
      (d.setData n (.lgrp (g.resetState (bitOf (rdU b 0 1) 0) (bitOf (rdU b 0 1) 1) (bitOf (rdU b 0 1) 2))), noResult) := by
  simp only [MDie.lgrpDo, hg, hl, ne_eq, not_true_eq_false, if_false]

/-- Where the gate of the tick has not run, the flags taken are those that stand. -/
theorem MDie.lgrpDo_takeFlags (hgate : g.gateTick ≠ some t) :
    d.lgrpDo .lgrpTakeFlags n t b =
      (d.setData n (.lgrp { g with satFlags := g.satFlags - (g.satFlags &&& g.satFlags), satStart := 0 }), ⟨BitVec.ofNat 64 g.satFlags, 0⟩) := by
  simp only [MDie.lgrpDo, hg, hgate, if_false]

theorem MDie.lgrpDo_stepWrite_of_running (hl : o.life = .enabled ∨ o.life = .draining) : d.lgrpDo .lgrpStepWrite n t b = (d, noResult) := by
  simp only [MDie.lgrpDo, hg, hl, decide_true, if_true]

/-- Section 0 is the inner one. -/
theorem MDie.lgrpDo_stepWrite_inner (hl : ¬ (o.life = .enabled ∨ o.life = .draining)) (hsec : rdU b 0 1 = 0) :
    d.lgrpDo .lgrpStepWrite n t b =
      let new := (List.range (rdU b 2 2 / 8)).map (fun i => BitVec.ofNat 64 (rdU b (8 + 8 * i) 8))
      (d.setData n (.lgrp { g with inner := { g.inner with steps := writeSteps g.inner.steps (rdU b 4 4 / 8) new } }), noResult) := by
  simp only [MDie.lgrpDo, hg, hl, hsec, decide_false, Bool.false_eq_true, Nat.zero_ne_one, if_false]

theorem MDie.lgrpDo_stepRead_fst : (d.lgrpDo .lgrpStepRead n t b).1 = d := by
  simp only [MDie.lgrpDo, hg]

end Lgrp

/-! Traces (R331, R334). -/

section Trace

variable {d : MDie} {n : Nat} {o : Obj} {x : Trace} (t : Nat) (b : List Byte) (hx : d.trace? n = some (o, x))

include hx

theorem MDie.traceDo_arm (hl : o.life = .enabled) : d.traceDo .traceArm n t b = (d.setData n (.trace x.arm), noResult) := by
  simp only [MDie.traceDo, hx, hl, ne_eq, not_true_eq_false, if_false]

theorem MDie.traceDo_stop :
    d.traceDo .traceStop n t b =
      ((d.setData n (.trace (x.halt t 3).1)).postAll n (x.halt t 3).2, ⟨BitVec.ofNat 64 ((x.halt t 3).1.writeIdx % 2 ^ 32), 0⟩) := by
  simp only [MDie.traceDo, hx]

theorem MDie.traceDo_read_fst : (d.traceDo .traceRead n t b).1 = d := by
  simp only [MDie.traceDo, hx]

end Trace

/-! PWM groups (R345, R352, R361). -/

section Pwmg

variable {d : MDie} {n : Nat} {o : Obj} {g : Pwmg} (t : Nat) (b : List Byte) (hg : d.pwmg? n = some (o, g)) (hl : o.life = .enabled)

include hg hl

theorem MDie.pwmDo_loadAll : d.pwmDo .pwmLoadAll n t b = d.setData n (.pwmg (g.loadAll 0)) := by
  simp only [MDie.pwmDo, MDie.pwmLoad, hg, hl, ne_eq, not_true_eq_false, if_false, if_true]

theorem MDie.pwmDo_force :
    d.pwmDo .pwmForce n t b =
      let v := if bitOf (rdU b 3 1) 0 then none else some (rdU b 2 1)
      d.setData n (.pwmg { g with force := (pairsOf (rdU b 0 2)).foldl (fun l i => l.set i v) g.force }) := by
  simp only [MDie.pwmDo, hg, hl, ne_eq, not_true_eq_false, if_false]

/-- A write of no pair that asks for no load writes the period alone. -/
theorem MDie.pwmDo_write_period (hload : bitOf (rdU b 2 1) 0 = false) (hper : bitOf (rdU b 2 1) 1 = true) (hmask : rdU b 0 2 = 0) :
    d.pwmDo .pwmWrite n t b = d.pwmShadow n t [(Par.pwmgPeriod, 0, BitVec.ofNat 64 (rdU b 4 2))] := by
  have hpairs : pairsOf 0 = [] := by decide
  simp only [MDie.pwmDo, hg, hl, hload, hper, hmask, hpairs, ne_eq, not_true_eq_false, Bool.false_eq_true, if_false, if_true,
    List.zipIdx_nil, List.flatMap_nil, List.append_nil]

end Pwmg

/-! Drive lanes (R392). -/

section Lane

variable {d : MDie} {n : Nat} {o : Obj} {l : Lane} (b : List Byte) (hx : d.lane? n = some (o, l))

include hx

theorem MDie.laneDo_stageReset : d.laneDo .dlaneStageReset n b = (d.setData n (.dlane { l with lctrl := l.lctrl ||| rdU b 0 1 }), noResult) := by
  simp only [MDie.laneDo, hx]

theorem MDie.laneDo_getUplink : d.laneDo .dlaneGetUplink n b = (d, l.uplinkWords (rdU b 0 1)) := by
  simp only [MDie.laneDo, hx]

end Lane

/-! Field channels (R408, R416). -/

theorem MDie.fioDo_reset {d : MDie} {n : Nat} {o : Obj} {ch : Chan} (t : Nat) (b : List Byte) (ho : d.obj? (32 + (n - 32)) = some o)
    (hch : d.field.chans[n - 32]? = some ch) (hl : o.life = .enabled) :
    d.fioDo .fioReset n t b = (d.setChan (n - 32) ch.reset, noResult) := by
  simp only [MDie.fioDo, MDie.chan?, ho, hch, hl, if_true]

theorem MDie.fioDo_writeMask_of_none (d : MDie) (n t : Nat) {b : List Byte} (hmask : rdU b 0 4 = 0) :
    d.fioDo .fioWriteMask n t b = (d, noResult) := by
  have hnone : bitsOfMask 0 = [] := by decide
  simp only [MDie.fioDo, hmask, hnone, List.foldl_nil]

/-- Settles O16: an opcode goes to the block of its target's class (`eff_lgrp`, `eff_trace`, `eff_pwmg`, `eff_lane`, `eff_fio`, `eff_safe`) or
of `SYSTEM` (`eff_fieldOfSystem`), and each block's lemma gives the effect; a packet completes by `exec_row_of_runsNow_done`. -/
theorem driveCommandEffects : Obligations.DriveCommandEffects := by
  constructor
  · intro d a t n o hf b
    have ho := (d.find_obj? _ n o hf).2
    refine ⟨?lgrp, ?trace, ?pwmg, ?lane, ?fioReset, ?fioReadAll, ?fioWriteMask, ?safe⟩
    case lgrp =>
      intro g hd
      have hg := MDie.lgrp?_of_data ho hd
      have heff {op : Op} (h : a.op = op) := MDie.eff_lgrp t hf h hd
      exact ⟨fun h => (heff h (by decide)).trans (MDie.lgrpDo_coefWrite t b hg),
        fun h hl => (heff h (by decide)).trans (MDie.lgrpDo_bankSwap_of_running t b hg hl),
        fun h hl => (heff h (by decide)).trans (MDie.lgrpDo_bankSwap_of_notRunning t b hg (Life.not_running hl)),
        fun h hl => (heff h (by decide)).trans (MDie.lgrpDo_resetState t b hg hl),
        fun h hgate => (heff h (by decide)).trans (MDie.lgrpDo_takeFlags t b hg hgate),
        fun h hl => (heff h (by decide)).trans (MDie.lgrpDo_stepWrite_of_running t b hg hl),
        fun h hl hsec => (heff h (by decide)).trans (MDie.lgrpDo_stepWrite_inner t b hg (Life.not_running hl) hsec),
        fun h => (congrArg Prod.fst (heff h (by decide))).trans (MDie.lgrpDo_stepRead_fst t b hg)⟩
    case trace =>
      intro x hd
      have hx := MDie.trace?_of_data ho hd
      have heff {op : Op} (h : a.op = op) := MDie.eff_trace t hf h hd
      exact ⟨fun h hl => (heff h (by decide)).trans (MDie.traceDo_arm t b hx hl),
        fun h => (heff h (by decide)).trans (MDie.traceDo_stop t b hx),
        fun h => (congrArg Prod.fst (heff h (by decide))).trans (MDie.traceDo_read_fst t b hx)⟩
    case pwmg =>
      intro g hd hl
      have hg := MDie.pwmg?_of_data ho hd
      refine ⟨fun h => ?_, fun h => ?_, fun h hload hper hmask => ?_⟩
      · rw [MDie.eff_pwmg t hf h hd (by decide), MDie.pwmDo_loadAll t _ hg hl]
      · rw [MDie.eff_pwmg t hf h hd (by decide), MDie.pwmDo_force t _ hg hl]
      · rw [MDie.eff_pwmg t hf h hd (by decide), MDie.pwmDo_write_period t _ hg hl hload hper hmask]
    case lane =>
      intro l hd
      have hx := MDie.lane?_of_data ho hd
      exact ⟨fun h => (MDie.eff_lane t hf h hd (by decide)).trans (MDie.laneDo_stageReset b hx),
        fun h => (MDie.eff_lane t hf h hd (by decide)).trans (MDie.laneDo_getUplink b hx)⟩
    case fioReset =>
      exact fun k ch hd hl h hch ho' => (MDie.eff_fio t hf h hd (by decide)).trans (MDie.fioDo_reset t b ho' hch hl)
    case fioReadAll => exact fun hd h => MDie.eff_fieldOfSystem t hf h hd (.inl rfl)
    case fioWriteMask =>
      exact fun hd h hmask => (MDie.eff_fieldOfSystem t hf h hd (.inr rfl)).trans (d.fioDo_writeMask_of_none 0 t hmask)
    case safe => exact fun k hd h => MDie.eff_safe t hf h hd (by decide)
  · intro p s
    have completes (op : Op) (hop : op ∉ actsAtAcceptance) (h : RunsNow op p s) := exec_row_of_runsNow_done h hop
    exact ⟨completes .lgrpCoefWrite (by decide), completes .lgrpBankSwap (by decide), completes .lgrpResetState (by decide),
      completes .lgrpTakeFlags (by decide), completes .lgrpStepWrite (by decide), completes .lgrpStepRead (by decide),
      completes .traceArm (by decide), completes .traceStop (by decide), completes .traceRead (by decide), completes .pwmWrite (by decide),
      completes .pwmLoadAll (by decide), completes .pwmForce (by decide), completes .dlaneStageReset (by decide),
      completes .dlaneGetUplink (by decide), completes .fioWriteMask (by decide), completes .fioReset (by decide),
      completes .fioReadAll (by decide), completes .safeReadLog (by decide)⟩

end Sys2Proof.Machine
end

section
/-! PROOFS. PWM groups at their boundaries, triggers and fault inputs, the levels of their pairs, and sigma-delta results (chapter 11). -/

namespace Sys2Proof.Machine

open Sys2Proof

theorem exec_pwmBoundary_of_running (n : Nat) {s : State} (h : s.md.boot.inReset = false) :
    exec (.pwmBoundary n) s = .next (s.after (s.md.start.boundaryRow n)) := onDie_of_running s _ h

theorem exec_pwmTriggerFire_of_running (n trig : Nat) {s : State} (h : s.md.boot.inReset = false) :
    exec (.pwmTriggerFire n trig) s = .next (s.after (s.md.start.triggerRow n trig)) := onDie_of_running s _ h

theorem exec_pwmFaultInputLow_of_running (i clocks : Nat) {s : State} (h : s.md.boot.inReset = false) :
    exec (.pwmFaultInputLow i clocks) s = .next (s.after
      (if i < 4 then (s.md.start.pwmBefore (s.md.ns + 1)).pwmInputLow i clocks else s.md.start)) := onDie_of_running s _ h

theorem exec_pwmFaultInputHigh_of_running (i : Nat) {s : State} (h : s.md.boot.inReset = false) :
    exec (.pwmFaultInputHigh i) s = .next (s.after
      (if i < 4 then (s.md.start.pwmBefore (s.md.ns + 1)).pwmInputHigh i else s.md.start)) := onDie_of_running s _ h

theorem exec_sdinResult_of_running (k : Nat) (bits : List Bool) {s : State} (h : s.md.boot.inReset = false) :
    exec (.sdinResult k bits) s = .next (s.after (s.md.start.sdinResult (64 + k) bits)) := onDie_of_running s _ h

/-! Boundaries and triggers (R344, R348). -/

section Rows

variable {d : MDie} {n : Nat} {o : Obj} {g : Pwmg} (hg : d.pwmg? n = some (o, g))

include hg

theorem MDie.boundaryRow_of_due (htick : nsOfCc g.next ≤ d.nextTick) :
    d.boundaryRow n = MDie.fired ((d.passTo (nsOfCc g.next)).pwmBoundary n) n := by
  simp only [MDie.boundaryRow, hg]
  exact MDie.whenNs_of_le _ htick

/-- The first firing of the trigger before the next tick is the one that comes. -/
theorem MDie.triggerRow_of_due {trig : Nat} {f : Nat × Nat} (hl : o.life = .enabled) (hrun : d.frozen = false)
    (hf : (g.triggers o.params (ccOf d.nextTick)).2.find? (fun f => decide (f.1 = trig)) = some f) (htick : nsOfCc f.2 ≤ d.nextTick) :
    d.triggerRow n trig = MDie.fired ((d.passTo (nsOfCc f.2)).pwmTriggers n f.2) n := by
  simp only [MDie.triggerRow, hg, hl, hrun, hf, ne_eq, not_true_eq_false, false_and, Bool.false_eq_true, or_self, if_false]
  exact MDie.whenNs_of_le _ htick

end Rows

/-! Fault inputs (R349, R350, R354, log 137). -/

/-- The die once a fault input has gone low, with the free values drawn for the latency and, of a pulse under two clocks, its detection. -/
def MDie.pulledLow (d : MDie) (i clocks : Nat) : MDie :=
  { d with pwmFault := d.pwmFault.set i true, free := d.free + (if clocks < 2 then 2 else 1) }

/-- A low level of two clocks is seen; a shorter one may be. -/
def MDie.lowSeen (d : MDie) (clocks : Nat) : Prop := 2 ≤ clocks ∨ Config.free (d.free + 1) 2 % 2 = 1

/-- Counter clocks from a fault input to the balls. -/
def MDie.faultLatency (d : MDie) : Nat := Config.free d.free 11 % 11

section Low

variable {d : MDie} {i clocks : Nat} (hrun : d.frozen = false)

include hrun

theorem MDie.pwmInputLow_of_seen (h : d.lowSeen clocks) :
    d.pwmInputLow i clocks =
      let d' := (d.pulledLow i clocks).pwmFaultAll i clocks
      d'.gatesSet 0xFFF (ccOf d'.ns + d.faultLatency) := by
  have hrun' : ({ d with pwmFault := d.pwmFault.set i true } : MDie).frozen = false := hrun
  unfold MDie.pwmInputLow
  by_cases hshort : clocks < 2
  · have hfree : Config.free (d.free + 1) 2 % max 2 1 = 1 := h.resolve_left (Nat.not_le.2 hshort)
    simp only [hrun', hshort, MDie.draw, hfree, MDie.pulledLow, MDie.faultLatency, Bool.false_eq_true, if_false, if_true]
    rfl
  · simp only [hrun', hshort, MDie.draw, MDie.pulledLow, MDie.faultLatency, Bool.false_eq_true, if_false, if_true]
    rfl

theorem MDie.pwmInputLow_of_unseen (h : ¬ d.lowSeen clocks) :
    d.pwmInputLow i clocks = (d.pulledLow i clocks).gatesSet 0xFFF (ccOf d.ns + d.faultLatency) := by
  have hrun' : ({ d with pwmFault := d.pwmFault.set i true } : MDie).frozen = false := hrun
  obtain ⟨hlong, hfree⟩ := not_or.1 h
  have hshort : clocks < 2 := Nat.not_le.1 hlong
  have hfree' : ¬ Config.free (d.free + 1) 2 % max 2 1 = 1 := hfree
  simp only [MDie.pwmInputLow, hrun', hshort, MDie.draw, hfree', MDie.pulledLow, MDie.faultLatency, Bool.false_eq_true, if_false, if_true]
  rfl

end Low

section Single

variable {d : MDie} {i n : Nat} {o : Obj} {g : Pwmg} (hs : d.slotsOf .pwmg = [n]) (hg : d.pwmg? n = some (o, g))

include hs hg

theorem MDie.pwmFaultAll_of_latching {clocks : Nat} (hl : o.life = .enabled) (hsel : bitOf (o.params.u Par.pwmgFaultSel) i = true)
    (hfilt : o.params.u Par.pwmgFaultFilt < clocks) (hmode : o.params.u Par.pwmgFaultMode = 0) :
    d.pwmFaultAll i clocks = d.pwmFaultNow n (d.faultLow &&& o.params.u Par.pwmgFaultSel) d.tick := by
  simp only [MDie.pwmFaultAll, hs, List.foldl_cons, List.foldl_nil, hg, hl, hsel, hmode, Nat.not_le.2 hfilt, ne_eq, not_true_eq_false,
    false_and, Bool.true_eq_false, or_self, if_false, if_true]
  rfl

theorem MDie.pwmFaultAll_of_filtered {clocks : Nat} (hfilt : clocks ≤ o.params.u Par.pwmgFaultFilt) : d.pwmFaultAll i clocks = d := by
  simp only [MDie.pwmFaultAll, hs, List.foldl_cons, List.foldl_nil, hg, hfilt, or_true, if_true]

/-- A held group whose inputs are all high now starts its clear time. -/
theorem MDie.pwmInputHigh_of_clear (hhold : g.faultHold = true) (hat : g.highAt = none)
    (hhigh : ({ d with pwmFault := d.pwmFault.set i false } : MDie).faultLow &&& o.params.u Par.pwmgFaultSel = 0) :
    d.pwmInputHigh i =
      ({ d with pwmFault := d.pwmFault.set i false } : MDie).setData n (.pwmg { g with highAt := some d.ns }) := by
  have hs' : ({ d with pwmFault := d.pwmFault.set i false } : MDie).slotsOf .pwmg = [n] := hs
  have hg' : ({ d with pwmFault := d.pwmFault.set i false } : MDie).pwmg? n = some (o, g) := hg
  simp only [MDie.pwmInputHigh, hs', List.foldl_cons, List.foldl_nil, hg', hhold, hat, hhigh, Option.isNone_none, and_self, if_true]
  rfl

end Single

/-! Levels of a pair (R337, R338, R340, R349, R351, R352). -/

/-- Nominal high-side interval W of a pair in mode 0, in counter clocks (R338). -/
def PwmSet.width (ps : Params) (v : PwmSet) (i : Nat) : Nat := (v.pairs.getD i ⟨0, 0, 0⟩).on * pwmPresc ps

section Centred

variable {ps : Params} {v : PwmSet} {i : Nat} (hmode : ps.u Par.pwmgMode = 0)

include hmode

theorem carrierRun_of_centred (mask : Nat) : carrierRun ps mask v = 2 * v.period * pwmPresc ps := by
  simp only [carrierRun, carrier, hmode, if_true]

variable {C : Nat} (htop : v.width ps i + (v.pairs.getD i ⟨0, 0, 0⟩).dead + ps.u Par.pwmgMinPulse ≤ C)

include htop

/-- An interval that leaves room for the dead time and the least pulse is not limited (R341). -/
theorem highSide_of_centred : highSide ps v C i = (C / 2 - v.width ps i / 2, C / 2 + (v.width ps i + 1) / 2, false) := by
  have hle : v.width ps i ≤ C - (v.pairs.getD i ⟨0, 0, 0⟩).dead - ps.u Par.pwmgMinPulse := by omega
  unfold PwmSet.width at hle
  simp only [highSide, hmode, PwmSet.width, Nat.min_eq_left hle, decide_eq_false (Nat.not_lt.2 hle)]

/-- A pulse of at least the least length is not dropped (R340). -/
theorem pulseDropped_of_centred (hmin : (v.pairs.getD i ⟨0, 0, 0⟩).dead + ps.u Par.pwmgMinPulse ≤ v.width ps i) :
    pulseDropped ps v C i = false := by
  simp only [pulseDropped, highSide_of_centred hmode htop, decide_eq_false_iff_not]
  omega

theorem carrierLevel_of_centred (hpos : 0 < v.width ps i)
    (hmin : (v.pairs.getD i ⟨0, 0, 0⟩).dead + ps.u Par.pwmgMinPulse ≤ v.width ps i) (off : Nat) :
    carrierLevel ps v C i off =
      let dead := (v.pairs.getD i ⟨0, 0, 0⟩).dead
      (decide (C / 2 - v.width ps i / 2 + dead ≤ off ∧ off < C / 2 + (v.width ps i + 1) / 2),
        decide (off < C / 2 - v.width ps i / 2 ∨ C / 2 + (v.width ps i + 1) / 2 + dead ≤ off)) := by
  have hne : ¬ C / 2 - v.width ps i / 2 = C / 2 + (v.width ps i + 1) / 2 := by omega
  simp only [carrierLevel, highSide_of_centred hmode htop, pulseDropped_of_centred hmode htop hmin, hne, Bool.false_eq_true, or_self,
    if_false]

end Centred

/-- Neither side of the pair has just turned off: the carrier's own dead time stands. -/
theorem GatePair.levelAt_of_carrier {x : GatePair} {g : Pwmg} {v : PwmSet} {b : Nat} (ps : Params) (i cc : Nat) (hsrc : x.src = .carrier)
    (hoff : x.offAt = (none, none)) (hact : g.active = some v) (hstart : g.start = some b) :
    x.levelAt ps (some g) i cc = carrierLevel ps v (carrierRun ps g.mask v) i (cc - b) := by
  simp only [GatePair.levelAt, hsrc, hoff, hact, hstart, Option.all_none, Bool.and_true]

section Source

variable (ps : Params) {g : Pwmg} (i : Nat)

theorem pairSource_of_safe {life : Bool} (h : g.faultHold = true ∨ life = false) :
    pairSource ps g life i = .pattern (patternLevel (ps.u Par.pwmgSafe i)).1 (patternLevel (ps.u Par.pwmgSafe i)).2 := by
  have hsafe : g.faultHold = true ∨ ¬ life = true := h.imp_right ne_true_of_eq_false
  simp only [pairSource, hsafe, if_true]

variable {i} (hhold : g.faultHold = false)

include hhold

theorem pairSource_of_force {p : Nat} (hforce : g.force.getD i none = some p) :
    pairSource ps g true i = .pattern (patternLevel p).1 (patternLevel p).2 := by
  simp only [pairSource, hhold, hforce, Bool.false_eq_true, not_true_eq_false, or_self, if_false]

variable (hforce : g.force.getD i none = none)

include hforce

theorem pairSource_of_still {m : Nat} (hstill : g.still.getD i none = some m) :
    pairSource ps g true i = .pattern false (decide (m = 1)) := by
  simp only [pairSource, hhold, hforce, hstill, Bool.false_eq_true, not_true_eq_false, or_self, if_false]

theorem pairSource_of_carrier {v : PwmSet} {b : Nat} (hstill : g.still.getD i none = none) (hact : g.active = some v)
    (hstart : g.start = some b) : pairSource ps g true i = .carrier := by
  simp only [pairSource, hhold, hforce, hstill, hact, hstart, Bool.false_eq_true, not_true_eq_false, or_self, if_false]

end Source

/-! Sigma-delta results (R356 … R358). -/

/-- An input that has all the bits its decimation takes forms its result from them at its instant, and nothing drains. -/
theorem MDie.sdinResult_of_due {d : MDie} {n t : Nat} {o : Obj} {x : Sdin} {bits : List Bool} (hx : d.sdin? n = some (o, x))
    (hl : o.life = .enabled) (hrun : d.frozen = false) (hat : d.sdinInstant o x = some t) (htick : t ≤ d.nextTick)
    (hbits : bits.length = sdinBits o.params) :
    d.sdinResult n bits =
      let r := x.form o.params bits t (t / 16000 * 16000)
      let k := (d.passTo t).draw 151
      ((k.1.setData n (.sdin (r.1.deliver k.2))).orPar n Par.sdinFlags r.2.2).postAll n r.2.1 := by
  have htake : (bits ++ List.replicate (sdinBits o.params - bits.length) false).take (sdinBits o.params) = bits := by
    rw [← hbits, List.take_left]
  simp only [MDie.sdinResult, hx, hl, hrun, hat, Nat.not_lt.2 htick, htake, ne_eq, not_true_eq_false, false_and, Bool.false_eq_true,
    or_self, reduceCtorEq, if_false]

/-- Settles O33: a row of a group or an input is that of the die as the step finds it; the levels of a pair are those of `carrierLevel`, whose
interval is neither limited nor dropped here, and `pairSource` gives the order of the sources. -/
theorem pwmAndSigmaDelta : Obligations.PwmAndSigmaDelta := by
  refine ⟨fun s n o g hrun hg => ⟨?boundary, ?trigger⟩, fun s i clocks n o g hrun => ?inputs,
    fun ps g v x i b off => ⟨?carrier, ?safe, ?force, ?still, ?source⟩, fun s k t o x bits hrun hx hl hlive hat htick hbits => ?result⟩
  case boundary =>
    intro htick
    rw [exec_pwmBoundary_of_running n hrun, MDie.boundaryRow_of_due (d := s.md.start) hg htick]
  case trigger =>
    intro trig f hl hlive hf htick
    rw [exec_pwmTriggerFire_of_running n trig hrun, MDie.triggerRow_of_due (d := s.md.start) hg hl hlive hf htick]
  case inputs =>
    intro r hs hg low seen high k
    have hs' : (r.pulledLow i clocks).slotsOf .pwmg = [n] := hs
    have hg' : (r.pulledLow i clocks).pwmg? n = some (o, g) := hg
    refine ⟨fun hi hl hlive hsel hfilt hmode hseen => ?fault, fun hi hlive h => ?noFault, fun hi hhold hhigh hat => ?high, fun hi => ?absent⟩
    case fault =>
      rw [exec_pwmFaultInputLow_of_running i clocks hrun, if_pos hi, MDie.pwmInputLow_of_seen hlive hseen,
        MDie.pwmFaultAll_of_latching hs' hg' hl hsel hfilt hmode]
      rfl
    case noFault =>
      rw [exec_pwmFaultInputLow_of_running i clocks hrun, if_pos hi]
      by_cases hseen : r.lowSeen clocks
      · have hfilt := h.resolve_right (not_not_intro hseen)
        rw [MDie.pwmInputLow_of_seen hlive hseen, MDie.pwmFaultAll_of_filtered hs' hg' hfilt]
        rfl
      · rw [MDie.pwmInputLow_of_unseen hlive hseen]
        rfl
    case high => rw [exec_pwmFaultInputHigh_of_running i hrun, if_pos hi, MDie.pwmInputHigh_of_clear hs hg hhold hat hhigh]
    case absent =>
      rw [exec_pwmFaultInputLow_of_running i clocks hrun, exec_pwmFaultInputHigh_of_running i hrun, if_neg (Nat.not_lt.2 hi),
        if_neg (Nat.not_lt.2 hi)]
      exact ⟨rfl, rfl⟩
  case carrier =>
    intro hsrc hoff hact hstart hmode hpos htop hmin
    rw [GatePair.levelAt_of_carrier ps i _ hsrc hoff hact hstart, Nat.add_sub_cancel_left, carrierRun_of_centred hmode,
      carrierLevel_of_centred hmode htop hpos hmin]
    rfl
  case safe => exact fun life h => pairSource_of_safe ps i h
  case force => exact fun p hhold hforce => pairSource_of_force ps hhold hforce
  case still => exact fun m hhold hforce hstill => pairSource_of_still ps hhold hforce hstill
  case source => exact fun hhold hforce hstill hact hstart => pairSource_of_carrier ps hhold hforce hstill hact hstart
  case result =>
    rw [exec_sdinResult_of_running k bits hrun, MDie.sdinResult_of_due (d := s.md.start) hx hl hlive hat htick hbits]

end Sys2Proof.Machine
end

section
/-! PROOFS. Drive lanes: training, timeout and loss, uplink frames, stale slots and slots at rest (chapter 12). -/

namespace Sys2Proof.Machine

open Sys2Proof

theorem exec_laneTrained_of_running (k : Nat) {s : State} (h : s.md.boot.inReset = false) :
    exec (.laneTrained k) s = .next (s.after (s.md.start.laneTrained (72 + k))) := onDie_of_running s _ h

theorem exec_dlaneTrainTimeout_of_running (k : Nat) {s : State} (h : s.md.boot.inReset = false) :
    exec (.dlaneTrainTimeout k) s = .next (s.after (s.md.start.laneTimeout (72 + k))) := onDie_of_running s _ h

theorem exec_lossLimitReached_of_running (k : Nat) {s : State} (h : s.md.boot.inReset = false) :
    exec (.lossLimitReached k) s = .next (s.after (s.md.start.laneLoss (72 + k))) := onDie_of_running s _ h

theorem exec_uplinkFrame_of_running (k : Nat) (code : Bool) (sof eof : Nat) (b : List Byte) {s : State} (h : s.md.boot.inReset = false) :
    exec (.uplinkFrame k code sof eof b) s = .next (s.after (s.md.start.laneUplink (72 + k) code sof eof b)) := onDie_of_running s _ h

theorem exec_staleLimitReached_of_running (k : Nat) {s : State} (h : s.md.boot.inReset = false) :
    exec (.staleLimitReached k) s = .next (s.after (s.md.start.laneStale (72 + k))) := onDie_of_running s _ h

theorem exec_holdDelayReached_of_running (k i : Nat) {s : State} (h : s.md.boot.inReset = false) :
    exec (.holdDelayReached k i) s = .next (s.after (s.md.start.laneHold (72 + k) i)) := onDie_of_running s _ h

/-- The tick in progress stays so while time passes. -/
@[simp] theorem MDie.passTo_tick0 (d : MDie) (t : Nat) : (d.passTo t).tick0 = d.tick := d.passTo_tick t

section Link

variable {d : MDie} {n : Nat} {o : Obj} {l : Lane} (hx : d.lane? n = some (o, l)) (hl : o.life = .enabled)

include hx hl

/-! Training, timeout and loss (R366, R379). -/

theorem MDie.laneTrained_of_training (hlink : l.link = 1) :
    d.laneTrained n = d.setData n (.dlane { l with link := 2, valid := 0 }) := by
  simp only [MDie.laneTrained, hx]
  exact if_pos ⟨hl, hlink⟩

/-- Time passes to the end of the timeout, yet the event is of the tick in progress. -/
theorem MDie.laneTimeout_of_due (hlink : l.link = 1 ∨ l.link = 2)
    (hdue : l.since + o.params.u Par.dlaneTrainTimeout * 1000000 ≤ d.nextTick) :
    d.laneTimeout n = (d.passTo (l.since + o.params.u Par.dlaneTrainTimeout * 1000000)).laneFault n
      (faultEv Evt.laneLost d.tick (d8 1)) d.tick := by
  simp only [MDie.laneTimeout, hx, MDie.passTo_tick0]
  exact if_pos ⟨hl, hlink, hdue⟩

theorem MDie.laneLoss_of_due (hlink : l.link = 3) (hdue : o.params.u Par.dlaneLossLimit ≤ l.lossRun) :
    d.laneLoss n = d.laneFault n (faultEv Evt.laneLost d.tick (d8 2)) d.tick := by
  simp only [MDie.laneLoss, hx]
  exact if_pos ⟨.inl hl, hlink, hdue⟩

end Link

/-! Uplink frames (R374, R377). -/

/-- What one failed check of an uplink frame leaves: a count or a flag. -/
def MDie.uplinkFault (d : MDie) (n : Nat) : UplinkFault → MDie
  | .crc => d.bump n Par.dlaneUlCrcErrors 0 1
  | .late => d.bump n Par.dlaneUlLate 0 1
  | .seq => d.orPar n Par.dlaneFlags 4
  | .other => d

/-- The die once it takes an uplink frame at tick `t`, up to the lane's own end where the frame faults it. -/
def MDie.uplinkTaken (d : MDie) (n t sof : Nat) (o : Obj) (l : Lane) (b : List Byte) : MDie :=
  let a := l.accept sof t b
  let r := a.1.reports o.params b t
  let d := ((d.setData n (.dlane r.1)).orPar n Par.dlaneFlags r.2.2.1).postAll n (a.2 ++ r.2.1)
  match r.2.2.2 with
  | some e => d.laneEnd n e.code t
  | none => d

/-- A lane that has sent a frame and taken no uplink since hears the next one. -/
theorem Lane.hears_uplink {o : Obj} {l : Lane} (hl : o.life = .enabled) (hlink : 2 ≤ l.link) (hframe : l.frame ≠ [])
    (hfirst : l.pendingUp = none) :
    ¬ ((o.life ≠ .enabled ∧ o.life ≠ .draining) ∨ l.link < 2 ∨ l.frame = [] ∨ l.pendingUp.isSome = true) := by
  simp only [hl, hframe, hfirst, Nat.not_lt.2 hlink, ne_eq, not_true_eq_false, false_and, Option.isSome_none, Bool.false_eq_true,
    or_self, not_false_eq_true]

section Uplink

variable {d : MDie} {n : Nat} {o : Obj} {l : Lane} (hx : d.lane? n = some (o, l)) (hl : o.life = .enabled) (hlink : 2 ≤ l.link)
  (hframe : l.frame ≠ []) (hfirst : l.pendingUp = none)

include hx hl hlink hframe hfirst

/-- A frame that fails one check alone is not used. -/
theorem MDie.laneUplink_of_fault {code : Bool} (sof : Nat) {eof : Nat} {b : List Byte} {f : UplinkFault}
    (hjudge : l.judge o.params code eof b = [f]) :
    d.laneUplink n code sof eof b = (if eof ≤ 16000 then d.passTo (d.tick + eof) else d).uplinkFault n f := by
  simp only [MDie.laneUplink, hx, if_neg (Lane.hears_uplink hl hlink hframe hfirst), hjudge, List.foldl_cons, List.foldl_nil]
  cases f <;> rfl

theorem MDie.laneUplink_of_good {code : Bool} (sof : Nat) {eof : Nat} {b : List Byte} (hjudge : l.judge o.params code eof b = [])
    (heof : eof ≤ 16000) : d.laneUplink n code sof eof b = (d.passTo (d.tick + eof)).uplinkTaken n d.tick sof o l b := by
  simp only [MDie.laneUplink, hx, if_neg (Lane.hears_uplink hl hlink hframe hfirst), hjudge, if_pos heof]
  rfl

end Uplink

/-- Settles O34: each row is that of its lane on the die as the step finds it; an uplink frame that fails one check leaves what
`uplinkFault` gives of it, one that fails none is taken (`uplinkTaken`). -/
theorem laneLinkRowsComplete : Obligations.LaneLinkRowsComplete := by
  intro s k o l hrun hx hl
  have hx' : s.md.start.lane? (72 + k) = some (o, l) := hx
  refine ⟨fun hlink => ?trained, fun hlink hdue => ?timeout, fun hlink hdue => ?loss, fun code sof eof b hlink hframe hfirst => ?uplink⟩
  case trained => rw [exec_laneTrained_of_running k hrun, MDie.laneTrained_of_training hx' hl hlink]
  case timeout =>
    rw [exec_dlaneTrainTimeout_of_running k hrun, MDie.laneTimeout_of_due hx' hl hlink hdue]
    rfl
  case loss =>
    rw [exec_lossLimitReached_of_running k hrun, MDie.laneLoss_of_due hx' hl hlink hdue]
    rfl
  case uplink =>
    rw [exec_uplinkFrame_of_running k code sof eof b hrun]
    have hfault {f : UplinkFault} := MDie.laneUplink_of_fault hx' hl hlink hframe hfirst sof (code := code) (eof := eof) (b := b) (f := f)
    refine ⟨fun hjudge heof => ?crc, fun hjudge heof => ?late, fun hjudge heof => ?seq, fun hjudge heof => ?good⟩
    case crc =>
      rw [hfault hjudge, if_pos heof]
      rfl
    case late =>
      rw [hfault hjudge, if_neg (Nat.not_le.2 heof)]
      rfl
    case seq =>
      rw [hfault hjudge, if_pos heof]
      rfl
    case good =>
      rw [MDie.laneUplink_of_good hx' hl hlink hframe hfirst sof hjudge heof]
      rfl

/-! Stale slots (R379). A mask or a change over slots of which none is hit, and of which the first alone is. -/

theorem foldl_mask_zipIdx_of_none {α : Type} {hit : α → Nat → Bool} {k : Nat} (h : ∀ x i, k ≤ i → hit x i = false) (xs : List α) (m : Nat) :
    (xs.zipIdx k).foldl (fun m x => if hit x.1 x.2 then m + 2 ^ x.2 else m) m = m := by
  induction xs generalizing k with
  | nil => rfl
  | cons x xs ih =>
    rw [List.zipIdx_cons, List.foldl_cons, h x k (Nat.le_refl k)]
    exact ih fun y i hi => h y i (Nat.le_of_succ_le hi)

theorem map_hit_zipIdx_of_none {α : Type} {hit : α → Nat → Bool} {f : α → α} {k : Nat} (h : ∀ x i, k ≤ i → hit x i = false) (xs : List α) :
    (xs.zipIdx k).map (fun x => if hit x.1 x.2 then f x.1 else x.1) = xs := by
  induction xs generalizing k with
  | nil => rfl
  | cons x xs ih =>
    rw [List.zipIdx_cons, List.map_cons, h x k (Nat.le_refl k), ih fun y i hi => h y i (Nat.le_of_succ_le hi)]
    rfl

section First

variable {α : Type} {hit : α → Nat → Bool} {xs : List α} {x : α} (hx : xs[0]? = some x) (h0 : hit x 0 = true)
  (h : ∀ y i, 1 ≤ i → hit y i = false)

include hx h0 h

theorem foldl_mask_zipIdx_of_first : (xs.zipIdx).foldl (fun m x => if hit x.1 x.2 then m + 2 ^ x.2 else m) 0 = 1 := by
  obtain ⟨ys, rfl⟩ := List.head?_eq_some_iff.1 (List.head?_eq_getElem?.trans hx)
  rw [List.zipIdx_cons, List.foldl_cons, h0]
  exact foldl_mask_zipIdx_of_none h ys 1

theorem map_hit_zipIdx_of_first (f : α → α) : (xs.zipIdx).map (fun x => if hit x.1 x.2 then f x.1 else x.1) = xs.set 0 (f x) := by
  obtain ⟨ys, rfl⟩ := List.head?_eq_some_iff.1 (List.head?_eq_getElem?.trans hx)
  rw [List.zipIdx_cons, List.map_cons, h0, map_hit_zipIdx_of_none h ys]
  rfl

end First

/-- A slot is to be reported as stale. -/
def LaneSlot.staleDue (ps : Params) (x : LaneSlot) (i : Nat) : Bool :=
  decide (i < laneAxes ps) && x.stale && !x.staleReported && decide (ps.u Par.dlaneStaleLimit ≤ x.staleRun)

/-- The slot once it is reported. -/
def LaneSlot.marked (x : LaneSlot) : LaneSlot := { x with staleReported := true }

/-- The mask of the slots to be reported. -/
def Lane.staleMask (ps : Params) (l : Lane) : Nat :=
  (l.slots.zipIdx).foldl (fun m x => if x.1.staleDue ps x.2 then m + 2 ^ x.2 else m) 0

/-- The slots once those to be reported are. -/
def Lane.staleMarked (ps : Params) (l : Lane) : List LaneSlot :=
  (l.slots.zipIdx).map (fun x => if x.1.staleDue ps x.2 then x.1.marked else x.1)

theorem MDie.laneStale_of_lane {d : MDie} {n : Nat} {o : Obj} {l : Lane} (hx : d.lane? n = some (o, l)) :
    d.laneStale n =
      let l' : Lane := { l with slots := l.staleMarked o.params }
      if (o.life ≠ .enabled ∧ o.life ≠ .draining) ∨ l.link < 2 ∨ l.staleMask o.params = 0 then d
      else (List.range (laneAxes o.params)).foldl (fun d i => d.laneChannel o l' n i d.tick0 false)
        ((d.setData n (.dlane l')).post n (report Evt.ulStale d.tick0 (d8 (l.staleMask o.params)))) := by
  simp only [MDie.laneStale, hx]
  rfl

section Single

variable {ps : Params} (haxes : laneAxes ps = 1)

include haxes

theorem LaneSlot.staleDue_of_first (x : LaneSlot) (hstale : x.stale = true) (hnew : x.staleReported = false)
    (hdue : ps.u Par.dlaneStaleLimit ≤ x.staleRun) : x.staleDue ps 0 = true := by
  simp only [LaneSlot.staleDue, haxes, hstale, hnew, hdue, Nat.one_pos, decide_true, Bool.not_false, Bool.and_self]

theorem LaneSlot.staleDue_of_single (x : LaneSlot) (i : Nat) (hi : 1 ≤ i) : x.staleDue ps i = false := by
  simp only [LaneSlot.staleDue, haxes, decide_eq_false (Nat.not_lt.2 hi), Bool.false_and]

end Single

section Slot

variable {d : MDie} {n i : Nat} {o : Obj} {l : Lane} {x : LaneSlot} (hx : d.lane? n = some (o, l)) (hl : o.life = .enabled)

include hx hl

/-- The only slot of a lane of one axis is reported by the mask 1. -/
theorem MDie.laneStale_of_due (hslot : l.slots[0]? = some x) (haxes : laneAxes o.params = 1) (hlink : 2 ≤ l.link)
    (hstale : x.stale = true) (hnew : x.staleReported = false) (hdue : o.params.u Par.dlaneStaleLimit ≤ x.staleRun) :
    d.laneStale n =
      let l' : Lane := { l with slots := l.slots.set 0 { x with staleReported := true } }
      ((d.setData n (.dlane l')).post n (report Evt.ulStale d.tick (d8 1))).laneChannel o l' n 0 d.tick false := by
  have hmask : l.staleMask o.params = 1 :=
    foldl_mask_zipIdx_of_first hslot (x.staleDue_of_first haxes hstale hnew hdue) (LaneSlot.staleDue_of_single haxes)
  have hslots : l.staleMarked o.params = l.slots.set 0 x.marked :=
    map_hit_zipIdx_of_first hslot (x.staleDue_of_first haxes hstale hnew hdue) (LaneSlot.staleDue_of_single haxes) LaneSlot.marked
  have hlive : ¬ ((o.life ≠ .enabled ∧ o.life ≠ .draining) ∨ l.link < 2 ∨ 1 = 0) := by
    simp only [hl, Nat.not_lt.2 hlink, ne_eq, not_true_eq_false, false_and, Nat.one_ne_zero, or_self, not_false_eq_true]
  rw [MDie.laneStale_of_lane hx, hmask, hslots, if_neg hlive, haxes]
  rfl

/-! Slots at rest (R387). -/

/-- The content of a hold, where no amplitude limit cuts it. -/
theorem MDie.laneHold_of_due (hslot : l.slots[i]? = some x) (hi : i < laneAxes o.params) (hlink : l.link = 3)
    (hmode : o.params.u Par.dlaneSlotMode i = 2) (hrun : d.frozen = false) (hdue : o.params.u Par.dlaneHoldDelay i ≤ x.rest)
    {y : LaneSlot} (hy : d.slotContent d.tick o l i { x with rest := x.rest - 1 } = (y, none)) :
    d.laneHold n i = (d.setData n (.dlane { l with slots := l.slots.set i y })).orPar n Par.dlaneFlags 0 := by
  have hrests : ¬ (o.life ≠ .enabled ∨ l.link ≠ 3 ∨ laneAxes o.params ≤ i ∨ o.params.u Par.dlaneSlotMode i ≠ 2 ∨ d.frozen = true
      ∨ x.rest < o.params.u Par.dlaneHoldDelay i) := by
    simp only [hl, hlink, hmode, hrun, Nat.not_le.2 hi, Nat.not_lt.2 hdue, ne_eq, not_true_eq_false, Bool.false_eq_true, or_self,
      not_false_eq_true]
  have hy' : d.slotContent d.tick0 o l i { x with rest := x.rest - 1 } = (y, none) := hy
  simp only [MDie.laneHold, hx, hslot, if_neg hrests, hy']
  rfl

end Slot

/-- Settles O35: the mask and the change of a report are those of the first slot, which alone is in use (`laneStale_of_due`); a slot that
has rested takes the content its frame would give it (`laneHold_of_due`). -/
theorem laneSlotRowsComplete : Obligations.LaneSlotRowsComplete := by
  intro s k i o l x hrun hx hl hslot haxes
  have hx' : s.md.start.lane? (72 + k) = some (o, l) := hx
  refine ⟨fun hlink hstale hnew hdue => ?stale, ?hold⟩
  case stale =>
    rw [exec_staleLimitReached_of_running k hrun, MDie.laneStale_of_due hx' hl hslot haxes hlink hstale hnew hdue]
    rfl
  case hold =>
    rintro rfl hlink hmode hfree hdue r hnone
    rw [exec_holdDelayReached_of_running k 0 hrun,
      MDie.laneHold_of_due hx' hl hslot (haxes ▸ Nat.one_pos) hlink hmode hfree hdue (Prod.ext rfl hnone)]
    rfl

end Sys2Proof.Machine
end

section
/-! PROOFS. Samples, filters and off-tests of field channels (chapter 13). -/

namespace Sys2Proof.Machine

open Sys2Proof

/-! Rows of the F die. They act in reset too, so that no hypothesis on the reset is needed. -/

/-- A row of the F die is its own effect and the end of the step. -/
theorem onDieAny_eq (s : State) (f : MDie → MDie) : onDieAny s f = .next (s.after (f s.md.start)) := rfl

theorem exec_fioSample (c t : Nat) (mv : Int) (ua ma : Nat) (s : State) :
    exec (.fioSample c t mv ua ma) s = .next (s.after (s.md.start.fioSample c t mv ua ma)) := onDieAny_eq s _

theorem exec_fioFilterExpiry (c : Nat) (s : State) :
    exec (.fioFilterExpiry c) s = .next (s.after (s.md.start.fioFilterExpiry c)) := onDieAny_eq s _

theorem exec_fioOffTestPulse (c : Nat) (s : State) :
    exec (.fioOffTestPulse c) s = .next (s.after (s.md.start.fioOffTestPulse c)) := onDieAny_eq s _

/-! Time that passes touches no channel. -/

@[simp] theorem MDie.passTo_field (d : MDie) (t : Nat) : (d.passTo t).field = d.field := by
  simp only [MDie.passTo]
  split <;> rfl

@[simp] theorem MDie.passTo_fieldLive (d : MDie) (t : Nat) : (d.passTo t).fieldLive = d.fieldLive := by
  simp only [MDie.fieldLive, MDie.passTo_field]

@[simp] theorem MDie.passTo_chan? (d : MDie) (t c : Nat) : (d.passTo t).chan? c = d.chan? c := by
  simp only [MDie.chan?, MDie.passTo_obj?, MDie.passTo_field]

/-- The instant a sample counts at: a comparator edge is resolved to 10 ns (R398, log 10). -/
def sampleTime (ps : Params) (t : Nat) : Nat := if fioPeriod ps = 0 then (10 * divOpen 19 t 10).toNat else t

/-- What a sample does to a channel: an output is checked, an input filtered; no open wire is looked for while the supply is low (R409). -/
def Chan.sampled (ps : Params) (ch : Chan) (mv : Int) (ua ma t : Nat) (low : Bool) : Chan × List Ev :=
  if ch.role = 3 then ch.sampleOut ps mv ma t (!low)
  else if low then
    ch.filter ps (match fioClassify ps mv ua with | .on => true | .prev => ch.inp.last | _ => false) t
  else ch.sampleIn ps mv ua t

theorem Chan.sampled_of_output {ch : Chan} (h : ch.role = 3) (ps : Params) (mv : Int) (ua ma t : Nat) (low : Bool) :
    ch.sampled ps mv ua ma t low = ch.sampleOut ps mv ma t (!low) := if_pos h

theorem Chan.sampled_of_input {ch : Chan} (h : ch.role ≠ 3) (ps : Params) (mv : Int) (ua ma t : Nat) :
    ch.sampled ps mv ua ma t false = ch.sampleIn ps mv ua t := (if_neg h).trans (if_neg Bool.false_ne_true)

section Live

variable {d : MDie} {c : Nat} {o : Obj} {ch : Chan} (hx : d.chan? c = some (o, ch)) (hl : o.life = .enabled) (hlive : d.fieldLive = true)

include hx hl hlive

/-- A sample at an instant of the channel, not in the past and not beyond the next tick, is taken. -/
theorem MDie.fioSample_of_instant {t : Nat} (mv : Int) (ua ma : Nat) (hinst : fioInstant o.params t = true) (hnow : d.ns ≤ t)
    (htick : t ≤ d.nextTick) :
    d.fioSample c t mv ua ma =
      let r := ch.sampled o.params mv ua ma (sampleTime o.params t) d.field.low
      (d.passTo t).fioTook c ch r.1 r.2 := by
  simp only [MDie.fioSample, hx, hl, hlive, hinst, Nat.not_lt.2 hnow, Nat.not_lt.2 htick, ne_eq, not_true_eq_false, false_and,
    Bool.true_or, Bool.not_true, Bool.false_eq_true, or_self, if_false, MDie.passTo_field]
  rfl

/-- The filter of a continuously sampled input that has run by `T` gives the other level, with the time of the edge that started it. -/
theorem MDie.fioFilter_of_run {b T : Nat} (hstart : ch.inp.start = some b) (hcont : fioPeriod o.params = 0) (hrole : ch.role ≠ 3)
    (hrun : b + o.params.u Par.fioFilter * 1000 ≤ T) :
    d.fioFilter c T =
      let r := ch.take o.params (!ch.inp.level) b (b + o.params.u Par.fioFilter * 1000)
      d.fioTook c ch r.1 r.2 := by
  simp only [MDie.fioFilter, hx, hstart, hl, hcont, hrole, hlive, Nat.not_lt.2 hrun, ne_eq, not_true_eq_false, false_and, Bool.not_true,
    Bool.false_eq_true, or_self, if_false]

theorem MDie.fioFilterExpiry_of_due {b : Nat} (hstart : ch.inp.start = some b) (hcont : fioPeriod o.params = 0) (hrole : ch.role ≠ 3)
    (htick : b + o.params.u Par.fioFilter * 1000 ≤ d.nextTick) :
    d.fioFilterExpiry c =
      let due := b + o.params.u Par.fioFilter * 1000
      let r := ch.take o.params (!ch.inp.level) b due
      (d.passTo due).fioTook c ch r.1 r.2 := by
  have hx' := (d.passTo_chan? (b + o.params.u Par.fioFilter * 1000) c).trans hx
  simp only [MDie.fioFilterExpiry, hx, hstart]
  exact (if_pos ⟨hcont, htick⟩).trans
    (MDie.fioFilter_of_run hx' hl ((d.passTo_fieldLive _).trans hlive) hstart hcont hrole (Nat.le_refl _))

theorem MDie.fioOffTest_of_output (hrole : ch.role = 3) (t : Nat) : d.fioOffTest c t = d.setChan c (ch.offTest o.params t) := by
  simp only [MDie.fioOffTest, hx]
  exact if_pos ⟨hl, hrole, hlive⟩

theorem MDie.fioOffTestPulse_of_due (hrole : ch.role = 3) (hc : c < 32) (htick : offTestAt c d.ns ≤ d.nextTick) :
    d.fioOffTestPulse c = (d.passTo (offTestAt c d.ns)).setChan c (ch.offTest o.params (offTestAt c d.ns)) :=
  (if_pos ⟨hc, htick⟩).trans
    (MDie.fioOffTest_of_output ((d.passTo_chan? _ c).trans hx) hl ((d.passTo_fieldLive _).trans hlive) hrole _)

end Live

/-- Settles O45: a sample at an instant is taken (`fioSample_of_instant`), by an output or by an input; a filter that has run gives the
other level (`fioFilterExpiry_of_due`), and an off-test begins at its place in the cycle (`fioOffTestPulse_of_due`). -/
theorem fieldSamplesComplete : Obligations.FieldSamplesComplete := by
  intro s c o ch hx hl hlive
  refine ⟨fun t mv ua ma hinst hnow htick => ⟨?output, ?input⟩, ?filter, ?offTest⟩
  case output =>
    intro hrole
    rw [exec_fioSample, MDie.fioSample_of_instant (d := s.md.start) hx hl hlive mv ua ma hinst hnow htick, Chan.sampled_of_output hrole]
    rfl
  case input =>
    intro hrole hlow
    rw [exec_fioSample, MDie.fioSample_of_instant (d := s.md.start) hx hl hlive mv ua ma hinst hnow htick, MDie.start_field, hlow,
      Chan.sampled_of_input hrole]
    rfl
  case filter =>
    intro b hstart hcont hrole due htick
    rw [exec_fioFilterExpiry, MDie.fioFilterExpiry_of_due (d := s.md.start) hx hl hlive hstart hcont hrole htick]
  case offTest =>
    intro hc hrole htick
    rw [exec_fioOffTestPulse, MDie.fioOffTestPulse_of_due (d := s.md.start) hx hl hlive hrole hc htick]
    rfl

end Sys2Proof.Machine
end

section
/-! PROOFS. Overloads, supply and hold of the field I/O (chapter 13). -/

namespace Sys2Proof.Machine

open Sys2Proof

theorem exec_fioThermalShutdown (c : Nat) (s : State) :
    exec (.fioThermalShutdown c) s = .next (s.after (s.md.start.fioThermal c 1)) := onDieAny_eq s _

theorem exec_fioRetryExpiry (c : Nat) (s : State) :
    exec (.fioRetryExpiry c) s = .next (s.after (s.md.start.fioRetry c)) := onDieAny_eq s _

theorem exec_fioTotalCurrentLimit (mas : List Nat) (s : State) :
    exec (.fioTotalCurrentLimit mas) s = .next (s.after (s.md.start.fioTotal mas)) := onDieAny_eq s _

theorem exec_fieldUndervoltage (mv : Nat) (s : State) :
    exec (.fieldUndervoltage mv) s = .next (s.after (s.md.start.fieldLow mv)) := onDieAny_eq s _

theorem exec_fieldSupplyRestored (mv : Nat) (s : State) :
    exec (.fieldSupplyRestored mv) s = .next (s.after (s.md.start.fieldRestored mv)) := onDieAny_eq s _

theorem exec_fieldRegulatorStop (s : State) : exec .fieldRegulatorStop s = .next (s.after s.md.start.fieldStop) := onDieAny_eq s _

theorem exec_fieldRegulatorRestart (s : State) : exec .fieldRegulatorRestart s = .next (s.after s.md.start.fieldRestart) := onDieAny_eq s _

theorem exec_fioHoldTimeout (c : Nat) (s : State) :
    exec (.fioHoldTimeout c) s = .next (s.after (s.md.start.fioHold c)) := onDieAny_eq s _

/-- The die sees its logic side. -/
def MDie.logicPresent (d : MDie) : Bool := d.pairLink && !d.boot.inReset

theorem exec_logicSideSilent (s : State) : exec .logicSideSilent s =
    .next (s.after (if s.md.start.logicPresent then s.md.start else s.md.start.logicSilent)) := onDieAny_eq s _

theorem exec_logicSideReturn (s : State) : exec .logicSideReturn s =
    .next (s.after (if s.md.start.logicPresent then s.md.start.logicReturn else s.md.start)) := onDieAny_eq s _

theorem MDie.logicPresent_of_up {d : MDie} (hup : d.pairLink = true) (hrun : d.boot.inReset = false) : d.logicPresent = true := by
  simp only [MDie.logicPresent, hup, hrun, Bool.not_false, Bool.and_self]

theorem MDie.logicPresent_of_lost {d : MDie} (h : d.pairLink = false) : ¬ d.logicPresent = true := by
  simp only [MDie.logicPresent, h, Bool.false_and, Bool.false_eq_true, not_false_eq_true]

/-! Overloads of one output (R405). -/

section Output

variable {d : MDie} {c : Nat} {o : Obj} {ch : Chan} (hx : d.chan? c = some (o, ch))

include hx

theorem MDie.fioThermal_of_on (hrole : ch.role = 3) (hon : ch.out.on = true) (cause : Nat) :
    d.fioThermal c cause =
      let r := ch.shutdown cause d.ns d.fieldLive
      (d.setChan c r.1).postAll (32 + c) (r.2.map (fun e => { e with ns := d.tick })) := by
  simp only [MDie.fioThermal, hx]
  exact if_pos ⟨hrole, hon⟩

theorem MDie.fioThermal_of_off (hoff : ch.out.on = false) (cause : Nat) : d.fioThermal c cause = d := by
  simp only [MDie.fioThermal, hx, hoff, Bool.false_eq_true, and_false, if_false]

theorem MDie.fioRetry_of_due {a : Nat} (hdue : ch.retryDue = some a) (htick : a ≤ d.nextTick) :
    d.fioRetry c =
      let r := ch.retry a
      ((d.passTo a).setChan c r.1).postAll (32 + c)
        (if d.field.silent.isSome then [] else r.2.map (fun e => { e with ns := d.tick })) := by
  simp only [MDie.fioRetry, hx, hdue, MDie.passTo_field, MDie.passTo_tick0]
  exact if_pos htick

end Output

/-! The limit of the total current (R406). -/

/-- A channel is an output that is on. -/
def MDie.outputOn (d : MDie) (c : Nat) : Bool := match d.chan? c with | some (_, ch) => ch.role == 3 && ch.out.on | none => false

/-- The outputs that are on with their currents, in descending channel number. -/
def MDie.loads (d : MDie) (mas : List Nat) : List (Nat × Nat) :=
  ((List.range 32).reverse.filter d.outputOn).map (fun c => (c, mas.getD c 0))

theorem MDie.fioTotal_eq (d : MDie) (mas : List Nat) :
    d.fioTotal mas = (totalLimit (d.loads mas) ((d.loads mas).foldl (fun n x => n + x.2) 0)).foldl (fun d c => d.fioThermal c 2) d := rfl

theorem foldl_add_eq_sum_map {α : Type} (f : α → Nat) (l : List α) : l.foldl (fun n x => n + f x) 0 = (l.map f).sum := by
  rw [List.sum_eq_foldl, List.foldl_map]

theorem sum_map_filter_le {α : Type} (p : α → Bool) (f : α → Nat) (l : List α) : ((l.filter p).map f).sum ≤ (l.map f).sum := by
  induction l with
  | nil => exact Nat.le_refl 0
  | cons x l ih =>
    rw [List.map_cons, List.sum_cons, List.filter_cons]
    split
    · rw [List.map_cons, List.sum_cons]
      exact Nat.add_le_add_left ih (f x)
    · exact Nat.le_trans ih (Nat.le_add_left _ (f x))

/-- The outputs that are on draw no more than all channels together. -/
theorem MDie.sum_loads_le (d : MDie) (mas : List Nat) :
    (d.loads mas).foldl (fun n x => n + x.2) 0 ≤ (List.range 32).foldl (fun n k => n + mas.getD k 0) 0 := by
  rw [foldl_add_eq_sum_map, foldl_add_eq_sum_map, MDie.loads, List.map_map]
  calc (((List.range 32).reverse.filter d.outputOn).map (fun k => mas.getD k 0)).sum
      ≤ ((List.range 32).reverse.map (fun k => mas.getD k 0)).sum := sum_map_filter_le _ _ _
    _ = ((List.range 32).map (fun k => mas.getD k 0)).sum := by rw [List.map_reverse, List.sum_reverse]

theorem totalLimit_of_le {sum : Nat} (h : sum ≤ 4000) : ∀ l : List (Nat × Nat), totalLimit l sum = []
  | [] => rfl
  | _ :: _ => if_pos h

theorem totalLimit_single {c ma : Nat} (h : 4000 < ma) : totalLimit [(c, ma)] ma = [c] := if_neg (Nat.not_le.2 h)

theorem MDie.fioTotal_of_le {d : MDie} {mas : List Nat} (h : (List.range 32).foldl (fun n k => n + mas.getD k 0) 0 ≤ 4000) :
    d.fioTotal mas = d := by
  rw [MDie.fioTotal_eq, totalLimit_of_le (Nat.le_trans (d.sum_loads_le mas) h)]
  rfl

/-- An output that alone is on is the only load. -/
theorem MDie.loads_of_alone {d : MDie} {c : Nat} (hc : c < 32) (hon : d.outputOn c = true)
    (halone : ∀ k, k < 32 → k ≠ c → d.outputOn k = false) (mas : List Nat) : d.loads mas = [(c, mas.getD c 0)] := by
  have honly : (List.range 32).reverse.filter d.outputOn = (List.range 32).reverse.filter (· == c) := by
    refine List.filter_congr fun k hk => ?_
    by_cases hkc : k = c
    · rw [hkc, hon, BEq.rfl]
    · rw [halone k (List.mem_range.1 (List.mem_reverse.1 hk)) hkc, beq_false_of_ne hkc]
  have hcount : (List.range 32).reverse.count c = 1 := by
    rw [List.count_reverse, List.count_range, if_pos hc]
  rw [MDie.loads, honly, List.filter_beq, hcount]
  rfl

theorem MDie.fioTotal_of_alone {d : MDie} {c : Nat} {mas : List Nat} (hc : c < 32) (hon : d.outputOn c = true)
    (halone : ∀ k, k < 32 → k ≠ c → d.outputOn k = false) (hma : 4000 < mas.getD c 0) : d.fioTotal mas = d.fioThermal c 2 := by
  have hsum : [(c, mas.getD c 0)].foldl (fun n (x : Nat × Nat) => n + x.2) 0 = mas.getD c 0 := Nat.zero_add _
  rw [MDie.fioTotal_eq, MDie.loads_of_alone hc hon halone, hsum, totalLimit_single hma]
  rfl

/-- No channel, or one that is no output or is off. -/
theorem MDie.outputOn_eq_false {d : MDie} {c : Nat} (h : ∀ x, d.chan? c = some x → x.2.role ≠ 3 ∨ x.2.out.on = false) :
    d.outputOn c = false := by
  unfold MDie.outputOn
  split
  next o ch hx =>
    rcases h _ hx with hrole | hoff
    · rw [beq_false_of_ne hrole, Bool.false_and]
    · rw [hoff, Bool.and_false]
  next => rfl

theorem MDie.outputOn_of_on {d : MDie} {c : Nat} {o : Obj} {ch : Chan} (hx : d.chan? c = some (o, ch)) (hrole : ch.role = 3)
    (hon : ch.out.on = true) : d.outputOn c = true := by
  simp only [MDie.outputOn, hx, hrole, hon, BEq.rfl, Bool.and_self]

/-! The field supply (R409). -/

section Die

variable {d : MDie}

theorem MDie.fieldLow_of_ok (mv : Nat) (h : d.field.low = false) :
    d.fieldLow mv = ({ d with field := { d.field with mv := mv, low := true } } : MDie).fieldSupply 1 false := if_neg (ne_true_of_eq_false h)

theorem MDie.fieldLow_of_low (mv : Nat) (h : d.field.low = true) : d.fieldLow mv = { d with field := { d.field with mv := mv } } := if_pos h

theorem MDie.fieldRestored_of_low (mv : Nat) (h : d.field.low = true) :
    d.fieldRestored mv = ({ d with field := { d.field with mv := mv, low := false } } : MDie).fieldSupply 1 true := if_pos h

theorem MDie.fieldStop_of_low (h : d.field.low = true) :
    d.fieldStop = { d with field := { d.field with mv := 0, regulator := false, chans := d.field.chans.map Chan.lose } } := by
  simp only [MDie.fieldStop, MDie.fieldLow_of_low 0 h]

/-! The restart of the regulator (R409). -/

/-- An enabled channel loaded again: its settings from its parameters, its commanded level kept, its switch off until the next tick. -/
def Chan.loaded (ps : Params) (ch : Chan) (t : Nat) : Chan :=
  let y := ch.enable ps t
  { y with out := { y.out with cmd := ch.out.cmd, on := false } }

/-- What a restart does to one channel. -/
def MDie.loadChan (d : MDie) (c : Nat) : MDie :=
  match d.chan? c with
  | some (o, ch) =>
    if o.life = .enabled then d.setChan c (ch.loaded o.params d.ns) else d.setChan c (if o.life = .draining then ch else ch.disable)
  | none => d

/-- The die with its regulator running and every channel loaded again. -/
def MDie.reloaded (d : MDie) : MDie := (List.range 32).foldl MDie.loadChan { d with field := { d.field with regulator := true } }

theorem MDie.fieldRestart_of_running (h : d.field.regulator = true) : d.fieldRestart = d := if_pos h

theorem MDie.fieldRestart_of_silent (h : d.field.regulator = false) (hsilent : d.field.silent.isSome = true) :
    d.fieldRestart = { d with field := { d.field with regulator := true } } :=
  (if_neg (ne_true_of_eq_false h)).trans (if_pos hsilent)

theorem MDie.fieldRestart_of_alive (h : d.field.regulator = false) (hsilent : d.field.silent = none) :
    d.fieldRestart = ({ d.reloaded with field := { d.reloaded.field with reload := true } } : MDie).fieldSupply 2 false := by
  simp only [MDie.fieldRestart, MDie.reloaded, h, hsilent, Option.isSome_none, Bool.false_eq_true, if_false]
  generalize List.range 32 = l
  rfl

/-- A channel that is put back is read back, but for its switch where the regulator stands still. -/
theorem MDie.setChan_chan?_self {c : Nat} {o : Obj} {ch : Chan} (hx : d.chan? c = some (o, ch)) (y : Chan) :
    (d.setChan c y).chan? c = some (o, y.powered d.field.regulator) := by
  simp only [MDie.chan?] at hx
  split at hx
  next ho hch =>
    obtain ⟨hc, -⟩ := List.getElem?_eq_some_iff.1 hch
    have ho' : (d.setChan c y).obj? (32 + c) = some o := ho.trans (congrArg (Option.map Prod.fst) hx)
    have hch' : (d.setChan c y).field.chans[c]? = some (y.powered d.field.regulator) := List.getElem?_set_self hc
    simp only [MDie.chan?, ho', hch']
  next => cases hx

theorem MDie.setChan_chan?_ne {c k : Nat} (h : c ≠ k) (y : Chan) : (d.setChan c y).chan? k = d.chan? k := by
  have hch : (d.setChan c y).field.chans[k]? = d.field.chans[k]? := List.getElem?_set_ne h
  unfold MDie.chan?
  rw [hch]
  rfl

/-- A restart puts something into a channel or leaves the die as it is. -/
theorem MDie.loadChan_cases (d : MDie) (c : Nat) : d.loadChan c = d ∨ ∃ y, d.loadChan c = d.setChan c y := by
  unfold MDie.loadChan
  split
  next o ch _ =>
    split
    · exact .inr ⟨_, rfl⟩
    · exact .inr ⟨_, rfl⟩
  next => exact .inl rfl

@[simp] theorem MDie.loadChan_ns (d : MDie) (c : Nat) : (d.loadChan c).ns = d.ns := by
  obtain h | ⟨y, h⟩ := d.loadChan_cases c
  · rw [h]
  · rw [h]
    rfl

@[simp] theorem MDie.loadChan_regulator (d : MDie) (c : Nat) : (d.loadChan c).field.regulator = d.field.regulator := by
  obtain h | ⟨y, h⟩ := d.loadChan_cases c
  · rw [h]
  · rw [h]
    rfl

theorem MDie.loadChan_chan?_ne {c k : Nat} (hne : c ≠ k) : (d.loadChan c).chan? k = d.chan? k := by
  obtain h | ⟨y, h⟩ := d.loadChan_cases c
  · rw [h]
  · rw [h, MDie.setChan_chan?_ne hne]

theorem MDie.loadChan_chan?_self {c : Nat} {o : Obj} {ch : Chan} (hx : d.chan? c = some (o, ch)) (hl : o.life = .enabled)
    (hreg : d.field.regulator = true) : (d.loadChan c).chan? c = some (o, ch.loaded o.params d.ns) := by
  have hload : d.loadChan c = d.setChan c (ch.loaded o.params d.ns) := by
    simp only [MDie.loadChan, hx]
    exact if_pos hl
  rw [hload, MDie.setChan_chan?_self hx, hreg]
  rfl

@[simp] theorem MDie.foldl_loadChan_regulator (l : List Nat) (d : MDie) :
    (l.foldl MDie.loadChan d).field.regulator = d.field.regulator := by
  induction l generalizing d with
  | nil => rfl
  | cons k l ih => rw [List.foldl_cons, ih, MDie.loadChan_regulator]

theorem MDie.foldl_loadChan_chan?_of_notMem {l : List Nat} {c : Nat} (h : c ∉ l) (d : MDie) :
    (l.foldl MDie.loadChan d).chan? c = d.chan? c := by
  induction l generalizing d with
  | nil => rfl
  | cons k l ih =>
    obtain ⟨hk, hl⟩ := List.ne_and_not_mem_of_not_mem_cons h
    rw [List.foldl_cons, ih hl, MDie.loadChan_chan?_ne (Ne.symm hk)]

/-- Of distinct channels, each enabled one is loaded as it was before any of them. -/
theorem MDie.foldl_loadChan_chan?_of_mem {l : List Nat} (hnodup : l.Nodup) {c : Nat} (hc : c ∈ l) {d : MDie} {o : Obj} {ch : Chan}
    (hx : d.chan? c = some (o, ch)) (hl : o.life = .enabled) (hreg : d.field.regulator = true) :
    (l.foldl MDie.loadChan d).chan? c = some (o, ch.loaded o.params d.ns) := by
  induction l generalizing d with
  | nil => cases hc
  | cons k l ih =>
    obtain ⟨hk, hnodup'⟩ := List.nodup_cons.1 hnodup
    rw [List.foldl_cons]
    by_cases hck : c = k
    · subst hck
      rw [MDie.foldl_loadChan_chan?_of_notMem hk, MDie.loadChan_chan?_self hx hl hreg]
    · rw [ih hnodup' ((List.mem_cons.1 hc).resolve_left hck) ((MDie.loadChan_chan?_ne (Ne.symm hck)).trans hx)
        ((d.loadChan_regulator k).trans hreg), MDie.loadChan_ns]

theorem MDie.reloaded_regulator (d : MDie) : d.reloaded.field.regulator = true := by
  rw [MDie.reloaded, MDie.foldl_loadChan_regulator]

theorem MDie.reloaded_chan? {c : Nat} {o : Obj} {ch : Chan} (hc : c < 32) (hx : d.chan? c = some (o, ch)) (hl : o.life = .enabled) :
    d.reloaded.chan? c = some (o, ch.loaded o.params d.ns) :=
  MDie.foldl_loadChan_chan?_of_mem List.nodup_range (List.mem_range.2 hc)
    (d := { d with field := { d.field with regulator := true } }) hx hl rfl

/-! A silent logic side (R410, R411). -/

theorem MDie.logicSilent_of_alive (h : d.field.silent = none) :
    d.logicSilent = { d with field := { d.field with silent := some d.upNs, chans := d.field.chans.map Chan.silence } } := by
  have halive : ¬ d.field.silent.isSome = true := by rw [h]; exact Bool.false_ne_true
  exact if_neg halive

theorem MDie.fioHold_of_due {c since : Nat} {ch : Chan} {x : MDie} (hsilent : d.field.silent = some since)
    (hch : d.field.chans[c]? = some ch) (hheld : ch.held = true) (hmode : ch.holdMode = true) (hfell : ch.fellBack = false)
    (hpass : d.passBoot (since + ch.holdMs * 1000000) = some x) :
    d.fioHold c = x.setChan c (ch.holdTimeout since (since + ch.holdMs * 1000000)) := by
  simp only [MDie.fioHold, hsilent, hch, hpass]
  exact if_pos ⟨hheld, hmode, ne_true_of_eq_false hfell⟩

/-- A die that has not booted keeps the report of the silence for later. -/
theorem MDie.logicReturn_of_booting {since : Nat} (hboot : d.boot.ready = false) (hsilent : d.field.silent = some since) :
    d.logicReturn = { d with field := { d.field with
      silent := none
      holdReport := some (chanMask d.field.chans (fun c => c.held && !c.fellBack && c.out.cmd),
        chanMask d.field.chans (fun c => c.fellBack), (d.upNs - since) / 1000000) } } := by
  simp only [MDie.logicReturn, hsilent]
  exact if_neg (ne_true_of_eq_false hboot)

end Die

/-- Settles O46: a shutdown is `fioThermal` of the output, and the limit of the total current asks it of the outputs that `totalLimit`
names; a restart of the regulator loads each enabled channel once (`reloaded_chan?`); the rows of the supply and of a silent logic side
are those of the die as the step finds it. -/
theorem fieldOverloadsAndSupply : Obligations.FieldOverloadsAndSupply := by
  refine ⟨fun s c o ch hx hrole => ?overloads, fun s mv => ?supply, fun s => ?hold⟩
  case overloads =>
    have hx' : s.md.start.chan? c = some (o, ch) := hx
    refine ⟨fun hon => ?on, fun hoff => ?off, fun a hdue htick => ?retry, fun mas hsum => ?within, fun mas hc hon halone hma => ?alone⟩
    case on =>
      rw [exec_fioThermalShutdown, MDie.fioThermal_of_on hx' hrole hon]
      rfl
    case off => rw [exec_fioThermalShutdown, MDie.fioThermal_of_off hx' hoff]
    case retry =>
      rw [exec_fioRetryExpiry, MDie.fioRetry_of_due hx' hdue htick]
      rfl
    case within => rw [exec_fioTotalCurrentLimit, MDie.fioTotal_of_le hsum]
    case alone =>
      have hothers : ∀ k, k < 32 → k ≠ c → s.md.start.outputOn k = false := fun k hk hkc => MDie.outputOn_eq_false fun x => halone k x hk hkc
      rw [exec_fioTotalCurrentLimit, MDie.fioTotal_of_alone hc (MDie.outputOn_of_on hx' hrole hon) hothers hma,
        MDie.fioThermal_of_on hx' hrole hon]
      rfl
  case supply =>
    rw [exec_fieldUndervoltage, exec_fieldSupplyRestored, exec_fieldRegulatorStop, exec_fieldRegulatorRestart]
    refine ⟨fun hok => ?low, fun hlow => ?lowAgain, fun hlow => ?restored, fun hlow => ?stop, fun hreg => ?running, fun hreg halive => ?alive,
      fun hreg hsilent => ?silent⟩
    case low =>
      rw [MDie.fieldLow_of_ok (d := s.md.start) mv hok]
      rfl
    case lowAgain =>
      rw [MDie.fieldLow_of_low (d := s.md.start) mv hlow]
      rfl
    case restored =>
      rw [MDie.fieldRestored_of_low (d := s.md.start) mv hlow]
      rfl
    case stop =>
      rw [MDie.fieldStop_of_low (d := s.md.start) hlow]
      rfl
    case running => rw [MDie.fieldRestart_of_running (d := s.md.start) hreg]
    case alive =>
      rw [MDie.fieldRestart_of_alive (d := s.md.start) hreg halive]
      have hregulator := s.md.start.reloaded_regulator
      have hchans {c o ch} := MDie.reloaded_chan? (d := s.md.start) (c := c) (o := o) (ch := ch)
      generalize s.md.start.reloaded = x at hregulator hchans
      exact ⟨_, rfl, hregulator, rfl, fun _ _ _ hc hx hl => hchans hc hx hl⟩
    case silent =>
      rw [MDie.fieldRestart_of_silent (d := s.md.start) hreg hsilent]
      rfl
  case hold =>
    refine ⟨fun hlost halive => ?silent, fun hup hrun => ?present, fun c ch since d hsilent hch hheld hmode hfell hpass => ?timeout,
      fun since hup hrun hboot hsilent => ?back⟩
    case silent =>
      rw [exec_logicSideSilent, if_neg (MDie.logicPresent_of_lost (d := s.md.start) hlost), MDie.logicSilent_of_alive (d := s.md.start) halive]
      rfl
    case present => rw [exec_logicSideSilent, if_pos (MDie.logicPresent_of_up (d := s.md.start) hup hrun)]
    case timeout => rw [exec_fioHoldTimeout, MDie.fioHold_of_due (d := s.md.start) hsilent hch hheld hmode hfell hpass]
    case back =>
      rw [exec_logicSideReturn, if_pos (MDie.logicPresent_of_up (d := s.md.start) hup hrun),
        MDie.logicReturn_of_booting (d := s.md.start) hboot hsilent]
      rfl

end Sys2Proof.Machine
end

section
/-! PROOFS. The functions of the safety island: entering a state, locking, class 3 faults, one function at a tick (chapter 14). -/

namespace Sys2Proof.Machine

open Sys2Proof

/-! The functions of an island. -/

section Functions

variable {i : Island} {f g : Nat}

theorem Island.fn_set_self (hf : f < i.fns.length) (x : SafeFn) : ({ i with fns := i.fns.set f x } : Island).fn f = x := by
  simp only [Island.fn, List.getD_eq_getElem?_getD, List.getElem?_set_self hf, Option.getD_some]

theorem Island.fn_set_ne (h : f ≠ g) (x : SafeFn) : ({ i with fns := i.fns.set f x } : Island).fn g = i.fn g := by
  simp only [Island.fn, List.getD_eq_getElem?_getD, List.getElem?_set_ne h]

theorem Island.fn_mem (hf : f < i.fns.length) : i.fn f ∈ i.fns := by
  simp only [Island.fn, List.getD_eq_getElem?_getD, List.getElem?_eq_getElem hf, Option.getD_some, List.getElem_mem]

/-- To put a function where it is changes nothing. -/
theorem Island.set_fn_self (i : Island) (f : Nat) : i.fns.set f (i.fn f) = i.fns := by
  by_cases hf : f < i.fns.length
  · simp only [Island.fn, List.getD_eq_getElem?_getD, List.getElem?_eq_getElem hf, Option.getD_some, List.set_getElem_self]
  · exact List.set_eq_of_length_le (Nat.le_of_not_lt hf)

/-- What holds of both functions, by their numbers. -/
theorem Island.forall_mem_fns {p : SafeFn → Prop} (hlen : i.fns.length = 2) : (∀ x ∈ i.fns, p x) ↔ ∀ f < 2, p (i.fn f) := by
  constructor
  · intro h f hf
    exact h _ (Island.fn_mem (hlen ▸ hf))
  · intro h x hx
    obtain ⟨f, hf, rfl⟩ := List.mem_iff_getElem.1 hx
    have hp := h f (hlen ▸ hf)
    simpa only [Island.fn, List.getD_eq_getElem?_getD, List.getElem?_eq_getElem hf, Option.getD_some] using hp

end Functions

/-! Entering another state (R431), and locking (R434). -/

/-- A function that enters the state `st`, with `ss1` ticks for SS1. -/
def SafeFn.enter (x : SafeFn) (st ss1 : Nat) : SafeFn :=
  { x with st := st, ss1 := if st = 1 then ss1 else 0, fault := if st = 0 then 0 else x.fault }

/-- A function that a fault locks: an earlier fault stays the one it names. -/
def SafeFn.lock (x : SafeFn) (code : Nat) : SafeFn :=
  { x with st := 3, ss1 := if x.st = 3 then x.ss1 else 0, fault := if x.fault = 0 then code else x.fault }

section Locking

variable {i : Island} {f g st cause src code : Nat}

theorem Island.setFn_of_same (h : (i.fn f).st = st) : i.setFn f st cause src = i := if_pos h

/-- A function that changes its state: the other one stays, and beside it only the `EDM` timers and the reports move. -/
theorem Island.setFn_of_change (h : (i.fn f).st ≠ st) : ∃ edms notes, edms.length = i.edms.length ∧
    i.setFn f st cause src = { i with fns := i.fns.set f ((i.fn f).enter st (i.ss1Ticks f)), edms := edms, notes := notes } := by
  unfold Island.setFn
  rw [if_neg h]
  extract_lets was entered timed
  obtain ⟨edms, hlen, htimed⟩ : ∃ edms, edms.length = i.edms.length ∧ timed = { entered with edms := edms } := by
    unfold timed
    split
    next => exact ⟨_, rfl, rfl⟩
    next => exact ⟨_, by rw [List.length_map, List.length_zipIdx], rfl⟩
  exact ⟨edms, _, hlen, congrArg (Island.note · _) htimed⟩

theorem Island.setFn_fn_ne (hne : f ≠ g) : (i.setFn f st cause src).fn g = i.fn g := by
  by_cases h : (i.fn f).st = st
  · rw [Island.setFn_of_same h]
  · obtain ⟨edms, notes, -, heq⟩ := Island.setFn_of_change (cause := cause) (src := src) h
    rw [heq]
    exact Island.fn_set_ne hne _

theorem Island.setFn_fn_self (hf : f < i.fns.length) (h : (i.fn f).st ≠ st) :
    (i.setFn f st cause src).fn f = (i.fn f).enter st (i.ss1Ticks f) := by
  obtain ⟨edms, notes, -, heq⟩ := Island.setFn_of_change (cause := cause) (src := src) h
  rw [heq]
  exact Island.fn_set_self hf _

theorem Island.setFn_fn_st (hf : f < i.fns.length) : ((i.setFn f st cause src).fn f).st = st := by
  by_cases h : (i.fn f).st = st
  · rw [Island.setFn_of_same h, h]
  · rw [Island.setFn_fn_self hf h]
    rfl

theorem Island.setFn_fn_demands (hf : f < i.fns.length) : ((i.setFn f st cause src).fn f).demands = (i.fn f).demands := by
  by_cases h : (i.fn f).st = st
  · rw [Island.setFn_of_same h]
  · rw [Island.setFn_fn_self hf h]
    rfl

/-- A fault locks a function whatever state it is in; beside the functions only the `EDM` timers and the reports move. -/
theorem Island.lockFn_eq (hf : f < i.fns.length) : ∃ edms notes, edms.length = i.edms.length ∧
    i.lockFn f code = { i with fns := i.fns.set f ((i.fn f).lock code), edms := edms, notes := notes } := by
  unfold Island.lockFn
  extract_lets x j
  have hj : j.fn f = { x with fault := if x.fault = 0 then code else x.fault } := Island.fn_set_self hf _
  by_cases hst : x.st = 3
  · refine ⟨i.edms, i.notes, rfl, ?_⟩
    have hlock : x.lock code = { x with fault := if x.fault = 0 then code else x.fault } := by
      simp only [SafeFn.lock, hst, if_true]
    rw [Island.setFn_of_same (hj ▸ hst), hlock]
  · obtain ⟨edms, notes, hlen, hset⟩ := Island.setFn_of_change (i := j) (f := f) (st := 3) (cause := 2) (src := 0xFF) (hj ▸ hst)
    refine ⟨edms, notes, hlen, ?_⟩
    have hlock : (j.fn f).enter 3 (j.ss1Ticks f) = x.lock code := by
      rw [hj]
      simp only [SafeFn.enter, SafeFn.lock, hst, Nat.reduceEqDiff, if_false]
    rw [hset, hlock]
    simp only [j, List.set_set, x]

theorem Island.lockFn_fn_self (hf : f < i.fns.length) : (i.lockFn f code).fn f = (i.fn f).lock code := by
  obtain ⟨edms, notes, -, h⟩ := Island.lockFn_eq (code := code) hf
  rw [h]
  exact Island.fn_set_self hf _

theorem Island.lockFn_fn_ne (hf : f < i.fns.length) (hne : f ≠ g) : (i.lockFn f code).fn g = i.fn g := by
  obtain ⟨edms, notes, -, h⟩ := Island.lockFn_eq (code := code) hf
  rw [h]
  exact Island.fn_set_ne hne _

end Locking

/-! Class 3 faults (R440). -/

section Class3

variable {i : Island} {f code : Nat}

theorem Island.lockFn_fns_length (hf : f < i.fns.length) : (i.lockFn f code).fns.length = i.fns.length := by
  obtain ⟨edms, notes, -, h⟩ := Island.lockFn_eq (code := code) hf
  rw [h]
  exact List.length_set

theorem Island.lockFn_codes (hf : f < i.fns.length) : (i.lockFn f code).codes = i.codes := by
  obtain ⟨edms, notes, -, h⟩ := Island.lockFn_eq (code := code) hf
  rw [h]

theorem Island.class3_of_started (hst : i.state ≠ 2) :
    i.class3 code = { ((i.faultNote code 3 88).lockFn 0 code).lockFn 1 code with state := 2 } := if_neg hst

theorem Island.class3_state : (i.class3 code).state = 2 := by
  unfold Island.class3
  split
  next h => exact h
  next => rfl

/-- The functions that a class 3 fault locks one after the other are there. -/
theorem Island.class3_lt_length (hlen : i.fns.length = 2) :
    0 < (i.faultNote code 3 88).fns.length ∧ 1 < ((i.faultNote code 3 88).lockFn 0 code).fns.length := by
  have h0 : 0 < (i.faultNote code 3 88).fns.length := hlen ▸ Nat.two_pos
  refine ⟨h0, ?_⟩
  rw [Island.lockFn_fns_length h0]
  exact hlen ▸ Nat.one_lt_two

theorem Island.class3_codes (hlen : i.fns.length = 2) : (i.class3 code).codes = i.codes := by
  obtain ⟨h0, h1⟩ := Island.class3_lt_length (code := code) hlen
  unfold Island.class3
  split
  next => rfl
  next => exact (Island.lockFn_codes h1).trans (Island.lockFn_codes h0)

/-- A class 3 fault locks both functions. -/
theorem Island.class3_fn (hst : i.state ≠ 2) (hlen : i.fns.length = 2) (hf : f < 2) : (i.class3 code).fn f = (i.fn f).lock code := by
  obtain ⟨h0, h1⟩ := Island.class3_lt_length (code := code) hlen
  rw [Island.class3_of_started hst]
  obtain rfl | rfl : f = 0 ∨ f = 1 := by omega
  · exact (Island.lockFn_fn_ne h1 Nat.one_ne_zero).trans (Island.lockFn_fn_self h0)
  · exact (Island.lockFn_fn_self h1).trans (congrArg (SafeFn.lock · code) (Island.lockFn_fn_ne h0 Nat.zero_ne_one))

end Class3

/-! One function at a tick (R431 … R434). -/

/-- The function as its tick finds it: the demand that begins is counted, and the SS1 time runs down. -/
def SafeFn.count (x : SafeFn) (demanded : Bool) : SafeFn :=
  { x with
    dem := demanded
    demands := if demanded && !x.dem then (x.demands + 1) % 2 ^ 32 else x.demands
    ss1 := if x.st = 1 then x.ss1 - 1 else x.ss1 }

def Island.counted (i : Island) (f : Nat) : Island := { i with fns := i.fns.set f ((i.fn f).count (i.demandSrc f).isSome) }

section Tick

variable {i : Island} {f g : Nat} {reset : Bool}

/-- A function that may restart has no fault of its STO wires and of its brake (R433). -/
theorem Island.noFault_of_ready (h : i.ready f = true) : (i.fn f).stoFault = false ∧ (i.fn f).brkFault = 0 := by
  simp only [Island.ready, Bool.and_eq_true, Bool.not_eq_true', decide_eq_true_eq] at h
  obtain ⟨⟨⟨⟨⟨-, hsto⟩, hbrk⟩, -⟩, -⟩, -⟩ := h
  exact ⟨hsto, hbrk⟩

theorem Island.counted_fns_length (i : Island) (f : Nat) : (i.counted f).fns.length = i.fns.length := List.length_set

theorem Island.counted_fn_self (hf : f < i.fns.length) : (i.counted f).fn f = (i.fn f).count (i.demandSrc f).isSome := Island.fn_set_self hf _

theorem Island.counted_fn_st (hf : f < i.fns.length) : ((i.counted f).fn f).st = (i.fn f).st := by
  rw [Island.counted_fn_self hf]
  rfl

theorem Island.counted_fn_ne (hne : f ≠ g) : (i.counted f).fn g = i.fn g := Island.fn_set_ne hne _

theorem Island.counted_ready (hf : f < i.fns.length) : (i.counted f).ready f = i.ready f := by
  unfold Island.ready
  rw [Island.counted_fn_self hf]
  rfl

theorem Island.fnStep_of_demand (h : (i.fn f).st = 0) {k : Nat} (hk : i.demandSrc f = some k) :
    i.fnStep f reset = (i.counted f).setFn f (if i.option f 0 then 1 else 2) 1 k := by
  simp only [Island.fnStep, Island.counted, SafeFn.count, h, hk, if_true]
  rfl

theorem Island.fnStep_of_noDemand (h : (i.fn f).st = 0) (hk : i.demandSrc f = none) : i.fnStep f reset = i.counted f := by
  simp only [Island.fnStep, Island.counted, SafeFn.count, h, hk, if_true]

theorem Island.fnStep_of_ss1 (h : (i.fn f).st = 1) : i.fnStep f reset = i.counted f := by
  simp only [Island.fnStep, h, Nat.reduceEqDiff, false_and, if_false, Island.counted, SafeFn.count, if_true]

theorem Island.fnStep_of_sto (h : (i.fn f).st = 2) (hf : f < i.fns.length) :
    i.fnStep f reset = if i.ready f = true ∧ (reset = true ∨ i.option f 1 = true)
      then (i.counted f).setFn f 0 (if i.option f 1 && !reset then 4 else 3) 0xFF else i.counted f := by
  rw [← Island.counted_ready hf]
  simp only [Island.fnStep, h, Nat.reduceEqDiff, false_and, if_false, true_and]
  simp only [Island.counted, SafeFn.count, h, Nat.reduceEqDiff, if_false]
  rfl

theorem Island.fnStep_of_locked (h : (i.fn f).st = 3) (hf : f < i.fns.length) :
    i.fnStep f reset = if i.ready f = true ∧ reset = true then (i.counted f).setFn f 0 3 0xFF else i.counted f := by
  rw [← Island.counted_ready hf]
  simp only [Island.fnStep, h, Nat.reduceEqDiff, false_and, if_false, true_and]
  simp only [Island.counted, SafeFn.count, h, Nat.reduceEqDiff, if_false]

/-- A tick counts at one function, and leaves it there, or takes it out of RUN, or restarts it where it is ready. -/
theorem Island.fnStep_cases (hf : f < i.fns.length) (hcode : (i.fn f).st ≤ 3) (reset : Bool) :
    i.fnStep f reset = i.counted f ∨ ∃ st cause src, i.fnStep f reset = (i.counted f).setFn f st cause src
      ∧ ((i.fn f).st = 0 ∧ st ≤ 3 ∨ i.ready f = true ∧ st = 0) := by
  obtain h0 | h1 | h2 | h3 : (i.fn f).st = 0 ∨ (i.fn f).st = 1 ∨ (i.fn f).st = 2 ∨ (i.fn f).st = 3 := by omega
  · cases hk : i.demandSrc f with
    | none => exact .inl (Island.fnStep_of_noDemand h0 hk)
    | some k => exact .inr ⟨_, _, _, Island.fnStep_of_demand h0 hk, .inl ⟨h0, by split <;> decide⟩⟩
  · exact .inl (Island.fnStep_of_ss1 h1)
  · rw [Island.fnStep_of_sto h2 hf]
    split
    next hc => exact .inr ⟨_, _, _, rfl, .inr ⟨hc.1, rfl⟩⟩
    next => exact .inl rfl
  · rw [Island.fnStep_of_locked h3 hf]
    split
    next hc => exact .inr ⟨_, _, _, rfl, .inr ⟨hc.1, rfl⟩⟩
    next => exact .inl rfl

end Tick

end Sys2Proof.Machine
end

section
/-! PROOFS. Legal islands: each operation of the safety island keeps it legal, and so does a safety tick (R431, R434, R440, R442, R446). -/

namespace Sys2Proof.Machine

open Sys2Proof

/-- What `Island.Legal` asks of one function of an island in state `n`. -/
structure SafeFn.LegalIn (x : SafeFn) (n : Nat) : Prop where
  code : x.st ≤ 3
  locked : x.fault ≠ 0 ∨ x.stoFault = true ∨ x.brkFault ≠ 0 → x.st = 3
  fault : n = 2 → x.st = 3
  starting : n = 0 → x.st = 2

/-- A legal island in state `n`, as one invariant: a step of the island goes through operations that keep the state or lead from one to the next. -/
structure Island.LegalIn (i : Island) (n : Nat) : Prop where
  state : i.state = n
  range : n ≤ 2
  fns : i.fns.length = 2
  pairs : i.pairs.length = 4
  edms : i.edms.length = 4
  log : i.log.length ≤ 64
  each : ∀ x ∈ i.fns, x.LegalIn n
  off : i.powered = false → n = 0

theorem Island.Legal.legalIn {i : Island} (h : i.Legal) : i.LegalIn i.state where
  state := rfl
  range := h.state
  fns := h.fns
  pairs := h.pairs
  edms := h.edms
  log := h.log
  each x hx := ⟨h.codes x hx, h.locked x hx, fun hn => h.fault hn x hx, fun hn => h.starting hn x hx⟩
  off := h.off

theorem Island.LegalIn.legal {i : Island} {n : Nat} (h : i.LegalIn n) : i.Legal := by
  obtain rfl := h.state
  exact
    { fns := h.fns
      pairs := h.pairs
      edms := h.edms
      log := h.log
      state := h.range
      codes := fun x hx => (h.each x hx).code
      locked := fun x hx => (h.each x hx).locked
      fault := fun hn x hx => (h.each x hx).fault hn
      starting := fun hn x hx => (h.each x hx).starting hn
      off := h.off }

/-! The functions of a legal island one by one (R431, R434). -/

section LegalFunctions

variable {x : SafeFn} {n : Nat}

theorem SafeFn.LegalIn.noFault (h : x.LegalIn n) (hst : x.st ≠ 3) : x.fault = 0 ∧ x.stoFault = false ∧ x.brkFault = 0 := by
  have hlocked := mt h.locked hst
  simpa only [not_or, Decidable.not_not, ne_eq, Bool.not_eq_true] using hlocked

/-- A function in RUN or SS1 is one of an island in OPERATE. -/
theorem SafeFn.LegalIn.operates (h : x.LegalIn n) (hst : x.st ≤ 1) : n ≠ 2 ∧ n ≠ 0 := by
  have hfault := h.fault
  have hstarting := h.starting
  omega

/-- From RUN and SS1 a function may enter any state. -/
theorem SafeFn.LegalIn.enter_of_on (h : x.LegalIn n) (hon : x.st ≤ 1) {st : Nat} (hst : st ≤ 3) (ss1 : Nat) : (x.enter st ss1).LegalIn n := by
  obtain ⟨hfault, hsto, hbrk⟩ := h.noFault (by omega)
  obtain ⟨h2, h0⟩ := h.operates hon
  exact
    { code := hst
      locked := by simp only [SafeFn.enter, hfault, hsto, hbrk, ite_self, ne_eq, not_true, Bool.false_eq_true, or_self, false_implies]
      fault := fun hn => absurd hn h2
      starting := fun hn => absurd hn h0 }

/-- In OPERATE a function whose wires and brake have no fault may run (R433). -/
theorem SafeFn.legalIn_enter_run (hsto : x.stoFault = false) (hbrk : x.brkFault = 0) (ss1 : Nat) : (x.enter 0 ss1).LegalIn 1 where
  code := Nat.zero_le 3
  locked := by simp only [SafeFn.enter, hsto, hbrk, if_true, ne_eq, not_true, Bool.false_eq_true, or_self, false_implies]
  fault := nofun
  starting := nofun

/-- Once the island has started, any function may be locked. -/
theorem SafeFn.legalIn_lock (hn : n ≠ 0) (x : SafeFn) (code : Nat) : (x.lock code).LegalIn n :=
  ⟨Nat.le_refl 3, fun _ => rfl, fun _ => rfl, fun h => absurd h hn⟩

/-- An update that leaves the state of a function, and brings no fault, leaves it legal. -/
theorem SafeFn.LegalIn.of_le (h : x.LegalIn n) {y : SafeFn} (hst : y.st = x.st) (hfault : y.fault = x.fault)
    (hsto : y.stoFault = true → x.stoFault = true) (hbrk : y.brkFault ≠ 0 → x.brkFault ≠ 0) : y.LegalIn n where
  code := hst ▸ h.code
  locked hy := hst ▸ h.locked (hy.imp (hfault ▸ ·) (Or.imp hsto hbrk))
  fault hn := hst ▸ h.fault hn
  starting hn := hst ▸ h.starting hn

end LegalFunctions

/-! Updates of the island's parts keep it legal; that of a function does where what is put there is legal. -/

namespace Island.LegalIn

section Updates

variable {i : Island} {n f k : Nat} (h : i.LegalIn n)

include h

theorem note (x : SafeNote) : (i.note x).LegalIn n := { h with }

theorem logIt (code cls slot : Nat) : (i.logIt code cls slot).LegalIn n :=
  { h with log := List.length_take_le 64 _ }

theorem faultNote (code cls slot : Nat) : (i.faultNote code cls slot).LegalIn n := (h.logIt code cls slot).note _

theorem faultClear (code cls slot : Nat) : (i.faultClear code cls slot).LegalIn n := h.note _

theorem setPair (k : Nat) (p : SafePair) : ({ i with pairs := i.pairs.set k p } : Island).LegalIn n :=
  { h with pairs := List.length_set.trans h.pairs }

/-- The safe-link input, or an input pair. -/
theorem putPair (k : Nat) (p : SafePair) : (if k = 4 then { i with link := p } else { i with pairs := i.pairs.set k p } : Island).LegalIn n := by
  split
  · exact { h with }
  · exact h.setPair k p

theorem setLinkOutFault (b : Bool) : ({ i with linkOutFault := b } : Island).LegalIn n := { h with }

theorem setResetEdge (b : Bool) : ({ i with resetEdge := b } : Island).LegalIn n := { h with }

theorem setNotes (notes : List SafeNote) : ({ i with notes := notes } : Island).LegalIn n := { h with }

theorem setEdm (k : Nat) (e : SafeEdm) : ({ i with edms := i.edms.set k e } : Island).LegalIn n :=
  { h with edms := List.length_set.trans h.edms }

theorem setFns (f : Nat) {x : SafeFn} (hx : x.LegalIn n) : ({ i with fns := i.fns.set f x } : Island).LegalIn n :=
  { h with
    fns := List.length_set.trans h.fns
    each := fun y hy => (List.mem_or_eq_of_mem_set hy).elim (h.each y) (fun e => e ▸ hx) }

theorem ne_zero_of_operate (hst : i.state = 1) : n ≠ 0 := by
  rw [← h.state, hst]
  decide

theorem fn (hf : f < 2) : (i.fn f).LegalIn n := h.each _ (Island.fn_mem (h.fns ▸ hf))

/-- What is done on a condition. -/
theorem ite {c : Prop} [Decidable c] {j : Island} (hj : c → j.LegalIn n) : (if c then j else i).LegalIn n := by
  split
  next hc => exact hj hc
  next => exact h

/-- What keeps the island legal one by one keeps it so in a row. -/
theorem foldl {l : List Nat} {op : Island → Nat → Island} (hop : ∀ j k, k ∈ l → j.LegalIn n → (op j k).LegalIn n) :
    (l.foldl op i).LegalIn n :=
  List.foldlRecOn (motive := (Island.LegalIn · n)) l op h fun j hj k hk => hop j k hk hj

/-- A function enters a state that is legal for it. -/
theorem setFn {st cause src : Nat} (hx : ((i.fn f).enter st (i.ss1Ticks f)).LegalIn n) : (i.setFn f st cause src).LegalIn n := by
  by_cases hst : (i.fn f).st = st
  · rwa [Island.setFn_of_same hst]
  · obtain ⟨edms, notes, hlen, heq⟩ := Island.setFn_of_change (cause := cause) (src := src) hst
    rw [heq]
    exact { h.setFns f hx with edms := hlen.trans h.edms }

/-- A function is locked together with what locks it, so that the fault put into it meanwhile is that of a LOCKED one. -/
theorem setFns_lockFn (hn : n ≠ 0) (hf : f < 2) (x : SafeFn) (code : Nat) :
    (({ i with fns := i.fns.set f x } : Island).lockFn f code).LegalIn n := by
  have hlen : f < i.fns.length := h.fns ▸ hf
  obtain ⟨edms, notes, hedms, heq⟩ :=
    Island.lockFn_eq (i := { i with fns := i.fns.set f x }) (code := code) (List.length_set.symm ▸ hlen)
  rw [heq, Island.fn_set_self hlen, List.set_set]
  exact { h.setFns f (SafeFn.legalIn_lock hn x code) with edms := hedms.trans h.edms }

theorem lockFn (hn : n ≠ 0) (hf : f < 2) (code : Nat) : (i.lockFn f code).LegalIn n := by
  have hlock := h.setFns_lockFn hn hf (i.fn f) code
  rwa [Island.set_fn_self] at hlock

end Updates

end Island.LegalIn

theorem Island.LegalIn.class3 {i : Island} {n : Nat} (h : i.LegalIn n) (hn : n ≠ 0) (code : Nat) : (i.class3 code).LegalIn 2 := by
  by_cases hst : i.state = 2
  · have hsame : i.class3 code = i := if_pos hst
    rw [hsame]
    exact (h.state.symm.trans hst) ▸ h
  · have hlock := ((h.faultNote code 3 88).lockFn hn Nat.two_pos code).lockFn hn Nat.one_lt_two code
    have heach : ∀ x ∈ (i.class3 code).fns, x.LegalIn 2 := by
      rw [Island.forall_mem_fns]
      · intro f hf
        rw [Island.class3_fn hst h.fns hf]
        exact SafeFn.legalIn_lock (by decide) _ code
      · rw [Island.class3_of_started hst]
        exact hlock.fns
    rw [Island.class3_of_started hst] at heach ⊢
    exact { hlock with state := rfl, range := Nat.le_refl 2, each := heach, off := fun hoff => absurd (hlock.off hoff) hn }

/-! What the inputs, the time and the supply bring about (R429, R430, R431, R437, R438, R441). -/

namespace Island.LegalIn

section Rows

variable {i : Island} {n : Nat} (h : i.LegalIn n)

include h

theorem pairFault (hn : n ≠ 0) (k code : Nat) : (i.pairFault k code).LegalIn n := by
  unfold Island.pairFault
  extract_lets p q j j'
  split
  · exact h
  · have hj : j'.LegalIn n := (h.putPair k q).faultNote _ _ _
    exact hj.foldl fun a f hf ha => ha.ite fun _ => ha.lockFn hn (List.mem_range.1 hf) code

theorem discrepancy (k : Nat) : (i.discrepancy k).LegalIn n :=
  h.ite fun hc => h.pairFault (h.ne_zero_of_operate hc.1) k _

theorem ss1Elapsed (f : Nat) : (i.ss1Elapsed f).LegalIn n :=
  h.ite fun hc => h.setFn ((h.fn hc.1).enter_of_on (Nat.le_of_eq hc.2.1) (by decide) _)

theorem edmExpiry (k : Nat) : (i.edmExpiry k).LegalIn n :=
  h.ite fun hc => ((h.setEdm k _).faultNote 9 2 (97 + k)).lockFn (h.ne_zero_of_operate hc.1) (Nat.mod_lt k Nat.two_pos) 9

theorem brakeDue (f : Nat) : (i.brakeDue f).LegalIn n := by
  unfold Island.brakeDue
  extract_lets x
  split
  next =>
    refine h.ite fun hc => note ?_ _
    exact h.setFns f ((h.fn hc.2.1).of_le rfl rfl id id)
  next => exact h

theorem supplyLow : i.supplyLow.LegalIn n := by
  refine h.ite fun _ => ?_
  have hoff : ({ i.logIt 34 0 88 with supplyOff := true } : Island).LegalIn n := { h.logIt 34 0 88 with }
  exact (hoff.note _).foldl fun a f hf ha => ha.ite fun hon => ha.setFn ((ha.fn (List.mem_range.1 hf)).enter_of_on hon (by decide) _)

theorem overdue : i.overdue.LegalIn n := by
  unfold Island.overdue
  have h1 := h.foldl (l := List.range 5) (op := Island.discrepancy) fun _ k _ hj => hj.discrepancy k
  have h2 := h1.foldl (l := List.range 4) (op := Island.edmExpiry) fun _ k _ hj => hj.edmExpiry k
  have h3 := h2.foldl (l := List.range 2) (op := Island.brakeDue) fun _ f _ hj => hj.brakeDue f
  exact h3.supplyLow

/-! The outputs and their feedback (R435, R436, R438). -/

theorem linkFault (hn : n ≠ 0) : i.linkFault.LegalIn n := by
  unfold Island.linkFault
  split
  · exact h
  · have hbad := (h.faultNote 6 2 101).setLinkOutFault true
    exact hbad.foldl fun a f hf ha => ha.ite fun _ => ha.lockFn hn (List.mem_range.1 hf) 6

theorem stoBad (hn : n ≠ 0) {f : Nat} (hf : f < 2) : (i.stoBad f).LegalIn n := by
  unfold Island.stoBad
  split
  · exact h
  · exact (h.faultNote 5 2 (93 + f)).setFns_lockFn hn hf _ 5

theorem brkFault (hn : n ≠ 0) {f : Nat} (hf : f < 2) (code : Nat) : (i.brkFault f code).LegalIn n :=
  (h.faultNote code 2 (95 + f)).setFns_lockFn hn hf _ code

theorem checkOutputs (hn : n ≠ 0) (r : SafeReads) : (i.checkOutputs r).LegalIn n := by
  unfold Island.checkOutputs
  extract_lets was w sto i1 lon lbad i2 brk i3 edm
  have h1 : i1.LegalIn n := h.foldl fun a f hf ha => ha.ite fun _ => ha.stoBad hn (List.mem_range.1 hf)
  have h2 : i2.LegalIn n := h1.ite fun _ => h1.linkFault hn
  have h3 : i3.LegalIn n := by
    refine h2.foldl fun a f hf ha => ?_
    unfold brk
    extract_lets x ma out bad counted
    have hf2 := List.mem_range.1 hf
    have hcounted : counted.LegalIn n := ha.setFns f ((ha.fn hf2).of_le rfl rfl id id)
    exact hcounted.ite fun _ => hcounted.brkFault hn hf2 7
  refine h3.foldl fun a k _ ha => ?_
  unfold edm
  extract_lets e off seen
  have hseen : seen.LegalIn n := ha.setEdm k _
  exact hseen.ite fun _ => ((hseen.setEdm k _).faultNote 10 2 (97 + k)).lockFn hn (Nat.mod_lt k Nat.two_pos) 10

theorem stoPulse (high : List Bool) : (i.stoPulse high).LegalIn n := by
  unfold Island.stoPulse
  split
  next => exact h
  next hst =>
    have hn : n ≠ 0 := h.ne_zero_of_operate (Decidable.not_not.1 hst)
    extract_lets j
    have hj : j.LegalIn n := h.foldl fun a f hf ha => ha.ite fun _ => ha.stoBad hn (List.mem_range.1 hf)
    exact hj.ite fun _ => hj.linkFault hn

theorem sbcTest (f : Nat) (passed : Bool) : (i.sbcTest f passed).LegalIn n :=
  h.ite fun hc => h.brkFault (h.ne_zero_of_operate hc.1) hc.2.1 8

/-! Reading the inputs and feedback (R427 … R430, R435). -/

theorem readInputs (r : SafeReads) : (i.readInputs r).LegalIn n := by
  unfold Island.readInputs
  extract_lets rd skip step
  refine h.foldl fun a k _ ha => ?_
  unfold step
  extract_lets old mode p j
  have hj : j.LegalIn n := ha.putPair k p
  split
  · exact hj
  · exact hj.note _

theorem readBack (r : SafeReads) : (i.readBack r).LegalIn n where
  state := h.state
  range := h.range
  fns := by
    unfold Island.readBack
    simp only [List.length_map, List.length_zipIdx, h.fns]
  pairs := h.pairs
  edms := by
    unfold Island.readBack
    simp only [List.length_map, List.length_zipIdx, h.edms]
  log := h.log
  each y hy := by
    obtain ⟨⟨x, f⟩, hx, rfl⟩ := List.mem_map.1 hy
    exact (h.each x (List.fst_mem_of_mem_zipIdx hx)).of_le rfl rfl id id
  off := h.off

theorem testPulse (b : Bool) (low : List Bool) : (i.testPulse b low).LegalIn n := by
  unfold Island.testPulse
  split
  next => exact h
  next hst =>
    have hn : n ≠ 0 := h.ne_zero_of_operate (Decidable.not_not.1 hst)
    extract_lets step
    refine h.foldl fun a k _ ha => ?_
    unfold step
    split
    next => exact ha
    next =>
      extract_lets p q wrong judged j
      have hj : j.LegalIn n := ha.setPair k judged
      split
      · exact hj
      · exact hj.pairFault hn k _

/-! Resets (R433, R440). -/

theorem clearFaults (wireBad : Nat → Bool) (linkBad : Bool) : (i.clearFaults wireBad linkBad).LegalIn n := by
  unfold Island.clearFaults
  extract_lets calm heal i1 cleared i2 edm i3
  have h1 : i1.LegalIn n := by
    refine h.foldl fun a k _ ha => ?_
    unfold heal
    extract_lets p j q
    have hj : j.LegalIn n := ha.faultClear _ _ _
    exact ha.ite fun _ => hj.putPair k q
  have h2 : i2.LegalIn n := h1.ite fun _ => (h1.faultClear 6 2 101).setLinkOutFault false
  have h3 : i3.LegalIn n := by
    refine h2.foldl fun a k _ ha => ?_
    unfold edm
    extract_lets e
    exact ha.ite fun _ => (ha.faultClear _ _ _).setEdm k _
  refine h3.foldl fun a f hf ha => ?_
  have hf2 := List.mem_range.1 hf
  extract_lets x braked j y freed
  have hj : j.LegalIn n := by
    refine ha.ite fun _ => (ha.faultClear _ _ _).setFns f ?_
    exact (ha.fn hf2).of_le rfl rfl id fun hb => absurd rfl hb
  refine hj.ite fun _ => (hj.faultClear _ _ _).setFns f ?_
  exact (hj.fn hf2).of_le rfl rfl (fun hb => absurd hb Bool.false_ne_true) id

theorem resetFall (us : Nat) : (i.resetFall us).LegalIn n := h.ite fun _ => h.setResetEdge true

theorem resetStuck : i.resetStuck.LegalIn n := by
  unfold Island.resetStuck
  split
  · exact h
  · exact (h.logIt 32 0 88).note _

theorem brkPulse (f ms : Nat) : (i.brkPulse f ms).LegalIn n := by
  unfold Island.brkPulse
  split
  next => exact h
  next hc =>
    have hf : f < 2 := by omega
    split
    · extract_lets x j
      have hj : j.LegalIn n := h.setFns f ((h.fn hf).of_le rfl rfl id id)
      split
      · exact hj.note _
      · exact hj
    · exact (h.logIt 33 0 (95 + f)).note _

/-! Demands and restarts (R431 … R434). -/

/-- In OPERATE a function at a tick stays legal: one that runs again has no fault of its wires and its brake. -/
theorem fnStep (h1 : n = 1) {f : Nat} (hf : f < 2) (reset : Bool) : (i.fnStep f reset).LegalIn n := by
  subst h1
  have hlen : f < i.fns.length := h.fns ▸ hf
  have hcounted : (i.counted f).LegalIn 1 := h.setFns f ((h.fn hf).of_le rfl rfl id id)
  obtain heq | ⟨st, cause, src, heq, ⟨h0, hst⟩ | ⟨hready, rfl⟩⟩ := Island.fnStep_cases hlen (h.fn hf).code reset
  · rwa [heq]
  · rw [heq]
    have hon : ((i.counted f).fn f).st = 0 := (Island.counted_fn_st hlen).trans h0
    exact hcounted.setFn ((hcounted.fn hf).enter_of_on (Nat.le_succ_of_le (Nat.le_of_eq hon)) hst _)
  · rw [heq]
    obtain ⟨hsto, hbrk⟩ := Island.noFault_of_ready ((Island.counted_ready hlen).trans hready)
    exact hcounted.setFn (SafeFn.legalIn_enter_run hsto hbrk _)

end Rows

end Island.LegalIn

/-! Whole steps of the island: a tick, a reading of the configuration, start and stop (R426, R427, R441, R442). -/

theorem Island.off_legal : Island.off.Legal := by
  constructor <;> decide

/-- A function in STO is legal in OPERATE too. -/
theorem SafeFn.LegalIn.start {x : SafeFn} (h : x.LegalIn 0) : x.LegalIn 1 := { h with fault := nofun, starting := nofun }

/-- The island enters OPERATE with the codes it has read. -/
theorem Island.LegalIn.start {i : Island} (h : i.LegalIn 0) (hp : i.powered = true) (codes : List Nat) :
    ({ i with state := 1, codes := codes } : Island).LegalIn 1 :=
  { h with
    state := rfl
    range := by decide
    each := fun x hx => (h.each x hx).start
    off := fun hoff => nomatch hp.symm.trans hoff }

namespace Island.Legal

variable {i : Island} (h : i.Legal)

include h

theorem powerOn (mv : Nat) : (i.powerOn mv).Legal := by
  unfold Island.powerOn
  split
  · exact h
  · exact { Island.off_legal with off := nofun }

theorem reread (a b : List Nat) : (i.reread a b).Legal := by
  have hclass3 (hst : i.state = 1) : (i.class3 16).Legal := (h.legalIn.class3 (by omega) 16).legal
  unfold Island.reread
  split
  next => exact h
  next hst =>
    split
    next =>
      split
      · exact h
      · exact hclass3 (Decidable.not_not.1 hst)
    next => exact hclass3 (Decidable.not_not.1 hst)

theorem startDone (a b : List Nat) (test : Nat) : (i.startDone a b test).Legal := by
  unfold Island.startDone
  split
  next => exact h
  next hc =>
    obtain ⟨hp, hst⟩ := not_or.1 hc
    extract_lets cfg j
    have hj : j.LegalIn 1 := (Decidable.not_not.1 hst ▸ h.legalIn : i.LegalIn 0).start (Decidable.not_not.1 hp) _
    split
    · exact (hj.class3 Nat.one_ne_zero 16).legal
    · split
      · exact (hj.class3 Nat.one_ne_zero test).legal
      · exact hj.legal

/-- A safety tick keeps the island legal: in OPERATE through checks, demands and restarts, otherwise it goes on reading alone. -/
theorem step (r : SafeReads) : (i.step r).Legal := by
  unfold Island.step
  split
  next => exact h
  next =>
    extract_lets ticked read compared idle checked w reset bad healed acted ended
    have hread : read.LegalIn i.state := ((show ticked.LegalIn i.state from { h.legalIn with }).readInputs r).readBack r
    have hcompared : compared.Legal := by
      unfold compared
      split
      next => exact hread.legal
      next hst =>
        have hclass3 (code : Nat) : (read.class3 code).Legal := (hread.class3 (hread.ne_zero_of_operate (Decidable.not_not.1 hst)) code).legal
        split
        · exact hclass3 18
        · split
          · exact hclass3 17
          · split
            · exact hclass3 19
            · exact hread.legal
    have hidle := hcompared.legalIn.overdue
    split
    next => exact (hidle.setResetEdge false).legal
    next hst =>
      have hcompared : compared.LegalIn 1 := Decidable.not_not.1 hst ▸ hcompared.legalIn
      have hchecked : checked.LegalIn 1 := (hcompared.checkOutputs Nat.one_ne_zero r).overdue
      have hhealed : healed.LegalIn 1 := hchecked.ite fun _ => hchecked.clearFaults _ _
      have hacted : acted.LegalIn 1 := (hhealed.fnStep rfl Nat.two_pos reset).fnStep rfl Nat.one_lt_two reset
      exact (((hacted.ss1Elapsed 0).ss1Elapsed 1).setResetEdge false).legal

end Island.Legal

end Sys2Proof.Machine
end

section
/-! PROOFS. The rows of the safety island and what they leave of the die, legal islands over every step, status frames (chapter 14). -/

namespace Sys2Proof.Machine

open Sys2Proof

/-! Rows of the island and of the motion side (R419). -/

/-- A row whose cause does not lie at the island's balls and clock acts on the die alone. -/
theorem exec_of_motionRow {c : Instr} (h : islandRow c = false) (s : State) : ∃ d, exec c s = .next { s with md := d } := by
  cases c <;> cases h <;> exact ⟨_, rfl⟩

theorem isl_of_motionRow {c : Instr} {s t : State} (h : islandRow c = false) (ht : exec c s = .next t) : t.isl = s.isl := by
  obtain ⟨d, hd⟩ := exec_of_motionRow h s
  obtain rfl := Host.Outcome.next.inj (hd.symm.trans ht)
  rfl

/-- A row of the island is its tick, or an operation of the island that keeps it legal. -/
theorem exec_of_islandRow {c : Instr} (h : islandRow c = true) :
    (∃ r, ∀ s, exec c s = .next (s.safetyTick r).quiet)
      ∨ ∃ f : Island → Island, (∀ i, i.Legal → (f i).Legal) ∧ ∀ s, exec c s = onIsland s f := by
  cases c
  case safetyTick r => exact .inl ⟨r, fun _ => rfl⟩
  case safeTestPulse b low => exact .inr ⟨_, fun _ hi => (hi.legalIn.testPulse b low).legal, fun _ => rfl⟩
  case discrepancy k => exact .inr ⟨_, fun _ hi => (hi.legalIn.discrepancy k).legal, fun _ => rfl⟩
  case ss1TimeElapsed f => exact .inr ⟨_, fun _ hi => (hi.legalIn.ss1Elapsed f).legal, fun _ => rfl⟩
  case safeResetFall us => exact .inr ⟨_, fun _ hi => (hi.legalIn.resetFall us).legal, fun _ => rfl⟩
  case resetStuck => exact .inr ⟨_, fun _ hi => hi.legalIn.resetStuck.legal, fun _ => rfl⟩
  case stoTestPulse high => exact .inr ⟨_, fun _ hi => (hi.legalIn.stoPulse high).legal, fun _ => rfl⟩
  case sbcSwitchTest f passed => exact .inr ⟨_, fun _ hi => (hi.legalIn.sbcTest f passed).legal, fun _ => rfl⟩
  case brkPassPulse f ms => exact .inr ⟨_, fun _ hi => (hi.legalIn.brkPulse f ms).legal, fun _ => rfl⟩
  case brakeTestInterval f => exact .inr ⟨_, fun _ hi => (hi.legalIn.brakeDue f).legal, fun _ => rfl⟩
  case edmTimeExpiry k => exact .inr ⟨_, fun _ hi => (hi.legalIn.edmExpiry k).legal, fun _ => rfl⟩
  case configReread a b => exact .inr ⟨_, fun _ hi => hi.reread a b, fun _ => rfl⟩
  case supplyLow => exact .inr ⟨_, fun _ hi => hi.legalIn.supplyLow.legal, fun _ => rfl⟩
  case safePowerOn mv => exact .inr ⟨_, fun _ hi => hi.powerOn mv, fun _ => rfl⟩
  case islandStop => exact .inr ⟨_, fun _ _ => Island.off_legal, fun _ => rfl⟩
  case islandStartComplete a b test => exact .inr ⟨_, fun _ hi => hi.startDone a b test, fun _ => rfl⟩
  all_goals cases h

/-- The request wires of an island put beside the die: seen with their time where they change. -/
theorem State.setIsl_md (s : State) (i : Island) : ∃ w, (w = s.md.ss1Wire ∨ w = (i.wires, s.md.ns) :: s.md.ss1Wire)
    ∧ (s.setIsl i).md = { s.md with ss1Wire := w } := by
  unfold State.setIsl
  split
  · exact ⟨_, .inl rfl, rfl⟩
  · exact ⟨_, .inr rfl, rfl⟩

section Tick

variable {s : State} {r : SafeReads}

theorem State.safetyTick_of_off (h : (s.isl.step r).powered = false) : s.safetyTick r = s := by
  simp only [State.safetyTick, h, Bool.not_false, if_true]

theorem State.safetyTick_isl (h : (s.isl.step r).powered = true) : (s.safetyTick r).isl = { s.isl.step r with notes := [] } := by
  unfold State.safetyTick
  extract_lets i s' notes
  rw [if_neg (by rw [h]; decide)]
  split
  · rfl
  · split <;> rfl

/-- A tick of an island that runs, beside the island it puts there: its reports leave with the frame, or wait for the next one. -/
theorem State.safetyTick_md {s' : State} (h : (s.isl.step r).powered = true) (hs' : s' = s.setIsl { s.isl.step r with notes := [] }) :
    ∃ queue missed, (queue = s'.md.safe.queue ∨ ∃ f, queue = s'.md.safe.queue ++ [(s.md.ns, f)])
      ∧ (s.safetyTick r).md = { s'.md with safe := { s'.md.safe with queue := queue, missed := missed } } := by
  subst hs'
  unfold State.safetyTick
  extract_lets i s' notes
  rw [if_neg (by rw [h]; decide)]
  split
  · exact ⟨_, _, .inl rfl, rfl⟩
  · split
    · exact ⟨_, _, .inr ⟨_, rfl⟩, rfl⟩
    · exact ⟨_, _, .inl rfl, rfl⟩

end Tick

/-- Settles O36: a row of the motion side acts on the die alone (`exec_of_motionRow`), a row of the island puts the island beside the die
(`exec_of_islandRow`), which sees its wires (`setIsl_md`) and, at a tick, its frame and the reports that wait (`safetyTick_md`). -/
theorem islandStandsApart : Obligations.IslandStandsApart := by
  refine ⟨fun c s t hc ht => ?motion, fun c s t hc ht => ?island⟩
  case motion => exact isl_of_motionRow hc ht
  case island =>
    obtain ⟨r, hr⟩ | ⟨f, -, hf⟩ := exec_of_islandRow hc
    · obtain rfl := Host.Outcome.next.inj ((hr s).symm.trans ht)
      cases hp : (s.isl.step r).powered with
      | false =>
        rw [State.safetyTick_of_off hp]
        exact ⟨rfl, .inl rfl, .inl rfl⟩
      | true =>
        obtain ⟨w, hw, hmd⟩ := s.setIsl_md { s.isl.step r with notes := [] }
        obtain ⟨queue, missed, hqueue, htick⟩ := State.safetyTick_md hp rfl
        rw [hmd] at hqueue htick
        rw [State.quiet, htick, State.safetyTick_isl hp]
        exact ⟨rfl, hw, hqueue⟩
    · obtain rfl := Host.Outcome.next.inj ((hf s).symm.trans ht)
      obtain ⟨w, hw, hmd⟩ := s.setIsl_md (f s.isl)
      rw [State.quiet, hmd]
      exact ⟨rfl, hw, .inl rfl⟩

/-! Legal islands over every step (R431, R434, R440, R442, R446). -/

/-- Settles O37: the island after reset is one without supply. -/
theorem islandLegalAtReset : Obligations.IslandLegalAtReset := Island.off_legal

theorem State.safetyTick_legal {s : State} (h : s.isl.Legal) (r : SafeReads) : (s.safetyTick r).isl.Legal := by
  cases hp : (s.isl.step r).powered with
  | false => rwa [State.safetyTick_of_off hp]
  | true =>
    rw [State.safetyTick_isl hp]
    exact ((h.step r).legalIn.setNotes []).legal

/-- Every command keeps the island legal: one of the motion side leaves it, one of the island's own keeps it so. -/
theorem exec_keeps_legal {c : Instr} {s t : State} (h : s.isl.Legal) (ht : exec c s = .next t) : t.isl.Legal := by
  cases hc : islandRow c with
  | false => rwa [isl_of_motionRow hc ht]
  | true =>
    obtain ⟨r, hr⟩ | ⟨f, hkeep, hf⟩ := exec_of_islandRow hc
    · obtain rfl := Host.Outcome.next.inj ((hr s).symm.trans ht)
      exact State.safetyTick_legal h r
    · obtain rfl := Host.Outcome.next.inj ((hf s).symm.trans ht)
      exact hkeep s.isl h

/-- Settles O38: a step is a base tick of the die, which leaves the island, or the command at the front of the queue (`exec_keeps_legal`). -/
theorem stepKeepsIslandLegal : Obligations.StepKeepsIslandLegal := by
  intro s t h ht
  cases hp : s.pending with
  | nil =>
    obtain rfl := Host.Outcome.next.inj ((step_of_idle hp).symm.trans ht)
    exact h
  | cons c r =>
    have hstep : step s = exec c { s with pending := r } := by simp only [step, hp]
    exact exec_keeps_legal (s := { s with pending := r }) h (hstep.symm.trans ht)

/-! Outputs (R431, R435, R436, R440). -/

section Outputs

variable {i : Island} {f : Nat}

theorem Island.stoOn_iff : i.stoOn f = true ↔ i.powered = true ∧ i.state = 1 ∧ (i.fn f).st ≤ 1 := by
  simp only [Island.stoOn, Bool.and_eq_true, decide_eq_true_eq, and_assoc]

theorem Island.sbcOn_iff : i.sbcOn f = true ↔ i.stoOn f = true ∧ i.sbcUsed f = true ∧ (i.fn f).brkFault = 0 := by
  simp only [Island.sbcOn, Bool.and_eq_true, decide_eq_true_eq, and_assoc]

theorem Island.ss1Req_eq_false_iff : i.ss1Req f = false ↔ i.powered = true ∧ i.state = 1 ∧ (i.fn f).st = 0 := by
  simp only [Island.ss1Req, Bool.not_eq_false', Bool.and_eq_true, decide_eq_true_eq, and_assoc]

/-- The safe-link output is driven, and every function that drives it runs. -/
theorem Island.linkOn_iff : i.linkOn = true ↔ i.powered = true ∧ i.state = 1 ∧ (i.option 0 3 = true ∨ i.option 1 3 = true)
    ∧ ∀ g < 2, i.option g 3 = true → (i.fn g).st = 0 := by
  simp only [Island.linkOn, Bool.and_eq_true, Bool.or_eq_true, decide_eq_true_eq, List.all_eq_true, List.mem_range, Bool.not_eq_true',
    ← Bool.not_eq_true, ← Decidable.imp_iff_not_or, and_assoc]

end Outputs

/-- Settles O39: each output is the conjunction that commands it; that of a request wire holds without supply too (log 160). -/
theorem outputsOffOutsideRunAndSs1 : Obligations.OutputsOffOutsideRunAndSs1 := by
  refine fun i f => ⟨Island.stoOn_iff.1, Island.sbcOn_iff.1, fun h => ?_, Island.ss1Req_eq_false_iff⟩
  obtain ⟨-, hst, -, hrun⟩ := Island.linkOn_iff.1 h
  exact ⟨hst, hrun⟩

/-! Start and stop (R425, R426, R441, R442). -/

theorem exec_safePowerOn (mv : Nat) (s : State) : exec (.safePowerOn mv) s = .next (s.setIsl (s.isl.powerOn mv)).quiet := rfl

theorem exec_islandStop (s : State) : exec .islandStop s = .next (s.setIsl Island.off).quiet := rfl

theorem exec_islandStartComplete (a b : List Nat) (test : Nat) (s : State) :
    exec (.islandStartComplete a b test) s = .next (s.setIsl (s.isl.startDone a b test)).quiet := rfl

theorem exec_configReread (a b : List Nat) (s : State) : exec (.configReread a b) s = .next (s.setIsl (s.isl.reread a b)).quiet := rfl

section Configuration

variable {i : Island} {a b x : List Nat} {test : Nat}

theorem Island.powerOn_of_off (h : i.powered = false) (mv : Nat) : i.powerOn mv = { Island.off with powered := true, supplyMv := mv } :=
  if_neg (ne_true_of_eq_false h)

theorem Island.powerOn_of_on (h : i.powered = true) (mv : Nat) : i.powerOn mv = i := if_pos h

/-- Both channels read the same codes: the island starts with them, unless the self-test finds a fault. -/
theorem Island.startDone_of_agree (hp : i.powered = true) (hst : i.state = 0) (ha : readCodes a = some x) (hb : readCodes b = some x) :
    i.startDone a b test =
      if 16 ≤ test ∧ test ≤ 19 then ({ i with state := 1, codes := x } : Island).class3 test else { i with state := 1, codes := x } := by
  simp only [Island.startDone, hp, hst, ha, hb, not_true, ne_eq, or_self, if_false, if_true, Option.isNone_some, Option.getD_some,
    Bool.false_eq_true]

/-- The channels do not read the same codes. -/
theorem Island.startDone_of_differ (hp : i.powered = true) (hst : i.state = 0) (h : ∀ x, ¬ (readCodes a = some x ∧ readCodes b = some x)) :
    ∃ codes, i.startDone a b test = ({ i with state := 1, codes := codes } : Island).class3 16 := by
  have hoff : ¬(¬i.powered = true ∨ i.state ≠ 0) := by simp only [hp, hst, not_true, ne_eq, or_self, not_false_eq_true]
  unfold Island.startDone
  rw [if_neg hoff]
  extract_lets cfg j
  have hcfg : cfg = none := by
    unfold cfg
    split
    next x y ha hb => exact if_neg fun (hxy : x = y) => h x ⟨ha, hxy ▸ hb⟩
    next => rfl
  rw [if_pos (by rw [hcfg]; rfl)]
  exact ⟨_, rfl⟩

theorem Island.reread_of_agree (ha : readCodes a = some i.codes) (hb : readCodes b = some i.codes) : i.reread a b = i := by
  unfold Island.reread
  split
  · rfl
  · simp only [ha, hb, and_self, if_true]

theorem Island.reread_of_differ (hst : i.state = 1) (h : readCodes a ≠ some i.codes ∨ readCodes b ≠ some i.codes) :
    i.reread a b = i.class3 16 := by
  unfold Island.reread
  rw [if_neg (Decidable.not_not.2 hst)]
  split
  next x y ha hb =>
    refine if_neg fun ⟨hxy, hx⟩ => ?_
    rw [ha, hb, ← hxy, hx] at h
    exact h.elim (absurd rfl) (absurd rfl)
  next => rfl

end Configuration

/-- Settles O40: a start or a reading that fails is a class 3 fault, which locks both functions (`class3_fn`); functions that wait for the start
are in STO and name no fault yet. -/
theorem islandStartsAndStops : Obligations.IslandStartsAndStops := by
  intro s h
  refine ⟨fun hp mv => ?off, fun hp mv => ?on, exec_islandStop s, fun hp hst a b test => ?start, fun hst a b => ?reread⟩
  case off => rw [exec_safePowerOn, Island.powerOn_of_off hp]
  case on => rw [exec_safePowerOn, Island.powerOn_of_on hp]
  case start =>
    have hsto (f : Nat) (hf : f < 2) : (s.isl.fn f).st = 2 := (h.legalIn.fn hf).starting hst
    have hlocked (codes : List Nat) (code f : Nat) (hf : f < 2) :
        let i := ({ s.isl with state := 1, codes := codes } : Island).class3 code
        (i.fn f).st = 3 ∧ (i.fn f).fault = code := by
      have hfn := Island.class3_fn (i := { s.isl with state := 1, codes := codes }) (code := code) (show (1 : Nat) ≠ 2 by decide) h.fns hf
      have hst3 : (s.isl.fn f).st ≠ 3 := by rw [hsto f hf]; decide
      obtain ⟨hfault, -, -⟩ := (h.legalIn.fn hf).noFault hst3
      intro i
      rw [hfn]
      exact ⟨rfl, if_pos hfault⟩
    refine ⟨fun x ha hb htest => ?started, fun hdiffer => ?differ, fun x ha hb hlo hhi => ?failed⟩
    case started =>
      refine ⟨_, exec_islandStartComplete a b test s, ?_⟩
      rw [Island.startDone_of_agree hp hst ha hb, if_neg (by omega)]
      refine ⟨rfl, rfl, rfl, fun f hf => Bool.eq_false_iff.2 fun hon => ?_⟩
      obtain ⟨-, -, hrun⟩ := Island.stoOn_iff.1 hon
      exact absurd (hsto f hf ▸ hrun : 2 ≤ 1) (by decide)
    case differ =>
      obtain ⟨codes, hfail⟩ := Island.startDone_of_differ (test := test) hp hst hdiffer
      refine ⟨_, exec_islandStartComplete a b test s, ?_⟩
      rw [hfail]
      exact ⟨Island.class3_state, hlocked codes 16⟩
    case failed =>
      refine ⟨_, exec_islandStartComplete a b test s, ?_⟩
      rw [Island.startDone_of_agree hp hst ha hb, if_pos ⟨hlo, hhi⟩]
      exact ⟨Island.class3_state, Island.class3_codes h.fns, hlocked x test⟩
  case reread =>
    refine ⟨fun ha hb => ?agree, fun hdiffer => ?differ⟩
    case agree => rw [exec_configReread, Island.reread_of_agree ha hb]
    case differ =>
      refine ⟨_, exec_configReread a b s, ?_⟩
      rw [Island.reread_of_differ hst hdiffer]
      refine ⟨Island.class3_state, fun f hf => ?_⟩
      exact congrArg SafeFn.st (Island.class3_fn (by omega) h.fns hf)

/-! Manual reset and holding-torque tests (R433, R437). -/

theorem exec_safeResetFall (us : Nat) (s : State) : exec (.safeResetFall us) s = .next (s.setIsl (s.isl.resetFall us)).quiet := rfl

theorem exec_resetStuck (s : State) : exec .resetStuck s = .next (s.setIsl s.isl.resetStuck).quiet := rfl

theorem exec_brkPassPulse (f ms : Nat) (s : State) : exec (.brkPassPulse f ms) s = .next (s.setIsl (s.isl.brkPulse f ms)).quiet := rfl

theorem exec_brakeTestInterval (f : Nat) (s : State) : exec (.brakeTestInterval f) s = .next (s.setIsl (s.isl.brakeDue f)).quiet := rfl

section Started

variable {i : Island} {f ms : Nat}

theorem Island.resetFall_of_valid (hst : i.state ≠ 0) {us : Nat} (h : 100000 ≤ us ∧ us ≤ 3000000) :
    i.resetFall us = { i with resetEdge := true } := if_pos ⟨hst, h⟩

theorem Island.resetFall_of_invalid {us : Nat} (h : us < 100000 ∨ 3000000 < us) : i.resetFall us = i := if_neg (by omega)

theorem Island.resetStuck_of_started (hst : i.state ≠ 0) :
    ∃ notes, i.resetStuck = { i.logIt 32 0 88 with notes := notes } := ⟨_, if_neg hst⟩

theorem Island.brkPulse_of_pass (hst : i.state ≠ 0) (hf : f < 2) (h : 100 ≤ ms ∧ ms ≤ 500) : ∃ notes,
    i.brkPulse f ms = { i with fns := i.fns.set f { i.fn f with brkPass := i.tick, brkDue := false }, notes := notes } := by
  unfold Island.brkPulse
  rw [if_neg (by omega), if_pos h]
  extract_lets x j
  split
  · exact ⟨_, rfl⟩
  · exact ⟨_, rfl⟩

theorem Island.brkPulse_of_invalid (hst : i.state ≠ 0) (hf : f < 2) (h : ms < 100 ∨ 500 < ms) :
    ∃ notes, i.brkPulse f ms = { i.logIt 33 0 (95 + f) with notes := notes } := by
  unfold Island.brkPulse
  rw [if_neg (by omega), if_neg (by omega)]
  exact ⟨_, rfl⟩

theorem Island.brakeDue_of_elapsed (hst : i.state ≠ 0) (hf : f < 2) (hused : i.sbcUsed f = true) (hdue : (i.fn f).brkDue = false) {sec : Nat}
    (hsec : i.brkInterval = some sec) (hage : sec ≤ (i.tick - (i.fn f).brkPass) / 2000) :
    ∃ notes, i.brakeDue f = { i with fns := i.fns.set f { i.fn f with brkDue := true }, notes := notes } := by
  simp only [Island.brakeDue, hsec]
  rw [if_pos ⟨hst, hf, hused, ne_true_of_eq_false hdue, hage⟩]
  exact ⟨_, rfl⟩

end Started

/-- Settles O41: what each row does to an island that has started; beside it only reports move (a stuck reset is logged under the summary, log 160). -/
theorem islandResetAndBrakeTests : Obligations.IslandResetAndBrakeTests := by
  intro s _ hst
  refine ⟨fun us => ⟨fun hus => ?valid, fun hus => ?invalid⟩, ?stuck, fun f ms hf => ⟨fun hms => ?pass, fun hms => ?badPulse⟩,
    fun f sec hf hused hdue hsec hage => ?interval⟩
  case valid => rw [exec_safeResetFall, Island.resetFall_of_valid hst hus]
  case invalid => rw [exec_safeResetFall, Island.resetFall_of_invalid hus]
  case stuck =>
    obtain ⟨notes, h⟩ := Island.resetStuck_of_started hst
    refine ⟨_, exec_resetStuck s, ?_⟩
    rw [h]
    exact ⟨rfl, rfl, rfl⟩
  case pass =>
    obtain ⟨notes, h⟩ := Island.brkPulse_of_pass hst hf hms
    refine ⟨_, exec_brkPassPulse f ms s, ?_⟩
    rw [h]
    exact ⟨rfl, rfl⟩
  case badPulse =>
    obtain ⟨notes, h⟩ := Island.brkPulse_of_invalid hst hf hms
    refine ⟨_, exec_brkPassPulse f ms s, ?_⟩
    rw [h]
    exact ⟨rfl, rfl⟩
  case interval =>
    obtain ⟨notes, h⟩ := Island.brakeDue_of_elapsed hst hf hused hdue hsec hage
    refine ⟨_, exec_brakeTestInterval f s, ?_⟩
    rw [h]
    exact ⟨rfl, rfl⟩

/-! Demands and restarts (R431 … R434). -/

/-- Settles O43: `fnStep` by the state of the function (`fnStep_of_demand` and the lemmas beside it); in every state the demand that begins is
counted first (`fnStep_cases`). A demand in SS1, the demands counted and the conditions of a restart are as logs 99, 129 and 160 have them. -/
theorem demandAndRestartRules : Obligations.DemandAndRestartRules := by
  intro i f reset h hf
  have hlen : f < i.fns.length := h.fns ▸ hf
  have hlen' : f < (i.counted f).fns.length := (i.counted_fns_length f).symm ▸ hlen
  have hself := Island.counted_fn_self hlen
  have hst := Island.counted_fn_st hlen
  refine ⟨fun h0 k hk => ?demand, fun h0 hk => ?noDemand, fun h1 => ?ss1, ?demands, fun h2 => ?sto, fun h3 => ?locked, fun g hg => ?other⟩
  case demand =>
    rw [Island.fnStep_of_demand h0 hk]
    exact Island.setFn_fn_st hlen'
  case noDemand =>
    rw [Island.fnStep_of_noDemand h0 hk]
    simp only [Island.counted, SafeFn.count, hk, h0, Option.isSome_none, Bool.false_and, Bool.false_eq_true, if_false, Nat.zero_ne_one]
  case ss1 =>
    rw [Island.fnStep_of_ss1 h1, hself]
    exact ⟨h1, if_pos h1⟩
  case demands =>
    have hcount : ((i.counted f).fn f).demands =
        if (i.demandSrc f).isSome ∧ (i.fn f).dem = false then ((i.fn f).demands + 1) % 2 ^ 32 else (i.fn f).demands := by
      simp only [hself, SafeFn.count, Bool.and_eq_true, Bool.not_eq_true']
    obtain heq | ⟨st, cause, src, heq, -⟩ := Island.fnStep_cases hlen (h.legalIn.fn hf).code reset
    · rw [heq, hcount]
    · rw [heq, Island.setFn_fn_demands hlen', hcount]
  case sto =>
    rw [Island.fnStep_of_sto h2 hlen]
    split
    next hc => exact iff_of_true (Island.setFn_fn_st hlen') hc
    next hc => exact iff_of_false (by rw [hst, h2]; decide) hc
  case locked =>
    rw [Island.fnStep_of_locked h3 hlen]
    split
    next hc => exact iff_of_true (Island.setFn_fn_st hlen') hc
    next hc => exact iff_of_false (by rw [hst, h3]; decide) hc
  case other =>
    obtain heq | ⟨st, cause, src, heq, -⟩ := Island.fnStep_cases hlen (h.legalIn.fn hf).code reset
    · rw [heq, Island.counted_fn_ne hg.symm]
    · rw [heq, Island.setFn_fn_ne hg.symm, Island.counted_fn_ne hg.symm]

/-! Status frames (R444, R447). -/

theorem exec_safeStatusFrame_of_running {s : State} (h : s.md.boot.inReset = false) :
    exec .safeStatusFrame s = .next (s.after s.md.start.safeFrame) := onDie_of_running s _ h

theorem exec_safeStatusTimeout_of_running {s : State} (h : s.md.boot.inReset = false) :
    exec .safeStatusTimeout s = .next (s.after s.md.start.statusTimeout) := onDie_of_running s _ h

section Frames

variable {d : MDie}

theorem MDie.safeFrame_of_sent {x : Nat × SafeFrame} {r : List (Nat × SafeFrame)} (hq : d.safe.queue = x :: r) (h : x.1 < d.tick) :
    d.safeFrame = ({ d with safe := { d.safe with queue := r } } : MDie).safeTake x.1 x.2 d.tick := by
  simp only [MDie.safeFrame, hq]
  exact if_pos h

/-- Reports leave the mirror as it is. -/
theorem MDie.foldl_post_safe (l : List (Nat × Ev)) (d : MDie) : (l.foldl (fun d (x : Nat × Ev) => d.post x.1 x.2) d).safe = d.safe :=
  List.foldlRecOn (motive := fun x : MDie => x.safe = d.safe) l _ rfl fun _ hx _ _ => hx

@[simp] theorem MDie.passTo_safe (d : MDie) (t : Nat) : (d.passTo t).safe = d.safe := by
  simp only [MDie.passTo]
  split <;> rfl

theorem MDie.safeTimeout_of_due {t : Nat} (hlost : d.safe.lost = false) (hq : d.safe.queue = []) (ht : d.safe.at_ + 8000000 ≤ t) :
    d.safeTimeout t = ({ d with safe := { d.safe with unknown := true, lost := true } } : MDie).post 88
      (report Evt.safeStatusLost ((d.safe.at_ + 8000000) / 16000 * 16000) []) := by
  refine if_neg ?_
  rw [hlost, hq]
  simp only [Bool.false_eq_true, ne_eq, not_true, false_or]
  omega

/-- The die waits for a frame until 8 ms after the last one, where that comes before the next tick. -/
theorem MDie.statusTimeout_of_silent (hlost : d.safe.lost = false) (hq : d.safe.queue = []) (h : d.safe.at_ + 8000000 ≤ d.nextTick) :
    d.statusTimeout = ({ d.passTo (d.safe.at_ + 8000000) with safe := { d.safe with unknown := true, lost := true } } : MDie).post 88
      (report Evt.safeStatusLost ((d.safe.at_ + 8000000) / 16000 * 16000) []) := by
  have hsafe := d.passTo_safe (d.safe.at_ + 8000000)
  have hwait : d.statusTimeout = d.whenNs (d.safe.at_ + 8000000) (fun d => d.safeTimeout d.ns) := by
    refine if_neg ?_
    simp only [hlost, hq, Bool.false_eq_true, ne_eq, not_true, or_self, not_false_eq_true]
  rw [hwait, MDie.whenNs_of_le _ h, MDie.safeTimeout_of_due (by rwa [hsafe]) (by rwa [hsafe]) (by rw [hsafe]; exact d.le_ns_passTo _), hsafe]

end Frames

/-- Settles O44: a frame is taken by `safeTake`, whose reports leave the mirror (`foldl_post_safe`); without one the mirror is UNKNOWN from 8 ms
after the last frame left (`statusTimeout_of_silent`, log 102). -/
theorem statusFramesMirrored : Obligations.StatusFramesMirrored := by
  intro s hrun
  refine ⟨fun x r hq ht => ?frame, fun d sent f t => ?taken, fun hlost hq _ hdue => ?silent⟩
  case frame =>
    rw [exec_safeStatusFrame_of_running hrun, MDie.safeFrame_of_sent (d := s.md.start) hq ht]
    rfl
  case taken =>
    simp only [MDie.safeTake, MDie.foldl_post_safe, and_self]
  case silent =>
    rw [exec_safeStatusTimeout_of_running hrun, MDie.statusTimeout_of_silent (d := s.md.start) hlost hq hdue]
    rfl

end Sys2Proof.Machine
end

section
/-! PROOFS. A step and the queue of waiting commands. -/

namespace Sys2Proof.Machine

open Sys2Proof

theorem step_of_front {s : State} {c : Instr} {r : List Instr} (h : s.pending = c :: r) : step s = exec c { s with pending := r } := by
  simp only [step, h]

/-- Settles O1: `step_of_front`. -/
theorem stepRunsFrontCommand : Obligations.StepRunsFrontCommand := fun _ _ _ => step_of_front

/-- A tick of the island leaves the queue. -/
theorem State.safetyTick_pending (s : State) (r : SafeReads) : (s.safetyTick r).pending = s.pending := by
  unfold State.safetyTick
  extract_lets i s' notes
  split
  · rfl
  · split
    · rfl
    · split <;> rfl

/-- Settles O3: a row of the motion side puts a die into the state (`exec_of_motionRow`), one of the island an island or its tick
(`exec_of_islandRow`); neither touches the queue. -/
theorem everyCommandLeadsOn : Obligations.EveryCommandLeadsOn := by
  intro c s
  cases hc : islandRow c with
  | false =>
    obtain ⟨d, hd⟩ := exec_of_motionRow hc s
    exact ⟨_, hd, rfl⟩
  | true =>
    obtain ⟨r, hr⟩ | ⟨f, -, hf⟩ := exec_of_islandRow hc
    · exact ⟨_, hr s, s.safetyTick_pending r⟩
    · exact ⟨_, hf s, rfl⟩

end Sys2Proof.Machine
end

section
/-! PROOFS. Time that passes up to a row's own moment, and the training of ports (chapter 15). -/

namespace Sys2Proof.Machine

open Sys2Proof

/-! Time that passes up to a running time (R41). -/

/-- The die as before, but for its time. -/
def MDie.SameBut (d e : MDie) : Prop := ∃ t u, e = { d with time := t, upNs := u }

theorem MDie.passTo_sameBut (d : MDie) (t : Nat) : d.SameBut (d.passTo t) := by
  by_cases h : d.time.ns < baseCeil t
  · exact ⟨⟨baseCeil t, 0⟩, d.upNs + (baseCeil t - d.time.ns), if_pos h⟩
  · exact ⟨d.time, d.upNs, if_neg h⟩

/-- A running time ahead has come once the time has passed to it. -/
theorem MDie.le_upNs_passTo {d : MDie} {due : Nat} (h : d.upNs < due) : due ≤ (d.passTo (d.ns + (due - d.upNs))).upNs := by
  have hceil := le_baseCeil (d.ns + (due - d.upNs))
  have hlt : d.time.ns < baseCeil (d.ns + (due - d.upNs)) := by
    have hns : d.ns = d.time.ns := rfl
    omega
  have hup : (d.passTo (d.ns + (due - d.upNs))).upNs = d.upNs + (baseCeil (d.ns + (due - d.upNs)) - d.time.ns) :=
    congrArg MDie.upNs (if_pos hlt)
  have hns : d.ns = d.time.ns := rfl
  omega

/-- A die run to a running time has reached it, and nothing but its time is another. -/
theorem MDie.sameBut_of_passUp {d e : MDie} {due : Nat} (h : d.passUp due = some e) : d.SameBut e ∧ due ≤ e.upNs := by
  unfold MDie.passUp at h
  split at h
  case isTrue hdue =>
    obtain rfl := Option.some.inj h
    exact ⟨⟨d.time, d.upNs, rfl⟩, hdue⟩
  case isFalse hdue =>
    split at h
    · obtain rfl := Option.some.inj h
      exact ⟨d.passTo_sameBut _, MDie.le_upNs_passTo (Nat.not_le.1 hdue)⟩
    · cases h

theorem MDie.sameBut_of_passBoot {d e : MDie} {due : Nat} (h : d.passBoot due = some e) : d.SameBut e ∧ due ≤ e.upNs := by
  unfold MDie.passBoot at h
  split at h
  · exact MDie.sameBut_of_passUp h
  · split at h
    case isTrue hdue =>
      obtain rfl := Option.some.inj h
      exact ⟨⟨d.time, d.upNs, rfl⟩, hdue⟩
    case isFalse hdue =>
      obtain rfl := Option.some.inj h
      exact ⟨d.passTo_sameBut _, MDie.le_upNs_passTo (Nat.not_le.1 hdue)⟩

theorem MDie.whenUp_of_passBoot {d e : MDie} {due : Nat} (f : MDie → MDie) (h : d.passBoot due = some e) : d.whenUp due f = f e := by
  simp only [MDie.whenUp, h]

/-! Training (R451, R452). -/

/-- A port in training that has taken a `TRAIN` block. -/
def Port.heard (p : Port) (b : List Byte) : Port :=
  { p with
    ready := if bitOf (rdU b 2 1) 0 then p.ready + 1 else p.ready
    preset := bitsOf (rdU b 2 1) 5 2
    credits := (List.range 4).map (fun c => rdU b (3 + c) 1 + 1) }

section Training

variable {d : MDie} {k : Nat} {p : Port} (hp : d.ports[k]? = some p)

include hp

theorem MDie.trainBlock_of_training {valid : Nat} {eqOk : Bool} {b : List Byte} (hlink : p.link = 1) (hwithdraw : bitOf (rdU b 2 1) 1 = false) :
    d.trainBlock k valid eqOk b =
      let x := (d.setPort k (p.heard b)).emit (.line k (.train (decide (64 ≤ valid) && eqOk) false))
      if (decide (64 ≤ valid) && eqOk) = true ∧ 16 ≤ (p.heard b).ready ∧ k < 2 then x.portCameUp k else x := by
  have hdown : ¬ p.link = 2 := by omega
  have hheard : ¬ (p.link ≠ 1 ∨ bitOf (rdU b 2 1) 1 = true) := by
    simp only [hlink, hwithdraw, ne_eq, not_true, Bool.false_eq_true, or_self, not_false_iff]
  simp only [MDie.trainBlock, hp, if_neg hdown, if_neg hheard, isExtPort, decide_eq_true_eq]
  rfl

theorem MDie.deskewComplete_of_training (hlink : p.link = 1) (hk : 2 ≤ k) :
    d.deskewComplete k = (d.setPort k { p with credits := rxUnits, peerSerial := d.serial.toNat }).portCameUp k := by
  have hint : isExtPort k = false := decide_eq_false (Nat.not_lt.2 hk)
  simp only [MDie.deskewComplete, hp, hlink, hint, Bool.not_false, and_self, if_true]

theorem MDie.trainTimeout_of_due (hlink : p.link = 1) (hk : k < 2) (hfirst : p.timedOut = false)
    (hdue : p.since + (d.portPs k).u Par.portTrainTimeout * 1000000 ≤ d.upNs) :
    d.trainTimeout k = (d.setPort k { p with timedOut := true, since := p.since + (d.portPs k).u Par.portTrainTimeout * 1000000 }).post (6 + k)
      (report Evt.portDown d.tick0 (d8 1 ++ [0] ++ d16 p.peerNode)) := by
  simp only [MDie.trainTimeout, hp]
  exact if_pos ⟨hlink, decide_eq_true hk, hfirst, hdue⟩

theorem MDie.retrainTimer_of_due (hlink : p.link = 1) (hlate : p.timedOut = true) (hdue : p.since + 100000000 ≤ d.upNs) :
    d.retrainTimer k = (d.setPort k { p.train (p.since + 100000000) with timedOut := true }).emit (.line k (.train false false)) := by
  simp only [MDie.retrainTimer, hp]
  exact if_pos ⟨hlink, hlate, hdue⟩

theorem MDie.trainTimeoutRow_of_due {e : MDie} (hlink : p.link = 1) (hk : k < 2) (hfirst : p.timedOut = false)
    (hpass : d.passBoot (p.since + (d.portPs k).u Par.portTrainTimeout * 1000000) = some e) :
    d.trainTimeoutRow k =
      (e.setPort k { p with timedOut := true, since := p.since + (d.portPs k).u Par.portTrainTimeout * 1000000 }).post (6 + k)
        (report Evt.portDown d.tick (d8 1 ++ [0] ++ d16 p.peerNode)) := by
  obtain ⟨⟨t, u, rfl⟩, hdue⟩ := MDie.sameBut_of_passBoot hpass
  have hrow : d.trainTimeoutRow k = d.whenUp (p.since + (d.portPs k).u Par.portTrainTimeout * 1000000) (fun d => d.trainTimeout k) := by
    simp only [MDie.trainTimeoutRow, hp, hlink, if_true]
  rw [hrow, MDie.whenUp_of_passBoot _ hpass]
  exact MDie.trainTimeout_of_due (d := { d with time := t, upNs := u }) hp hlink hk hfirst hdue

theorem MDie.retrainRow_of_due {e : MDie} (hlink : p.link = 1) (hlate : p.timedOut = true) (hpass : d.passBoot (p.since + 100000000) = some e) :
    d.retrainRow k = (e.setPort k { p.train (p.since + 100000000) with timedOut := true }).emit (.line k (.train false false)) := by
  obtain ⟨⟨t, u, rfl⟩, hdue⟩ := MDie.sameBut_of_passBoot hpass
  have hrow : d.retrainRow k = d.whenUp (p.since + 100000000) (fun d => d.retrainTimer k) := by
    simp only [MDie.retrainRow, hp, hlink, hlate, and_self, if_true]
  rw [hrow, MDie.whenUp_of_passBoot _ hpass]
  exact MDie.retrainTimer_of_due (d := { d with time := t, upNs := u }) hp hlink hlate hdue

/-! Losses (R457). -/

theorem MDie.portUp_iff : d.portUp k = true ↔ p.link = 2 := by
  simp only [MDie.portUp, hp, Option.map_some, Option.getD_some, decide_eq_true_eq]

theorem MDie.portLoss_of_enabled {o : Obj} (cause : Nat) (hlink : p.link = 2) (ho : d.obj? (6 + k) = some o) (hl : o.life = .enabled) :
    d.portLoss k cause = d.portWentDown k cause 1 := by
  simp only [MDie.portLoss, if_pos ((MDie.portUp_iff hp).2 hlink), portSlot, ho, hl]

theorem MDie.replayLimit_eq : d.replayLimit k = if p.replayLimit then d.portLoss k 3 else d := by
  simp only [MDie.replayLimit, hp]

end Training

/-- Settles O47: each row is that of its port on the die as the step finds it; a timeout's row runs to its own moment
(`sameBut_of_passBoot`), and a loss trains an ENABLED port again (`portLoss_of_enabled`). -/
theorem portTrainingRows : Obligations.PortTrainingRows := by
  intro s k p hrun hp
  have hp' : s.md.start.ports[k]? = some p := hp
  refine ⟨fun valid eqOk b hlink hw => ?train, fun hlink hk => ?deskew, fun d hlink hk hfirst hpass => ?timeout, fun d hlink hlate hpass => ?retrain,
    fun o hlink ho hl => ?loss⟩
  case train =>
    have hrow : exec (.trainBlock k valid eqOk b) s = .next (s.after (s.md.start.trainBlock k valid eqOk b)) := onDie_of_running s _ hrun
    rw [hrow, MDie.trainBlock_of_training hp' hlink hw]
    rfl
  case deskew =>
    have hrow : exec (.deskewComplete k) s = .next (s.after (s.md.start.deskewComplete k)) := onDie_of_running s _ hrun
    rw [hrow, MDie.deskewComplete_of_training hp' hlink hk]
    rfl
  case timeout =>
    have hrow : exec (.portTrainTimeout k) s = .next (s.after (s.md.start.trainTimeoutRow k)) := onDie_of_running s _ hrun
    rw [hrow, MDie.trainTimeoutRow_of_due hp' hlink hk hfirst hpass]
    rfl
  case retrain =>
    have hrow : exec (.portRetrainTimer k) s = .next (s.after (s.md.start.retrainRow k)) := onDie_of_running s _ hrun
    rw [hrow, MDie.retrainRow_of_due hp' hlink hlate hpass]
  case loss =>
    have hloss (cause : Nat) : s.md.start.portLoss k cause = s.md.start.portWentDown k cause 1 := MDie.portLoss_of_enabled hp' cause hlink ho hl
    have hlock : exec (.blockLockLost k) s = .next (s.after (s.md.start.portLoss k 2)) := onDie_of_running s _ hrun
    have hlimit : exec (.replayLimit k) s = .next (s.after (s.md.start.replayLimit k)) := onDie_of_running s _ hrun
    rw [MDie.replayLimit_eq hp'] at hlimit
    refine ⟨by rw [hlock, hloss], fun hover => ?_, fun hunder => ?_⟩
    · rw [hlimit, if_pos hover, hloss]
    · rw [hlimit, hunder]
      rfl

end Sys2Proof.Machine
end

section
/-! PROOFS. The link layer of a port: acknowledgements, credits, frames (chapter 15). -/

namespace Sys2Proof.Machine

open Sys2Proof

/-! What a port sends of what waits (R455, R456). -/

/-- What is sent leaves a withdrawal as it is. -/
@[simp] theorem Port.pump_withdraw (p : Port) (n : Nat) : (p.pump n).1.withdraw = p.withdraw := by
  induction n generalizing p with
  | zero => rfl
  | succ n ih =>
    unfold Port.pump
    split
    · rfl
    · split
      · rfl
      · split
        · rfl
        · split
          · rfl
          · exact ih _

@[simp] theorem Port.ack_withdraw (p : Port) (lseq : Nat) : (p.ack lseq).1.withdraw = p.withdraw := Port.pump_withdraw _ _

/-! Blocks at a port in service, and at one that is not (R453 … R456). -/

/-- The share of bulk at a port (R459). -/
def MDie.bulkShare (d : MDie) (k : Nat) : Nat := match d.obj? (6 + k) with | some o => o.params.u Par.portBulkMin | none => 0

section Blocks

variable {d : MDie} {k : Nat} {p : Port} (hp : d.ports[k]? = some p)

include hp

theorem MDie.port?_of_port : d.port? k = some (p.clock (d.bulkShare k) d.upNs) := by
  simp only [MDie.port?, hp]
  rfl

theorem MDie.ackBlock_of_up (lseq : Nat) (hlink : p.link = 2) :
    d.ackBlock k lseq =
      let r := (p.clock (d.bulkShare k) d.upNs).ack (lseq % 4096)
      d.putSent k (if r.1.sent = [] then { r.1 with withdraw := r.1.withdraw.map (fun w => min w d.upNs) } else r.1) r.2 := by
  have hup : ¬ (p.clock (d.bulkShare k) d.upNs).link ≠ 2 := not_not_intro hlink
  simp only [MDie.ackBlock, MDie.port?_of_port hp, if_neg hup]

/-- An `ACK` that leaves frames uncovered, or meets no withdrawal, frees the frames it covers and no more. -/
theorem MDie.ackBlock_of_more {lseq : Nat} (hlink : p.link = 2)
    (h : ((p.clock (d.bulkShare k) d.upNs).ack (lseq % 4096)).1.sent ≠ [] ∨ p.withdraw = none) :
    d.ackBlock k lseq =
      d.putSent k ((p.clock (d.bulkShare k) d.upNs).ack (lseq % 4096)).1 ((p.clock (d.bulkShare k) d.upNs).ack (lseq % 4096)).2 := by
  have hkept := Port.ack_withdraw (p.clock (d.bulkShare k) d.upNs) (lseq % 4096)
  rw [MDie.ackBlock_of_up hp lseq hlink]
  generalize (p.clock (d.bulkShare k) d.upNs).ack (lseq % 4096) = r at h hkept ⊢
  obtain hmore | hnone := h
  · simp only [if_neg hmore]
  · have hsame : ({ r.1 with withdraw := r.1.withdraw.map (fun w => min w d.upNs) } : Port) = r.1 := by
      have hw : r.1.withdraw = none := hkept.trans hnone
      rw [hw, Option.map_none, ← hw]
    simp only [hsame, ite_self]

/-- The `ACK` of the last frame of a port that withdraws begins the third step of R453. -/
theorem MDie.ackBlock_of_last {lseq w : Nat} (hlink : p.link = 2)
    (hlast : ((p.clock (d.bulkShare k) d.upNs).ack (lseq % 4096)).1.sent = []) (hw : p.withdraw = some w) :
    d.ackBlock k lseq =
      d.putSent k { ((p.clock (d.bulkShare k) d.upNs).ack (lseq % 4096)).1 with withdraw := some (min w d.upNs) }
        ((p.clock (d.bulkShare k) d.upNs).ack (lseq % 4096)).2 := by
  have hkept := (Port.ack_withdraw (p.clock (d.bulkShare k) d.upNs) (lseq % 4096)).trans hw
  rw [MDie.ackBlock_of_up hp lseq hlink]
  simp only [if_pos hlast, hkept, Option.map_some]

theorem MDie.nakBlock_of_up (lseq : Nat) (hlink : p.link = 2) :
    d.nakBlock k lseq =
      let r := p.nak (lseq % 4096)
      let x := d.putPort k r.1 r.2.1
      if r.1.sent = [] then x else x.bump (6 + k) Par.portReplays 0 1 := by
  have hup : ¬ p.link ≠ 2 := not_not_intro hlink
  have hrow : d.nakBlock k lseq =
      let r := p.nak (lseq % 4096)
      if r.2.2 = 0 then d.putPort k r.1 r.2.1 else (d.putPort k r.1 r.2.1).bump (6 + k) Par.portReplays 0 r.2.2 := by
    simp only [MDie.nakBlock, hp, if_neg hup, portSlot]
  rw [hrow]
  by_cases hnone : (p.nak (lseq % 4096)).1.sent = []
  · have hzero : (p.nak (lseq % 4096)).2.2 = 0 := if_pos hnone
    simp only [hzero, hnone, if_true]
  · have hone : (p.nak (lseq % 4096)).2.2 = 1 := if_neg hnone
    simp only [hone, hnone, if_false, Nat.one_ne_zero]

theorem MDie.creditBlock_of_up (a n b m : Nat) (hlink : p.link = 2) :
    d.creditBlock k a n b m =
      let r := (p.clock (d.bulkShare k) d.upNs).credit a n
      let x := r.1.credit b m
      d.putSent k x.1 (r.2 ++ x.2) := by
  have hup : ¬ (p.clock (d.bulkShare k) d.upNs).link ≠ 2 := not_not_intro hlink
  simp only [MDie.creditBlock, MDie.port?_of_port hp, if_neg hup]

theorem MDie.ackDue_of_owed (hlink : p.link = 2) (howed : p.ackOwed ≠ 0) :
    d.ackDue k = d.putPort k { p with ackOwed := 0 } [.ack ((p.rxSeq + 4095) % 4096)] := by
  simp only [MDie.ackDue, hp, Port.ackTimer, if_pos (And.intro hlink howed)]

theorem MDie.blocks_of_down (hlink : p.link ≠ 2) (lseq a n b m : Nat) :
    d.ackBlock k lseq = d ∧ d.nakBlock k lseq = d ∧ d.creditBlock k a n b m = d := by
  have hdown : (p.clock (d.bulkShare k) d.upNs).link ≠ 2 := hlink
  simp only [MDie.ackBlock, MDie.nakBlock, MDie.creditBlock, MDie.port?_of_port hp, hp, if_pos hlink, if_pos hdown, and_self]

/-! Frames at a port in service (R454 … R456, log 161). -/

variable (hlink : p.link = 2) (cls : Nat) (b host : List Byte)

include hlink

theorem MDie.frameIn_of_accepted {m : FabMsg} (hseq : p.rxSeq < 4096) (hm : parsePacket b = some m) :
    d.frameIn k p.rxSeq cls true b host =
      (d.putPort k { p with rxSeq := (p.rxSeq + 1) % 4096, nakSent := false, ackOwed := if p.ackOwed + 1 = 16 then 0 else p.ackOwed + 1 }
        ((if p.ackOwed + 1 = 16 then [.ack p.rxSeq] else []) ++ [.credit cls ((b.length + 63) / 64)])).arrived k m host := by
  have hup : ¬ p.link ≠ 2 := not_not_intro hlink
  simp only [MDie.frameIn, MDie.linkFrame, hp, if_neg hup, Port.receive, Nat.mod_eq_of_lt hseq, and_self, if_true, hm]

theorem MDie.frameIn_of_badCrc (lseq : Nat) :
    d.frameIn k lseq cls false b host =
      (d.putPort k { p with nakSent := true } [.nak p.rxSeq]).bump (6 + k) Par.portCrcErrors 0 1 := by
  have hup : ¬ p.link ≠ 2 := not_not_intro hlink
  simp only [MDie.frameIn, MDie.linkFrame, hp, if_neg hup, Port.receive, Bool.false_eq_true, false_and, if_false, portSlot]

theorem MDie.frameIn_of_gap {lseq : Nat} (hseq : lseq % 4096 ≠ p.rxSeq) :
    d.frameIn k lseq cls true b host = d.putPort k { p with nakSent := true } (if p.nakSent then [] else [.nak p.rxSeq]) := by
  have hup : ¬ p.link ≠ 2 := not_not_intro hlink
  simp only [MDie.frameIn, MDie.linkFrame, hp, if_neg hup, Port.receive, hseq, and_false, if_false, true_and]
  cases hsent : p.nakSent with
  | false => simp only [Bool.false_eq_true, if_false, if_true]
  | true =>
    have hsame : { p with nakSent := true } = p := by rw [← hsent]
    simp only [if_true, Bool.false_eq_true, if_false, hsame]

end Blocks

/-- Settles O48: each block and frame is that of its port on the die as the step finds it; an `ACK` leaves a
withdrawal as it is (`ackBlock_of_more`) unless it covers the last frame (`ackBlock_of_last`). -/
theorem linkLayerRows : Obligations.LinkLayerRows := by
  refine ⟨fun s k p hrun hp => ?blocks, fun s k cls b host p hrun hp hlink => ?frames⟩
  case blocks =>
    have hp' : s.md.start.ports[k]? = some p := hp
    have hack (lseq : Nat) : exec (.ackBlock k lseq) s = .next (s.after (s.md.start.ackBlock k lseq)) := onDie_of_running s _ hrun
    have hnak (lseq : Nat) : exec (.nakBlock k lseq) s = .next (s.after (s.md.start.nakBlock k lseq)) := onDie_of_running s _ hrun
    have hcredit (a n b m : Nat) : exec (.creditBlock k a n b m) s = .next (s.after (s.md.start.creditBlock k a n b m)) := onDie_of_running s _ hrun
    have howed : exec (.ackTimer k) s = .next (s.after (s.md.start.ackDue k)) := onDie_of_running s _ hrun
    refine ⟨fun hlink => ⟨fun lseq => ?ack, fun lseq => ?nak, fun a n b m => ?credit, fun h => ?owed⟩, fun hlink lseq a n b m => ?down⟩
    case ack =>
      refine ⟨fun hmore => ?_, fun w hlast hw => ?_⟩
      · rw [hack, MDie.ackBlock_of_more hp' hlink hmore]
        rfl
      · rw [hack, MDie.ackBlock_of_last hp' hlink hlast hw]
        rfl
    case nak =>
      rw [hnak, MDie.nakBlock_of_up hp' lseq hlink]
    case credit =>
      rw [hcredit, MDie.creditBlock_of_up hp' a n b m hlink]
      rfl
    case owed => rw [howed, MDie.ackDue_of_owed hp' hlink h]
    case down =>
      obtain ⟨hackNone, hnakNone, hcreditNone⟩ := MDie.blocks_of_down hp' hlink lseq a n b m
      rw [hack, hnak, hcredit, hackNone, hnakNone, hcreditNone]
      exact ⟨rfl, rfl, rfl⟩
  case frames =>
    have hp' : s.md.start.ports[k]? = some p := hp
    have hrow (lseq : Nat) (ok : Bool) : exec (.linkFrame k lseq cls ok b host) s = .next (s.after (s.md.start.frameIn k lseq cls ok b host)) :=
      onDie_of_running s _ hrun
    refine ⟨fun m hseq hm howed => ?few, fun m hseq hm howed => ?sixteenth, fun lseq => ?crc, fun lseq hseq => ?gap⟩
    case few =>
      have hne : ¬ p.ackOwed + 1 = 16 := by omega
      rw [hrow, MDie.frameIn_of_accepted hp' hlink cls b host hseq hm, if_neg hne, if_neg hne]
      rfl
    case sixteenth =>
      have heq : p.ackOwed + 1 = 16 := by omega
      rw [hrow, MDie.frameIn_of_accepted hp' hlink cls b host hseq hm, if_pos heq, if_pos heq]
      rfl
    case crc => rw [hrow, MDie.frameIn_of_badCrc hp' hlink cls b host lseq]
    case gap => rw [hrow, MDie.frameIn_of_gap hp' hlink cls b host hseq]

end Sys2Proof.Machine
end

section
/-! PROOFS. Routed packets that arrive for other nodes (chapter 15). -/

namespace Sys2Proof.Machine

open Sys2Proof

/-- Each row of a routed packet is that packet's arrival at its port, and its type is a routed one. -/
theorem exec_of_routedRow {s : State} {k ty : Nat} {p : FabPkt} {c : Instr} (hrun : s.md.boot.inReset = false) (h : (c, ty) ∈ routedRows k p) :
    exec c s = .next (s.after (s.md.start.packetIn k ⟨ty, p⟩)) ∧ ty ∉ portTypes := by
  simp only [routedRows, List.mem_cons, Prod.mk.injEq, List.not_mem_nil, or_false] at h
  rcases h with ⟨rfl, rfl⟩ | ⟨rfl, rfl⟩ | ⟨rfl, rfl⟩ | ⟨rfl, rfl⟩ | ⟨rfl, rfl⟩ | ⟨rfl, rfl⟩ |
      ⟨rfl, rfl⟩ | ⟨rfl, rfl⟩ | ⟨rfl, rfl⟩
    | ⟨rfl, rfl⟩ | ⟨rfl, rfl⟩ <;> exact ⟨onDie_of_running s _ hrun, by decide⟩

section Arrival

variable {d : MDie} {k ty : Nat} {p : FabPkt}

theorem MDie.packetIn_of_down (h : d.portUp k = false) (m : FabMsg) : d.packetIn k m = d := by
  simp only [MDie.packetIn, h, Bool.false_eq_true, if_false]

variable (hup : d.portUp k = true) (hty : ty ∉ portTypes)

include hup hty

theorem MDie.packetIn_of_noHops (hhops : p.hops = 0) : d.packetIn k ⟨ty, p⟩ = d.bump (6 + k) Par.portDropped 0 1 := by
  simp only [portTypes, List.mem_cons, List.not_mem_nil, or_false, not_or] at hty
  obtain ⟨htime, hdisc, -, -⟩ := hty
  simp only [MDie.packetIn, MDie.arrived, hup, htime, hdisc, hhops, if_true, if_false, portSlot]

theorem MDie.packetIn_of_otherNode (hhops : p.hops ≠ 0) (hdst : p.dst ≠ d.fab.node) : d.packetIn k ⟨ty, p⟩ = d.forward k ⟨ty, p⟩ := by
  simp only [portTypes, List.mem_cons, List.not_mem_nil, or_false, not_or] at hty
  obtain ⟨htime, hdisc, htopo, hroute⟩ := hty
  simp only [MDie.packetIn, MDie.arrived, hup, htime, hdisc, htopo, hroute, hhops, hdst, false_and, and_false, if_true, if_false]

end Arrival

theorem MDie.forward_of_route {d : MDie} {j : Nat} {m : FabMsg} (k : Nat) (hhops : m.pkt.hops ≠ 0)
    (hroute : d.fab.portFor d.portUp m.pkt.dst = some j) :
    d.forward k m = d.sendOn j { m with pkt := { m.pkt with hops := m.pkt.hops - 1 } } := by
  simp only [MDie.forward, if_neg hhops, hroute]

theorem MDie.forward_of_noRoute {d : MDie} {m : FabMsg} (k : Nat) (hroute : d.fab.portFor d.portUp m.pkt.dst = none) :
    d.forward k m = d.bump (6 + k) Par.portDropped 0 1 := by
  simp only [MDie.forward, hroute, ite_self, portSlot]

/-- Settles O49: a packet for another node is forwarded (`packetIn_of_otherNode`), by its route or not at all. -/
theorem routedPacketsForwarded : Obligations.RoutedPacketsForwarded := by
  intro s k ty p c hrun hc
  obtain ⟨hrow, hty⟩ := exec_of_routedRow hrun hc
  rw [hrow]
  refine ⟨fun (hup : s.md.start.portUp k = true) hhops => ?dropped,
    fun (hup : s.md.start.portUp k = true) hhops hdst => ⟨fun j hroute => ?sent, fun hroute => ?lost⟩,
    fun (hdown : s.md.start.portUp k = false) => ?down⟩
  case dropped => rw [MDie.packetIn_of_noHops hup hty hhops]
  case sent => rw [MDie.packetIn_of_otherNode hup hty hhops hdst, MDie.forward_of_route k hhops hroute]
  case lost => rw [MDie.packetIn_of_otherNode hup hty hhops hdst, MDie.forward_of_noRoute k hroute]
  case down => rw [MDie.packetIn_of_down hdown]

end Sys2Proof.Machine
end

section
/-! PROOFS. Offsets in the servo, and the states of Meridian (chapter 16). -/

namespace Sys2Proof.Machine

open Sys2Proof

/-! Entering a state (R490, R491). -/

section Enter

variable (m : Meridian) (st cause ns now : Nat)

@[simp] theorem Meridian.enter_st : (m.enter st cause ns now).1.st = st := by
  unfold Meridian.enter
  split
  case isTrue h => exact h
  case isFalse => rfl

@[simp] theorem Meridian.enter_isGm : (m.enter st cause ns now).1.isGm = m.isGm := by
  unfold Meridian.enter
  split <;> rfl

@[simp] theorem Meridian.enter_cand : (m.enter st cause ns now).1.cand = m.cand := by
  unfold Meridian.enter
  split <;> rfl

/-- Only holdover and step refusal take another frequency correction. -/
theorem Meridian.enter_freqAdj {st : Nat} (h : st < 3) : (m.enter st cause ns now).1.freqAdj = m.freqAdj := by
  have hhold : decide (3 ≤ st) = false := decide_eq_false (Nat.not_le.2 h)
  unfold Meridian.enter
  split
  · rfl
  · simp only [hhold, Bool.false_and, Bool.false_eq_true, if_false]

end Enter

/-! The servo's output and the window (R490, R491). -/

/-- The servo's output keeps the slew limit. -/
theorem servoOut_le (ps : Params) (free : Nat) : (servoOut ps free).natAbs ≤ 1000 * ps.u Par.timeSlewMax := by
  unfold servoOut
  extract_lets lim
  have hlo := Int.emod_nonneg (Config.free free (2 * lim + 1) : Int) (b := 2 * lim + 1) (by omega)
  have hhi := Int.emod_lt_of_pos (Config.free free (2 * lim + 1) : Int) (b := 2 * lim + 1) (by omega)
  omega

/-- `r` reads LOCKING or LOCKED, with the frequency correction, the grandmaster and the candidate of `m`. -/
structure Meridian.RunsAs (m r : Meridian) : Prop where
  st : r.st = 1 ∨ r.st = 2
  freqAdj : r.freqAdj = m.freqAdj
  isGm : r.isGm = m.isGm
  cand : r.cand = m.cand

theorem Meridian.enter_runsAs (m : Meridian) {st : Nat} (h : st = 1 ∨ st = 2) (cause ns now : Nat) : m.RunsAs (m.enter st cause ns now).1 where
  st := by rwa [Meridian.enter_st]
  freqAdj := m.enter_freqAdj cause ns now (by omega)
  isGm := m.enter_isGm st cause ns now
  cand := m.enter_cand st cause ns now

/-- Counting an offset against the window keeps LOCKING or LOCKED. -/
theorem Meridian.window_runsAs (m : Meridian) (inside : Bool) (ns now : Nat) (h : m.st = 1 ∨ m.st = 2) : m.RunsAs (m.window inside ns now).1 := by
  have hcount : m.RunsAs (if inside then { m with win := min 16 (m.win + 1), out := 0 } else { m with win := 0, out := min 16 (m.out + 1) }) := by
    split <;> exact ⟨h, rfl, rfl, rfl⟩
  unfold Meridian.window
  generalize (if inside then ({ m with win := min 16 (m.win + 1), out := 0 } : Meridian)
    else { m with win := 0, out := min 16 (m.out + 1) }) = c at hcount
  have hthen {st : Nat} (hst : st = 1 ∨ st = 2) : m.RunsAs (c.enter st 0 ns now).1 :=
    have hnext := c.enter_runsAs hst 0 ns now
    ⟨hnext.st, hnext.freqAdj.trans hcount.freqAdj, hnext.isGm.trans hcount.isGm, hnext.cand.trans hcount.cand⟩
  dsimp only
  split
  · exact hthen (.inr rfl)
  · split
    · exact hthen (.inl rfl)
    · exact hcount

/-! An offset (R490 … R492). -/

section Take

variable {ps : Params} {m : Meridian} {num d : Int} {pps : Bool} {ns now free : Nat}

theorem Meridian.take_of_first (h : m.st = 0) :
    (m.take ps num d pps ns now free).1.st = 1 ∧ (m.take ps num d pps ns now free).2.2 = some (-(divOpen 162 num d)) := by
  simp only [Meridian.take, h, if_true, Meridian.enter_st, and_self]

theorem Meridian.take_of_jump (h : m.st ≠ 0) (hjump : (ps.u Par.timeJumpLimit : Int) * d < num.natAbs) :
    let r := m.take ps num d pps ns now free
    r.1.st = 4 ∧ r.2.2 = none ∧ r.1.isGm = m.isGm ∧ r.1.cand = m.cand := by
  simp only [Meridian.take, h, hjump, if_true, if_false]
  split
  case isTrue hagain => exact ⟨hagain.1, rfl, rfl, rfl⟩
  case isFalse => simp only [Meridian.enter_st, Meridian.enter_isGm, Meridian.enter_cand, and_self]

theorem Meridian.take_of_small (h : m.st ≠ 0) (hst : m.st ≤ 4) (hsmall : (num.natAbs : Int) ≤ ps.u Par.timeJumpLimit * d) :
    let r := m.take ps num d pps ns now free
    r.2.2 = none ∧ (r.1.st = 1 ∨ r.1.st = 2) ∧ r.1.freqAdj.natAbs ≤ 1000 * ps.u Par.timeSlewMax
      ∧ r.1.isGm = m.isGm ∧ r.1.cand = m.cand := by
  have hno : ¬ (ps.u Par.timeJumpLimit : Int) * d < num.natAbs := Int.not_lt.2 hsmall
  simp only [Meridian.take, h, hno, if_false]
  generalize hx : (if 3 ≤ m.st then Meridian.enter _ 1 0 ns now else _ : Meridian × List Ev) = x
  have hrun : (x.1.st = 1 ∨ x.1.st = 2) ∧ x.1.isGm = m.isGm ∧ x.1.cand = m.cand := by
    rw [← hx]
    split
    case isTrue => simp only [Meridian.enter_st, Meridian.enter_isGm, Meridian.enter_cand, true_or, and_self]
    case isFalse hlow => exact ⟨by show m.st = 1 ∨ m.st = 2; omega, rfl, rfl⟩
  obtain ⟨hst', hgm, hcand⟩ := hrun
  have hwin := (x.1.servo ps free now).window_runsAs (decide ((num.natAbs : Int) < (ps.u Par.timeLockWindow : Int) * d)) ns now hst'
  exact ⟨trivial, hwin.st, by rw [hwin.freqAdj]; exact servoOut_le ps free, hwin.isGm.trans hgm, hwin.cand.trans hcand⟩

end Take

/-- Settles O55: by the branch of `Meridian.take` the offset falls into. -/
theorem servoNeverJumpsByItself : Obligations.ServoNeverJumpsByItself :=
  fun _ _ _ _ _ _ _ _ hst => ⟨Meridian.take_of_first, Meridian.take_of_jump, fun h hsmall => Meridian.take_of_small h hst hsmall⟩

end Sys2Proof.Machine
end

section
/-! PROOFS. Time messages that arrive at an UP port (chapter 16). -/

namespace Sys2Proof.Machine

open Sys2Proof

/-! Events leave Meridian and the ports as they are. -/

/-- A list of events posted for one object changes nothing but what waits to be routed. -/
theorem MDie.postAll_eq (d : MDie) (n : Nat) (es : List Ev) : ∃ l, d.postAll n es = { d with posted := l } := by
  induction es generalizing d with
  | nil => exact ⟨d.posted, rfl⟩
  | cons e es ih =>
    obtain ⟨l, hl⟩ := ih (d.post n e)
    exact ⟨l, hl⟩

@[simp] theorem MDie.merSet_mer (d : MDie) (r : Meridian × List Ev) : (d.merSet r).mer = r.1 := by
  obtain ⟨l, hl⟩ := ({ d with mer := r.1 } : MDie).postAll_eq 1 r.2
  rw [MDie.merSet, hl]

@[simp] theorem MDie.merSet_upPorts (d : MDie) (r : Meridian × List Ev) : (d.merSet r).upPorts = d.upPorts := by
  obtain ⟨l, hl⟩ := ({ d with mer := r.1 } : MDie).postAll_eq 1 r.2
  rw [MDie.merSet, hl]
  rfl

theorem MDie.merSet_self (d : MDie) : d.merSet (d.mer, []) = d := rfl

/-- A message that arrives at an UP port is taken on the die at its arrival. -/
theorem onDie_timeIn_of_up {s : State} {k arr : Nat} (f : MDie → MDie) (hrun : s.md.boot.inReset = false) (hup : s.md.portUp k = true)
    (harr : arr ≤ s.md.nextTick) : onDie s (fun d => d.timeIn k arr f) = .next (s.after (f (s.md.start.passTo arr))) := by
  have hup' : s.md.start.portUp k = true := hup
  rw [onDie_of_running s _ hrun, MDie.timeIn, if_pos hup', MDie.whenNs_of_le (d := s.md.start) f harr]

@[simp] theorem MDie.passTo_mer (d : MDie) (t : Nat) : (d.passTo t).mer = d.mer := by
  obtain ⟨m, u, h⟩ := d.passTo_sameBut t
  rw [h]

section Messages

variable {d : MDie} {k arr : Nat} {b : List Byte}

/-! `SYNC` (R486, R487). -/

/-- A `SYNC` that the servo takes: it is passed on with its residence, and its offset is measured. -/
def MDie.syncTaken (d : MDie) (k arr : Nat) (msg : TimeMsg) : MDie :=
  let out := d.mer.forward d.timePs k msg (Config.free d.free 131072001 % 131072001 : Nat)
  let x := (d.upPorts.filter (fun j => decide (j ≠ k))).foldl (fun (d : MDie) j => d.sendTime j out) { d with free := d.free + 1 }
  ({ x with free := x.free + 1 } : MDie).merDo (x.mer.sync x.timePs k arr msg x.tick x.upNs x.free)

theorem MDie.takeSync_of_other (h : d.mer.isGm = true ∨ d.syncPort ≠ some k ∨ (TimeMsg.decode b).gmNode ≠ d.mer.candNode) :
    d.takeSync k arr b = d := if_pos h

theorem MDie.takeSync_of_own (hgm : d.mer.isGm = false) (hport : d.syncPort = some k) (hnode : (TimeMsg.decode b).gmNode = d.mer.candNode) :
    d.takeSync k arr b = d.syncTaken k arr (TimeMsg.decode b) := by
  have htaken : ¬ (d.mer.isGm = true ∨ d.syncPort ≠ some k ∨ (TimeMsg.decode b).gmNode ≠ d.mer.candNode) := by
    simp only [hgm, hport, hnode, Bool.false_eq_true, ne_eq, not_true, or_self, not_false_iff]
  rw [MDie.takeSync, if_neg htaken]
  rfl

/-! `ANNOUNCE` (R483). -/

theorem MDie.takeAnnounce_of_none (hprio : (TimeMsg.decode b).key.prio = 255) : d.takeAnnounce k b = d := by
  simp only [MDie.takeAnnounce, Meridian.announce, hprio, true_or, if_true, Bool.false_eq_true, if_false, MDie.merSet_self]

/-- The first candidate a die that may not be grandmaster hears of is followed, and passed on. -/
theorem MDie.takeAnnounce_of_first (hcand : d.mer.cand = none) (hprio : (TimeMsg.decode b).key.prio ≠ 255) (hown : d.gmKey = none) :
    d.takeAnnounce k b =
      (d.merSet (d.mer.follow (some (TimeMsg.decode b).key) (TimeMsg.decode b).gmNode (TimeMsg.decode b).heartbeat (some k) d.tick d.upNs)).timeOnPorts
        (d.upPorts.filter (fun j => decide (j ≠ k))) 2 := by
  have hgm : (d.mer.follow (some (TimeMsg.decode b).key) (TimeMsg.decode b).gmNode (TimeMsg.decode b).heartbeat (some k) d.tick d.upNs).1.isGm = false :=
    rfl
  simp only [MDie.takeAnnounce, Meridian.announce, hcand, hprio, hown, Option.any_none, Option.filter_none,
    Bool.false_eq_true, or_self, if_false, if_true, MDie.tick0,
    MDie.merSet_mer, MDie.merSet_upPorts, hgm, Bool.false_or]

/-! Delays (R488). -/

theorem MDie.takePdelayReq_of_arrived (harr : arr ≤ d.ns) :
    d.takePdelayReq k arr =
      let r := d.mer.compose 4 0 (((d.ns : Int) - arr) * 65536)
      ({ d with mer := r.1 } : MDie).sendTime k r.2 := by
  rw [MDie.takePdelayReq, Nat.max_eq_left harr]

theorem MDie.takePdelayResp_of_request {l : PdLane} {t1 : Nat} (hl : d.mer.lanes[k]? = some l) (hreq : l.req = some t1) :
    d.takePdelayResp k arr b = { d with mer := { d.mer with
      lanes := d.mer.lanes.set k ⟨((((arr : Int) - t1) * 65536 - (TimeMsg.decode b).corr) :: l.samples).take 16, none⟩ } } := by
  simp only [MDie.takePdelayResp, Meridian.delaySample, hl, hreq]

end Messages

/-- Settles O53: each message is taken on the die at its arrival (`onDie_timeIn_of_up`). -/
theorem timeMessagesReceived : Obligations.TimeMessagesReceived := by
  intro s k arr b hrun hup harr d msg
  have hmer : d.mer = s.md.mer := s.md.start.passTo_mer arr
  have hrow (f : MDie → MDie) : onDie s (fun d => d.timeIn k arr f) = .next (s.after (f d)) := onDie_timeIn_of_up f hrun hup harr
  have hsync : exec (.syncMessage k arr b) s = .next (s.after (d.takeSync k arr b)) := hrow fun d => d.takeSync k arr b
  have hann : exec (.announceMessage k arr b) s = .next (s.after (d.takeAnnounce k b)) := hrow fun d => d.takeAnnounce k b
  have hreq : exec (.pdelayReqMessage k arr) s = .next (s.after (d.takePdelayReq k arr)) := hrow fun d => d.takePdelayReq k arr
  have hresp : exec (.pdelayRespMessage k arr b) s = .next (s.after (d.takePdelayResp k arr b)) := hrow fun d => d.takePdelayResp k arr b
  rw [← hmer]
  refine ⟨fun h => ?other, fun hgm hport hnode => ?own, fun hprio => ?noGm, fun hcand _ hprio hown => ?first, ?request, fun l t1 hl ht => ?response⟩
  case other => rw [hsync, MDie.takeSync_of_other h]
  case own =>
    rw [hsync, MDie.takeSync_of_own hgm hport hnode]
    rfl
  case noGm => rw [hann, MDie.takeAnnounce_of_none hprio]
  case first => rw [hann, MDie.takeAnnounce_of_first hcand hprio hown]
  case request =>
    rw [hreq, MDie.takePdelayReq_of_arrived (s.md.start.le_ns_passTo arr)]
  case response => rw [hresp, MDie.takePdelayResp_of_request hl ht]

end Sys2Proof.Machine
end

section
/-! PROOFS. The timers of Meridian and the edges of `PPS_IN` (chapter 16). -/

namespace Sys2Proof.Machine

open Sys2Proof

/-- A timer's row acts on the die run to the timer's own time. -/
theorem onDie_whenUp_of_passBoot {s : State} {e : MDie} (due : MDie → Nat) (f : MDie → MDie) (hrun : s.md.boot.inReset = false)
    (hpass : s.md.start.passBoot (due s.md.start) = some e) : onDie s (fun d => d.whenUp (due d) f) = .next (s.after (f e)) := by
  rw [onDie_of_running s _ hrun, MDie.whenUp_of_passBoot f hpass]

/-- The die run to a timer's own time has the Meridian and the parameters it had, and the timer is due there. -/
theorem MDie.due_of_passBoot {d e : MDie} {due : Nat} (hpass : d.passBoot due = some e) :
    e.mer = d.mer ∧ e.timePs = d.timePs ∧ due ≤ e.upNs := by
  obtain ⟨⟨t, u, rfl⟩, hdue⟩ := MDie.sameBut_of_passBoot hpass
  exact ⟨rfl, rfl, hdue⟩

section Timers

variable {d : MDie}

/-! `PDELAY_REQ` (R488). -/

/-- The die that has begun an interval of delay measurements. -/
def MDie.pdelayBegun (d : MDie) : MDie := { d with mer := { d.mer with pdelAt := d.upNs } }

/-- The die that measures on port `k`: t1 is kept there. -/
def MDie.pdelayAsked (d : MDie) (k : Nat) : MDie :=
  { d with mer := { d.mer with lanes := listMod d.mer.lanes k (fun l => { l with req := some d.ns }) } }

theorem MDie.pdelayTimer_eq (d : MDie) :
    d.pdelayTimer = (d.upPorts.filter isExtPort).foldl (fun (d : MDie) k => (d.pdelayAsked k).timeOnPorts [k] 3) d.pdelayBegun := rfl

/-! Grandmasters (R483). -/

/-- The die that sends on its heartbeat with the key it has now. -/
def MDie.beaten (d : MDie) (k : GmKey) : MDie :=
  { d with mer := { d.mer with
    annAt := d.upNs
    cand := some k
    candNode := d.fab.node
    heartbeat := (d.mer.heartbeat + 1) % 2 ^ 32
    seenAt := d.upNs } }

theorem MDie.announceTimer_of_gm {k c : GmKey} (hown : d.gmKey = some k) (hcand : d.mer.cand = some c) (hgm : d.mer.isGm = true) :
    d.announceTimer = (d.beaten k).timeOnPorts d.upPorts 2 := by
  unfold MDie.announceTimer
  extract_lets _ x _ y
  have hown' : x.gmKey = some k := hown
  have hcand' : x.mer.cand = some c := hcand
  have hgm' : x.mer.isGm = true := hgm
  have hy : y = d.beaten k := by
    simp only [y, hown', hcand', hgm', if_true]
    rfl
  rw [hy]
  exact if_pos rfl

theorem MDie.gmStale_of_gm (hgm : d.mer.isGm = true) : d.gmStale = d := by
  simp only [MDie.gmStale, hgm, Bool.not_true, Bool.false_and, Bool.false_eq_true, if_false]

theorem Meridian.becomeGm_isGm (m : Meridian) (k : GmKey) (node ns now : Nat) : (m.becomeGm k node ns now).1.isGm = true := by
  simp only [Meridian.becomeGm, Meridian.enter_isGm]

/-- A die without a key of its own is no grandmaster once its candidate is dropped. -/
theorem Meridian.candStale_none_isGm (m : Meridian) (node ns now : Nat) : (m.candStale none node ns now).1.isGm = false := by
  have hfollow : (m.follow none 0xFFFF m.heartbeat none ns now).1.isGm = false := rfl
  unfold Meridian.candStale
  generalize m.follow none 0xFFFF m.heartbeat none ns now = r at hfollow ⊢
  dsimp only
  split
  · exact (r.1.enter_isGm 3 2 ns now).trans hfollow
  · exact hfollow

section Stale

variable {c : GmKey} (hgm : d.mer.isGm = false) (hcand : d.mer.cand = some c) (hdue : d.mer.seenAt + 4000000 ≤ d.upNs)

include hgm hcand hdue

theorem MDie.gmStale_of_due :
    d.gmStale =
      let x := d.merSet (d.mer.candStale d.gmKey d.fab.node d.tick d.upNs)
      if x.mer.isGm then x.timeOnPorts x.upPorts 2 else x := by
  have hdrop : (!d.mer.isGm && d.mer.cand.isSome && decide (d.mer.seenAt + 4000000 ≤ d.upNs)) = true := by
    simp only [hgm, hcand, decide_eq_true hdue, Bool.not_false, Option.isSome_some, Bool.and_self]
  exact if_pos hdrop

theorem MDie.gmStale_of_noKey (hown : d.gmKey = none) : d.gmStale = d.merSet (d.mer.candStale none d.fab.node d.tick d.upNs) := by
  simp only [MDie.gmStale_of_due hgm hcand hdue, hown, MDie.merSet_mer, Meridian.candStale_none_isGm, Bool.false_eq_true, if_false]

theorem MDie.gmStale_of_key {k : GmKey} (hown : d.gmKey = some k) :
    d.gmStale =
      let x := d.merSet (d.mer.becomeGm k d.fab.node d.tick d.upNs)
      x.timeOnPorts x.upPorts 2 := by
  simp only [MDie.gmStale_of_due hgm hcand hdue, hown, Meridian.candStale, MDie.merSet_mer, Meridian.becomeGm_isGm, if_true]

end Stale

/-! Losses (R490). -/

theorem MDie.syncLoss_of_due (hgm : d.mer.isGm = false) (hst : d.mer.st = 1 ∨ d.mer.st = 2)
    (hdue : d.mer.lastSync + d.timePs.u Par.timeSyncLoss * d.timePs.u Par.timeSyncInterval * 1000 ≤ d.upNs) :
    d.syncLoss = d.merSet (d.mer.enter 3 1 d.tick d.upNs) := by
  have hlost : d.mer.syncLost d.timePs d.upNs = true := by
    simp only [Meridian.syncLost, hgm, decide_eq_true hdue, Bool.or_eq_true, decide_eq_true_eq, hst, Bool.not_false, Bool.and_true]
  exact if_pos hlost

theorem MDie.ppsSilence_of_due {t : Nat} (hgm : d.mer.isGm = true) (hst : d.mer.st = 2) (hpps : d.mer.ppsAt = some t)
    (hdue : t + 2000000000 ≤ d.upNs) :
    d.ppsSilence = d.merSet (d.mer.enter 1 0 d.tick d.upNs) := by
  have hall : d.mer.ppsAt.all (fun t => decide (t + 2000000000 ≤ d.upNs)) = true := by
    rw [hpps, Option.all_some]
    exact decide_eq_true hdue
  have hsilent : d.mer.ppsSilent d.timePs d.upNs = true := by
    rw [Meridian.ppsSilent, hall, hgm, hst, Bool.or_true]
    rfl
  exact if_pos hsilent

/-! `PPS_IN` (R495). -/

theorem MDie.ppsIn_of_off (pin : Nat) (hmode : d.timePs.u Par.timePpsMode = 0) : d.ppsIn pin = { d with free := d.free + 1 } := by
  have hedge : d.mer.ppsEdge d.timePs pin d.tick d.upNs d.free = (d.mer, [], none) := if_pos (.inr hmode)
  have hdo : d.ppsIn pin = ({ d with free := d.free + 1 } : MDie).merDo (d.mer.ppsEdge d.timePs pin d.tick d.upNs d.free) := rfl
  rw [hdo, hedge]
  rfl

theorem MDie.ppsIn_of_stamp (pin : Nat) (hmode : d.timePs.u Par.timePpsMode = 1) (hfirst : d.mer.ppsAt = none) :
    d.ppsIn pin =
      ({ d with
          free := d.free + 1
          mer := { d.mer with
            ppsAt := some d.upNs
            ppsLast := BitVec.ofNat 64 (pin / 1000000000 % 2 ^ 32 * 2 ^ 32 + pin % 1000000000) } } : MDie).post 1
        (pinEv Evt.ppsCaptured pin (d32 (pin % 1000000000))) := by
  have hedge : d.mer.ppsEdge d.timePs pin d.tick d.upNs d.free =
      ({ d.mer with
          ppsAt := some d.upNs
          ppsLast := BitVec.ofNat 64 (pin / 1000000000 % 2 ^ 32 * 2 ^ 32 + pin % 1000000000) },
        [pinEv Evt.ppsCaptured pin (d32 (pin % 1000000000))], none) := by
    simp only [Meridian.ppsEdge, hmode, hfirst, Option.any_none, Bool.false_eq_true, Nat.one_ne_zero, or_self, if_false, Nat.reduceEqDiff, false_and]
  have hdo : d.ppsIn pin = ({ d with free := d.free + 1 } : MDie).merDo (d.mer.ppsEdge d.timePs pin d.tick d.upNs d.free) := rfl
  rw [hdo, hedge]
  rfl

end Timers

/-- Settles O54: each timer acts on the die run to its own time (`onDie_whenUp_of_passBoot`), at which it is due (`due_of_passBoot`). -/
theorem timeTimers : Obligations.TimeTimers := by
  intro s d hrun ps
  have hrow (due : MDie → Nat) (f : MDie → MDie) := onDie_whenUp_of_passBoot (e := d) due f hrun
  refine ⟨fun hpass => ?sync, fun hpass hnone => ?noPort, fun k hpass hone => ?onePort, fun hpass k c hown hcand hgm => ?announce, fun hpass => ?stale,
    fun hpass hgm hst => ?loss, fun t ht hpass hgm hst => ?silence, fun pin hpin => ?edge⟩
  case sync =>
    have hsync : exec .syncIntervalTimer s = .next (s.after d.syncTimer) := hrow _ _ hpass
    obtain ⟨hmer, -, -⟩ := MDie.due_of_passBoot hpass
    rw [hsync, ← MDie.start_mer s.md, ← hmer]
    rfl
  case noPort =>
    have htimer : exec .pdelayTimer s = .next (s.after d.pdelayTimer) := hrow _ _ hpass
    rw [htimer, MDie.pdelayTimer_eq, hnone]
    rfl
  case onePort =>
    have htimer : exec .pdelayTimer s = .next (s.after d.pdelayTimer) := hrow _ _ hpass
    rw [htimer, MDie.pdelayTimer_eq, hone]
    rfl
  case announce =>
    have htimer : exec .announceTimer s = .next (s.after d.announceTimer) := hrow _ _ hpass
    obtain ⟨hmer, -, -⟩ := MDie.due_of_passBoot hpass
    rw [← MDie.start_mer s.md, ← hmer] at hcand hgm
    rw [htimer, MDie.announceTimer_of_gm hown hcand hgm]
    rfl
  case stale =>
    have htimer : exec .gmCandidateStale s = .next (s.after d.gmStale) := hrow _ _ hpass
    obtain ⟨hmer, -, hdue⟩ := MDie.due_of_passBoot hpass
    rw [MDie.start_mer] at hmer
    rw [← hmer] at hdue ⊢
    rw [htimer]
    refine ⟨fun hgm => ?_, fun hgm c hcand hown => ?_, fun hgm c k hcand hown => ?_⟩
    · rw [MDie.gmStale_of_gm hgm]
    · rw [MDie.gmStale_of_noKey hgm hcand hdue hown]
    · rw [MDie.gmStale_of_key hgm hcand hdue hown]
  case loss =>
    have htimer : exec .syncLossTimeout s = .next (s.after d.syncLoss) := hrow _ _ hpass
    obtain ⟨hmer, hps, hdue⟩ := MDie.due_of_passBoot hpass
    rw [← MDie.start_mer s.md, ← hmer] at hgm hst
    have hdue' : d.mer.lastSync + d.timePs.u Par.timeSyncLoss * d.timePs.u Par.timeSyncInterval * 1000 ≤ d.upNs := by
      rw [hmer, hps]
      exact hdue
    rw [htimer, MDie.syncLoss_of_due hgm hst hdue']
  case silence =>
    have htimer : exec .ppsSilence s = .next (s.after d.ppsSilence) := by
      refine hrow (fun d => match d.mer.ppsAt with | some t => t + 2000000000 | none => d.upNs) _ ?_
      simp only [MDie.start_mer, ht, hpass]
    obtain ⟨hmer, -, hdue⟩ := MDie.due_of_passBoot hpass
    rw [← MDie.start_mer s.md, ← hmer] at ht hgm hst
    rw [htimer, MDie.ppsSilence_of_due hgm hst ht hdue]
  case edge =>
    have hahead : pin ≤ s.md.start.nextTick := hpin
    have hin : exec (.ppsInEdge pin) s = .next (s.after ((s.md.start.passTo pin).ppsIn pin)) := by
      refine (onDie_of_running s _ hrun).trans ?_
      rw [if_pos hahead]
    have hps : (s.md.start.passTo pin).timePs = ps := by
      obtain ⟨t, u, he⟩ := s.md.start.passTo_sameBut pin
      rw [he]
      rfl
    refine ⟨fun hmode => ?_, fun hmode hfirst => ?_⟩
    · rw [hin, MDie.ppsIn_of_off pin (by rw [hps, hmode])]
    · rw [hin, MDie.ppsIn_of_stamp pin (by rw [hps, hmode]) (by rw [MDie.passTo_mer]; exact hfirst)]

end Sys2Proof.Machine
end

section
/-! PROOFS. Queue 0 in the host window, QSPI transactions (chapter 21). -/

namespace Sys2Proof.Machine

open Sys2Proof

/-! Writes of the host window (R592, R593). -/

/-- A write that is no aligned word of 32 or 64 bits is discarded. -/
theorem MDie.hostAccess_of_unaligned (d : MDie) (p : HostPort) {off : Nat} {b : List Byte} (h4 : ¬ (b.length = 4 ∧ off % 4 = 0))
    (h8 : ¬ (b.length = 8 ∧ off % 8 = 0)) : d.hostAccess p off b = d := by
  rw [MDie.hostAccess, if_neg h4, if_neg h8, ite_self]

section Window

variable {d : MDie} (hrun : d.boot.inReset = false) (h0 : d.dieIndex = 0)

include hrun h0

/-- Once the boot ROM is past its stage 0xE, a word at the address register of queue 0's command ring goes to the ring registers. -/
theorem MDie.hostAccess_cmdBase (hstage : d.boot.stage ≠ 0xE) (p : HostPort) {b : List Byte} (hb : b.length = 4) :
    d.hostAccess p 0x1000 b = d.q0Write p 0x1000 (rdU b 0 4) := by
  have hopen : d.windowOpen 0x1000 = true := by
    simp only [MDie.windowOpen, h0, hrun, bne_iff_ne.2 hstage, BEq.rfl, Bool.not_false, Bool.true_or, Bool.and_self]
  simp only [MDie.hostAccess, hopen, hb, MDie.windowWrite, Bool.not_true, Bool.false_eq_true, if_false, if_true,
    Nat.reduceMod, Nat.reduceLT, Nat.reduceLeDiff,
    Nat.reduceEqDiff, and_self, true_or]

end Window

theorem MDie.q0Write_of_on {d : MDie} {p : HostPort} (hon : (d.rm.regs p).q0En = true) (off v : Nat) : d.q0Write p off v = d := if_pos hon

/-- The low half of an address register takes an aligned value. -/
theorem putHalf_low {old : U64} {v : Nat} (h : v % 4096 = 0) : putHalf .pcie 4096 old 0 v = BitVec.ofNat 64 (old.toNat / 2 ^ 32 * 2 ^ 32 + v) := by
  have hhigh : half old.toNat 1 = old.toNat / 2 ^ 32 := Nat.mod_eq_of_lt (by have := old.isLt; omega)
  have haligned : ¬ ((old.toNat / 2 ^ 32 * 2 ^ 32 + v) % 4096 ≠ 0 ∨ (HostPort.pcie = .qspi ∧ 0x10000 ≤ old.toNat / 2 ^ 32 * 2 ^ 32 + v)) := by
    rintro (hrest | ⟨hport, -⟩)
    · omega
    · cases hport
  simp only [putHalf, hhigh, if_true]
  rw [if_neg haligned]

theorem MDie.q0Write_cmdBase {d : MDie} {v : Nat} (hoff : (d.rm.regs .pcie).q0En = false) (hv : v % 4096 = 0) :
    d.q0Write .pcie 0x1000 v =
      d.setRegs .pcie (fun r => { r with cmdBase := BitVec.ofNat 64 (r.cmdBase.toNat / 2 ^ 32 * 2 ^ 32 + v) }) := by
  have hput (old : U64) := putHalf_low (old := old) hv
  simp only [MDie.q0Write, hoff, Bool.false_eq_true, if_false, true_or, if_true, Nat.sub_self, Nat.zero_div, hput]

theorem MDie.q0Restart_of_queue {d : MDie} {p : HostPort} {rt : QueueRt} (h : d.queue? (queueKey p 0) = some rt) :
    d.q0Restart p = (d.dropHeld (queueKey p 0)).setQueue (queueKey p 0)
      { rt with head := 0, tail := 0, halted := false, partly := false, behind := false } := by
  simp only [MDie.q0Restart, h]

/-! QSPI transactions (R594, R595). -/

/-- One word in the ring window is a transaction of whole aligned words in the two windows. -/
theorem qspiOk_ring {a : Nat} (halign : a % 4 = 0) (hlo : 0x10000 ≤ a) (hhi : a < 0x20000) : qspiOk a 4 = true := by
  have hspace : qspiSpace a ≤ 1 := by
    unfold qspiSpace
    omega
  simp [qspiOk, halign, hspace]

section Qspi

variable {d : MDie} (hrun : d.boot.inReset = false) (h0 : d.dieIndex = 0)

include hrun h0

theorem MDie.qspi_open : ¬ (d.dieIndex ≠ 0 ∨ d.boot.inReset = true) := by
  simp only [h0, hrun, ne_eq, not_true, Bool.false_eq_true, or_self, not_false_iff]

theorem MDie.qspiWrite_of_bad {a : Nat} {b : List Byte} (h : qspiOk a b.length = false) :
    d.qspiWrite a b = d.setRegs .qspi (fun r => { r with err := true }) := by
  rw [MDie.qspiWrite, if_neg (MDie.qspi_open hrun h0), if_pos (by rw [h]; rfl)]
  rfl

theorem MDie.qspiRead_of_bad {a n : Nat} (h : qspiOk a n = false) :
    d.qspiRead a n = (d.setRegs .qspi (fun r => { r with err := true })).emit (.qspi (List.replicate n 0)) := by
  rw [MDie.qspiRead, if_neg (MDie.qspi_open hrun h0), if_pos (by rw [h]; rfl)]
  rfl

section Ring

variable {a : Nat} (halign : a % 4 = 0) (hlo : 0x10000 ≤ a) (hhi : a < 0x20000)

include halign hlo hhi

theorem MDie.qspiWrite_ring {b : List Byte} (hb : b.length = 4) :
    d.qspiWrite a b = { d with mem := d.mem.write (0x3F0000 + (a - 0x10000)) b } := by
  have hregs : ¬ a < 0x8000 := by omega
  have hgap : ¬ a < 0x10000 := by omega
  have haddr : a % 0x10000 = a - 0x10000 := by omega
  have hword : b.take 4 = b := List.take_of_length_le (by omega)
  simp only [MDie.qspiWrite, if_neg (MDie.qspi_open hrun h0), hb, qspiOk_ring halign hlo hhi,
    Bool.not_true, Bool.false_eq_true, if_false, Nat.div_self (show 0 < 4 by decide),
    List.range_one, List.foldl_cons, List.foldl_nil, Nat.mul_zero, Nat.add_zero, List.drop_zero, hword, hregs, hgap, haddr]

theorem MDie.qspiRead_ring : d.qspiRead a 4 = d.emit (.qspi (d.mem.sram.readN (0x3F0000 + (a - 0x10000)) 4)) := by
  have hid : ¬ (a < 0x40 ∧ d.upNs < d.boot.released + 1000000) := by omega
  have hregs : ¬ a < 0x8000 := by omega
  have hgap : ¬ a < 0x10000 := by omega
  have haddr : a % 0x10000 = a - 0x10000 := by omega
  simp only [MDie.qspiRead, if_neg (MDie.qspi_open hrun h0), qspiOk_ring halign hlo hhi,
    Bool.not_true, Bool.false_eq_true, if_false, Nat.div_self (show 0 < 4 by decide),
    List.range_one, List.foldl_cons, List.foldl_nil, Nat.mul_zero, Nat.add_zero, hid, hregs, hgap, haddr, List.nil_append]

end Ring

theorem MDie.qspiStatus_of_running :
    d.qspiStatus = (d.setRegs .qspi (fun r => { r with err := false })).emit (.qspi [BitVec.ofNat 8
      ((if d.boot.ready then 1 else 0) + (if d.qspiIrq then 2 else 0) + (if d.rm.qspi.err then 4 else 0))]) :=
  if_neg (MDie.qspi_open hrun h0)

end Qspi

/-- Settles O20: each row is that of its register or transaction on the lead die. -/
theorem hostWindowAndQspi : Obligations.HostWindowAndQspi := by
  refine ⟨fun s p hrun h0 => ?window, fun s a hrun h0 => ?qspi⟩
  case window =>
    have hrow (f : MDie → MDie) : onDie s (fun d => d.host f) = .next (s.after (f s.md.start)) := onDie_host_of_lead f hrun h0
    have hwrite (p : HostPort) (off : Nat) (b : List Byte) :
        exec (.hostWindowWrite p off b) s = .next (s.after (s.md.start.hostAccess p off b)) := hrow _
    refine ⟨fun on => hrow _, fun rt hq => ?restart, fun off b h4 h8 => ?unaligned, fun hstage b hb => ⟨fun hon => ?on, fun hoff hv => ?off⟩⟩
    case restart =>
      have hrestart : exec (.q0Restart p) s = .next (s.after (s.md.start.q0Restart p)) := hrow _
      rw [hrestart, MDie.q0Restart_of_queue (d := s.md.start) hq]
    case unaligned => rw [hwrite, MDie.hostAccess_of_unaligned s.md.start p h4 h8]
    case on =>
      rw [hwrite, MDie.hostAccess_cmdBase (d := s.md.start) hrun h0 hstage p hb, MDie.q0Write_of_on (d := s.md.start) hon]
    case off =>
      rw [hwrite, MDie.hostAccess_cmdBase (d := s.md.start) hrun h0 hstage .pcie hb, MDie.q0Write_cmdBase (d := s.md.start) hoff hv]
  case qspi =>
    have hrow (f : MDie → MDie) : onDie s (fun d => d.host f) = .next (s.after (f s.md.start)) := onDie_host_of_lead f hrun h0
    have hwrite (b : List Byte) : exec (.qspiWrite a b) s = .next (s.after (s.md.start.qspiWrite a.toNat b)) := hrow _
    have hread (n : Nat) : exec (.qspiRead a n) s = .next (s.after (s.md.start.qspiRead a.toNat n)) := hrow _
    have hstatus : exec .qspiStatus s = .next (s.after s.md.start.qspiStatus) := hrow _
    refine ⟨fun b hbad => ?badWrite, fun n hbad => ?badRead, fun b hb halign hlo hhi => ?write, fun halign hlo hhi => ?read, ?status⟩
    case badWrite => rw [hwrite, MDie.qspiWrite_of_bad (d := s.md.start) hrun h0 hbad]
    case badRead => rw [hread, MDie.qspiRead_of_bad (d := s.md.start) hrun h0 hbad]
    case write =>
      rw [hwrite, MDie.qspiWrite_ring (d := s.md.start) hrun h0 halign hlo hhi hb]
      rfl
    case read =>
      rw [hread, MDie.qspiRead_ring (d := s.md.start) hrun h0 halign hlo hhi]
      rfl
    case status =>
      rw [hstatus, MDie.qspiStatus_of_running (d := s.md.start) hrun h0]
      rfl

end Sys2Proof.Machine
end

section
/-! PROOFS. Resets of the PCI Express client, and the TAP (chapter 21). -/

namespace Sys2Proof.Machine

open Sys2Proof

/-! Resets of the PCI Express client (R591, R624). -/

/-- Where every queue of the PCI Express host has halted and no DMA channel is made, its reset changes the window registers alone. -/
theorem MDie.pcieReset_of_halted {d : MDie} (hq : ∀ q < 8, ∀ rt, d.queue? (queueKey .pcie q) = some rt → rt.halted = true)
    (hdma : d.slotsOf .dmac = []) :
    d.pcieReset = d.setRegs .pcie (fun _ => HostRegs.create) := by
  unfold MDie.pcieReset
  extract_lets x y
  have hy : y = x := by
    refine List.foldlRecOn (motive := fun z : MDie => z = x) _ _ rfl fun z hz q hmem => ?_
    subst hz
    have hrt : ∀ rt, x.queue? (queueKey .pcie q) = some rt → rt.halted = true := hq q (List.mem_range.1 hmem)
    cases hfound : x.queue? (queueKey .pcie q) with
    | none => rfl
    | some rt => simp only [hrt rt hfound, if_true]
  have hnone : y.slotsOf .dmac = [] := by
    rw [hy]
    exact hdma
  rw [hnone, hy]
  rfl

/-! Reset (R577, R597). -/

theorem ballsOnly_ballsLow (d : MDie) : BallsOnly d d.ballsLow := by
  refine BallsOnly.trans (BallsOnly.trans (BallsOnly.trans ?_ (ballsOnly_foldl _ ?_ _ _)) (ballsOnly_foldl _ ?_ _ _)) (ballsOnly_foldl _ ?_ _ _)
  · exact ballsOnly_ite (ballsOnly_emit _ _) (.refl _)
  all_goals exact fun d x => ballsOnly_ite (ballsOnly_emit _ _) (.refl _)

@[simp] theorem MDie.logicSilent_tap (d : MDie) : d.logicSilent.tap = d.tap := by
  unfold MDie.logicSilent
  split <;> rfl

@[simp] theorem MDie.wiped_tap (d : MDie) (m : Mram) (causes : List Nat) : (d.wiped m causes).tap = d.tap := by
  obtain ⟨_, _, _, _, _, h⟩ := ballsOnly_ballsLow d.logicSilent
  simp only [MDie.wiped, h, MDie.logicSilent_tap]

/-- A running die in which a cause of reset arises is in reset with that cause, and with the TAP it had. -/
theorem MDie.enterReset_of_running {d : MDie} (cause : Nat) (hrun : d.boot.inReset = false) :
    (d.enterReset cause).boot.inReset = true ∧ (d.enterReset cause).tap = d.tap ∧ (d.enterReset cause).mram.resetCause = cause := by
  simp only [MDie.enterReset, hrun, Bool.false_eq_true, if_false]
  exact ⟨rfl, MDie.wiped_tap _ _ _, rfl⟩

/-- A die that the TAP holds in reset is there at the end of the step too. -/
theorem MDie.settle_of_held {d : MDie} (before : MDie) (hreset : d.boot.inReset = true) (hhold : tapHolds d.tap.ir = true) :
    (d.settle before).boot = d.boot ∧ (d.settle before).tap = d.tap ∧ (d.settle before).mram = d.mram := by
  obtain ⟨pr, ca, gp, o, fr, hirq⟩ := ballsOnly_irqBall d before
  have hkeep : (d.irqBall before).releaseReset = d.irqBall before := by
    refine if_pos ?_
    simp only [hirq, MDie.mayRelease, hreset, hhold, Bool.not_true, Bool.and_false, Bool.not_false, Bool.or_true]
  rw [MDie.settle, if_pos hreset, hkeep, hirq]
  exact ⟨rfl, rfl, rfl⟩

/-! TAP instructions (R596, R597). -/

theorem MDie.tapSelect_of_free {d : MDie} {code : Nat} (h : tapHolds (tapInstr d.mram.lc code) = false) :
    d.tapSelect code =
      let x : MDie := { d with tap := { d.tap with ir := tapInstr d.mram.lc code } }
      x.emit (.tap x.tapOut) := if_neg (by rw [MDie.emit_tap, h]; decide)

/-- An instruction that holds the dies resets a running one. -/
theorem MDie.tapSelect_of_holding {d : MDie} {code : Nat} (before : MDie) (hrun : d.boot.inReset = false)
    (h : tapHolds (tapInstr d.mram.lc code) = true) :
    let e := (d.tapSelect code).settle before
    e.boot.inReset = true ∧ e.tap = { d.tap with ir := tapInstr d.mram.lc code } ∧ e.mram.resetCause = 2 := by
  generalize hx : ({ d with tap := { d.tap with ir := tapInstr d.mram.lc code } } : MDie) = x
  have hsel : d.tapSelect code = (x.emit (.tap x.tapOut)).enterReset 2 := by
    subst hx
    exact if_pos h
  have hxrun : (x.emit (.tap x.tapOut)).boot.inReset = false := by
    subst hx
    exact hrun
  have hxtap : (x.emit (.tap x.tapOut)).tap = { d.tap with ir := tapInstr d.mram.lc code } := by
    subst hx
    rfl
  obtain ⟨hreset, htap, hcause⟩ := MDie.enterReset_of_running 2 hxrun
  rw [hsel]
  rw [hxtap] at htap
  obtain ⟨hboot, htap', hmram⟩ := MDie.settle_of_held before hreset (by rw [htap]; exact h)
  exact ⟨by rw [hboot, hreset], by rw [htap', htap], by rw [hmram, hcause]⟩

/-- `EXTEST`, `CLAMP` and `HIGHZ`. -/
def boundaryCodes : List Nat := [0, 4, 5]

theorem tapInstr_of_open {lc code : Nat} (hc : code ∈ boundaryCodes) (h : lc = 0 ∨ lc = 1 ∨ lc = 3) : tapInstr lc code = code := by
  simp only [boundaryCodes, List.mem_cons, List.not_mem_nil, or_false] at hc
  have hfree : ¬ (code = 1 ∨ code = 2) := by omega
  rw [tapInstr, if_neg hfree, if_pos ⟨hc, h⟩]

theorem tapInstr_of_locked {lc code : Nat} (hc : code ∈ boundaryCodes) (h : lc = 2 ∨ lc = 4) : tapInstr lc code = 0xFF := by
  simp only [boundaryCodes, List.mem_cons, List.not_mem_nil, or_false] at hc
  have hfree : ¬ (code = 1 ∨ code = 2) := by omega
  have hlocked : ¬ ((code = 0 ∨ code = 4 ∨ code = 5) ∧ (lc = 0 ∨ lc = 1 ∨ lc = 3)) := by omega
  rw [tapInstr, if_neg hfree, if_neg hlocked]

theorem tapHolds_of_boundaryCode {code : Nat} (hc : code ∈ boundaryCodes) : tapHolds code = true := by
  revert code
  decide

theorem MDie.tapSelect_of_bypass {d : MDie} {code : Nat} (h : tapInstr d.mram.lc code = 0xFF) :
    d.tapSelect code = ({ d with tap := { d.tap with ir := 0xFF } } : MDie).emit (.tap [false]) := by
  rw [MDie.tapSelect_of_free (by rw [h]; decide), h]
  rfl

/-- Settles O21: the host rows are those of the lead die; an instruction that the life-cycle state permits holds the dies
(`tapSelect_of_holding`, `settle_of_held`), a locked one is `BYPASS` (`tapInstr_of_locked`). -/
theorem linkResetsAndTap : Obligations.LinkResetsAndTap := by
  refine ⟨fun s hrun h0 => ?link, fun s hrun => ?tap⟩
  case link =>
    have hrow (f : MDie → MDie) : onDie s (fun d => d.host f) = .next (s.after (f s.md.start)) := onDie_host_of_lead f hrun h0
    have hlead : s.md.start.host (fun d => d.perstLow) = s.md.start.perstLow := if_pos h0
    have hperst : exec .pciePerstLow s = .next (s.after (s.md.start.host fun d => d.perstLow)) := onDieAny_eq s _
    rw [hlead] at hperst
    exact ⟨hperst, hrow _, hrow _, hrow _, fun hq hdma => MDie.pcieReset_of_halted (d := s.md.start) hq hdma⟩
  case tap =>
    refine ⟨?idcode, ?bypass, fun bits => ?sample, fun c i hc => ?boundary⟩
    case idcode =>
      have hrow : exec .idcode s = .next (s.after (s.md.start.tapSelect 1)) := onDieAny_eq s _
      rw [hrow, MDie.tapSelect_of_free rfl]
      rfl
    case bypass =>
      have hrow : exec .bypass s = .next (s.after (s.md.start.tapSelect 0xFF)) := onDieAny_eq s _
      rw [hrow, MDie.tapSelect_of_bypass rfl]
      rfl
    case sample =>
      have hrow : exec (.samplePreload bits) s = .next (s.after (s.md.start.tapSample bits)) := onDieAny_eq s _
      rw [hrow, MDie.tapSample, MDie.tapSelect_of_free rfl]
      rfl
    case boundary =>
      have hrow : i ∈ boundaryCodes ∧ exec c s = .next (s.after (s.md.start.tapSelect i)) := by
        simp only [List.mem_cons, Prod.mk.injEq, List.not_mem_nil, or_false] at hc
        rcases hc with ⟨rfl, rfl⟩ | ⟨rfl, rfl⟩ | ⟨rfl, rfl⟩ <;> exact ⟨by decide, onDieAny_eq s _⟩
      obtain ⟨hcode, hrow⟩ := hrow
      refine ⟨fun hopen => ⟨_, hrow, ?_⟩, fun hlocked => ?_⟩
      · have hir : tapInstr s.md.start.mram.lc i = i := tapInstr_of_open hcode hopen
        have hheld := MDie.tapSelect_of_holding (d := s.md.start) s.md hrun (by rw [hir]; exact tapHolds_of_boundaryCode hcode)
        rw [hir] at hheld
        exact hheld
      · rw [hrow, MDie.tapSelect_of_bypass (d := s.md.start) (tapInstr_of_locked hcode hlocked)]
        rfl

end Sys2Proof.Machine
end

section
/-! PROOFS. Memory errors, the journal's commits and compactions, the end of a challenge (chapter 19). -/

namespace Sys2Proof.Machine

open Sys2Proof

/-! Memory errors (R545). -/

section Errors

variable {d : MDie} {mem : Nat}

/-- The die that has counted a corrected error. -/
def MDie.ceCounted (d : MDie) (mem : Nat) : MDie := d.bump 0 Par.systemMemCe mem 1

/-- The die that reports the corrected errors of a memory since the last report. -/
def MDie.ceReported (d : MDie) (mem : Nat) : MDie :=
  ({ d with mem := { d.mem with ceSince := d.mem.ceSince.set mem 0, cePost := d.mem.cePost.set mem (some d.upNs) } } : MDie).post 0
    (report Evt.memCorrected d.tick (d8 mem ++ [0, 0, 0] ++ d32 (d.mem.ceSince.getD mem 0 + 1)))

theorem MDie.memErrorRow_of_recent (hmem : mem ≤ 3) {t : Nat} (hpost : (d.ceCounted mem).mem.cePost.getD mem none = some t)
    (hrecent : (d.ceCounted mem).upNs < t + 1000000000) (addr : Nat) (reader : Bool) (slot area : Nat) :
    d.memErrorRow mem addr false reader slot area =
      { d.ceCounted mem with mem := { (d.ceCounted mem).mem with
        ceSince := (d.ceCounted mem).mem.ceSince.set mem ((d.ceCounted mem).mem.ceSince.getD mem 0 + 1) } } := by
  rw [MDie.ceCounted] at hpost hrecent
  simp only [MDie.memErrorRow, MDie.memError, if_neg (Nat.not_lt.2 hmem), hpost, if_pos hrecent, Bool.not_false, if_true, Bool.false_eq_true, if_false]
  rfl

theorem MDie.memErrorRow_of_due (hmem : mem ≤ 3)
    (hdue : ∀ t, (d.ceCounted mem).mem.cePost.getD mem none = some t → t + 1000000000 ≤ (d.ceCounted mem).upNs) (addr : Nat) (reader : Bool)
    (slot area : Nat) : d.memErrorRow mem addr false reader slot area = (d.ceCounted mem).ceReported mem := by
  rw [MDie.ceCounted] at hdue
  simp only [MDie.memErrorRow, MDie.memError, if_neg (Nat.not_lt.2 hmem), Bool.not_false, if_true]
  cases hpost : (d.bump 0 Par.systemMemCe mem 1).mem.cePost.getD mem none with
  | none => rfl
  | some t =>
    simp only [if_neg (Nat.not_lt.2 (hdue t hpost)), Bool.false_eq_true, if_false]
    rfl

/-- An uncorrectable error that the scrubber finds in coefficient or data RAM. -/
theorem MDie.memErrorRow_of_scrubbed (hmem : mem = 1 ∨ mem = 2) (addr slot area : Nat) :
    d.memErrorRow mem addr true false slot area =
      let x := d.bump 0 Par.systemMemUe mem 1
      ({ x with mem := { x.mem with lastAddr := mem * 2 ^ 28 + addr % 2 ^ 28 } } : MDie).post 0
        (faultEv Evt.memUncorrectable x.tick (d8 mem ++ [0, 0, 0] ++ d32 addr)) := by
  have hknown : ¬ 3 < mem := by omega
  have hmram : ¬ mem = 3 := by omega
  have hsram : ¬ mem = 0 := by omega
  simp only [MDie.memErrorRow, MDie.memError, if_neg hknown, if_neg hmram, if_neg hsram, Bool.not_true, Bool.false_eq_true, if_false]
  rfl

end Errors

/-! The journal (R558). -/

theorem MDie.jCompact_of_full {d : MDie} (hfull : d.mram.journal.full = true) (hst : d.mram.journal.st = 0) (hsnap : d.mram.journal.snap = none) :
    d.jCompact =
      let r := d.mram.journal.compact d.jSnapshot d.tick (d.upNs + 20000000)
      ((d.setJournal r.1).postAll 0 r.2).jSyncs :=
  if_pos (by rw [hfull, hst, hsnap]; rfl)

theorem MDie.jCompact_of_room {d : MDie} (hroom : d.mram.journal.full = false) : d.jCompact = d :=
  if_neg (by rw [hroom, Bool.false_and, Bool.false_and]; exact Bool.false_ne_true)

theorem MDie.challengeExpiry_of_due {d e : MDie} {b : List Byte} {t : Nat} (h : d.mem.challenge = some (b, t)) (hpass : d.passUp t = some e) :
    d.challengeExpiry = { e with mem := { e.mem with challenge := none } } := by
  simp only [MDie.challengeExpiry, h, hpass]

/-- Settles O58: each row is that of its memory, of the journal or of the challenge on the die as the step finds it. -/
theorem memoryRowsComplete : Obligations.MemoryRowsComplete := by
  intro s hrun
  have herror (mem addr : Nat) (u reader : Bool) (slot area : Nat) : exec (.memoryErrorDetected mem addr u reader slot area) s =
      .next (s.after (s.md.start.memErrorRow mem addr u reader slot area)) := onDie_of_running s _ hrun
  have hcompact : exec .journalCompaction s = .next (s.after s.md.start.jCompact) := onDie_of_running s _ hrun
  refine ⟨fun mem addr reader slot area hmem => ⟨fun t hpost hrecent => ?recent, fun hdue => ?due⟩, fun mem addr slot area hmem => ?scrubbed,
    onDie_of_running s _ hrun, fun hfull hst hsnap => ?full, fun hroom => ?room, onDie_of_running s _ hrun, fun b t d hb hpass => ?challenge⟩
  case recent =>
    rw [herror, MDie.memErrorRow_of_recent (d := s.md.start) hmem hpost hrecent]
    rfl
  case due =>
    have hdue' : ∀ t, (s.md.start.ceCounted mem).mem.cePost.getD mem none = some t → t + 1000000000 ≤ (s.md.start.ceCounted mem).upNs := by
      intro t ht
      rw [MDie.ceCounted] at ht ⊢
      rw [ht, Option.all_some] at hdue
      exact of_decide_eq_true hdue
    rw [herror, MDie.memErrorRow_of_due hmem hdue']
    rfl
  case scrubbed => rw [herror, MDie.memErrorRow_of_scrubbed hmem]
  case full =>
    rw [hcompact, MDie.jCompact_of_full (d := s.md.start) hfull hst hsnap]
    rfl
  case room => rw [hcompact, MDie.jCompact_of_room (d := s.md.start) hroom]
  case challenge =>
    have hrow : exec .challengeExpiry s = .next (s.after s.md.start.challengeExpiry) := onDie_of_running s _ hrun
    rw [hrow, MDie.challengeExpiry_of_due (d := s.md.start) hb hpass]

end Sys2Proof.Machine
end

section
/-! PROOFS. The stages of boot, its timeout, the opening of the host queues (chapter 20). -/

namespace Sys2Proof.Machine

open Sys2Proof

/-! Stages (R583). -/

section Stages

variable {d : MDie} {prof us : Nat} (hrun : d.boot.inReset = false) (hready : d.boot.ready = false) (hus : us ≤ 5000000)
  (htime : d.upNs ≤ d.boot.released + 5000000000)

include hrun hready hus htime

/-- A boot that its timeout has not ended goes on. -/
theorem MDie.boots : ¬ (d.boot.inReset = true ∨ d.boot.ready = true ∨ 5000000 < us ∨ d.boot.released + 5000000000 < d.upNs) := by
  rintro (h | h | h | h)
  · exact Bool.false_ne_true (hrun.symm.trans h)
  · exact Bool.false_ne_true (hready.symm.trans h)
  · exact Nat.not_lt.2 hus h
  · exact Nat.not_lt.2 htime h

theorem MDie.bootStage_zero (hstage : d.boot.stage = 0) : d.bootStage prof us = (d.bootAt us).bootRom prof := by
  simp only [MDie.bootStage, if_neg (MDie.boots hrun hready hus htime), hstage]

theorem MDie.bootStage_one (hstage : d.boot.stage = 1) : d.bootStage prof us = (d.bootAt us).bootFirmware := by
  simp only [MDie.bootStage, if_neg (MDie.boots hrun hready hus htime), hstage]

theorem MDie.bootStage_two (hstage : d.boot.stage = 2) : d.bootStage prof us = (d.bootAt us).bootProfile := by
  simp only [MDie.bootStage, if_neg (MDie.boots hrun hready hus htime), hstage]

/-- Stage 3 is over once the node base is known. -/
theorem MDie.bootStage_three (hstage : d.boot.stage = 3) (hnode : (d.bootAt us).ownFabric.fab.node ≠ 0xFFFF) :
    d.bootStage prof us = (d.bootAt us).ownFabric.setStage 4 := by
  simp only [MDie.bootStage, if_neg (MDie.boots hrun hready hus htime), hstage, if_neg hnode]

theorem MDie.bootStage_four (hstage : d.boot.stage = 4) : d.bootStage prof us = (d.bootAt us).bootReplay.bootComplete := by
  simp only [MDie.bootStage, if_neg (MDie.boots hrun hready hus htime), hstage]

end Stages

/-! Other dies, the timeout, the queues (R565, R581, R584). -/

section Ends

variable {d : MDie} (hrun : d.boot.inReset = false)

include hrun

/-- The lead die learns that another die of its package is up. -/
theorem MDie.dieUp_of_lead {die : Nat} (cause us : Nat) (h0 : d.dieIndex = 0) (hother : die ≠ 0) (hdie : die < d.nDies) :
    d.dieUp die cause us =
      ({ d with diesUp := if d.diesUp.contains die then d.diesUp else d.diesUp ++ [die] } : MDie).post 0
        (report Evt.dieReset d.tick (d8 die ++ d8 cause ++ [0, 0] ++ d32 us)) := by
  refine if_neg ?_
  rintro (h | h | h | h)
  · exact Bool.false_ne_true (hrun.symm.trans h)
  · exact h h0
  · exact hother h
  · exact Nat.not_le.2 hdie h

theorem MDie.bootTimeout_of_early (hstage : d.boot.stage < 5) :
    d.bootTimeout = ({ d.bootAt 5000000 with mram := (d.bootAt 5000000).mram.bootFailed } : MDie).enterReset 8 := by
  refine if_neg ?_
  rintro (h | h)
  · exact Bool.false_ne_true (hrun.symm.trans h)
  · exact Nat.not_le.2 hstage h

/-- The host queues of a die at stage 5 open once every die is up, or 5 s have passed. -/
theorem MDie.queuesOpen_of_due {us : Nat} (hready : d.boot.ready = false) (hstage : d.boot.stage = 5) (hup : d.allUp = true ∨ 5000000 ≤ us) :
    d.queuesOpen us =
      let x := d.bootAt (min us 5000000)
      let bootUs := (x.upNs - x.boot.released) / 1000
      let y : MDie := if x.dieIndex = 0 then x.emit (.edge .ready x.ns true) else x
      let z : MDie := { y with
        boot := { y.boot with ready := true, bootUs := bootUs, events := [] }
        posted := x.boot.events.map (fun e => x.resource e) ++ y.posted }
      (z.post 0 (report Evt.bootDone z.tick
        (d8 z.mram.resetCause ++ d8 z.boot.bootSlot ++ d8 z.boot.bank ++ d8 (min 255 z.boot.dropped) ++ d32 bootUs))).fieldHold := by
  refine if_neg ?_
  rintro (h | h | h | h)
  · exact Bool.false_ne_true (hrun.symm.trans h)
  · exact Bool.false_ne_true (hready.symm.trans h)
  · exact h hstage
  · rw [Bool.and_eq_true, Bool.not_eq_true', decide_eq_true_eq] at h
    obtain hall | hlate := hup
    · exact Bool.false_ne_true (h.1.symm.trans hall)
    · exact Nat.not_lt.2 hlate h.2

end Ends

theorem MDie.bootTimeout_of_up {d : MDie} (hstage : 5 ≤ d.boot.stage) : d.bootTimeout = d := if_pos (.inr hstage)

theorem MDie.queuesOpen_of_ready {d : MDie} (us : Nat) (hready : d.boot.ready = true) : d.queuesOpen us = d := if_pos (.inr (.inl hready))

/-- Settles O60: a stage of this die runs as `bootStage` has it, of another die the lead die learns (`dieUp_of_lead`); the timeout and the
opening of the queues depend on the stage reached. The cap of the drop count is log 54, the report at each completion log 164. -/
theorem bootRowsComplete : Obligations.BootRowsComplete := by
  intro s prof cause us hrun
  have hrow (die : Nat) : exec (.bootStageComplete die prof cause us) s = .next (s.after (s.md.start.bootStageComplete die prof cause us)) :=
    onDie_of_running s _ hrun
  have hown : exec (.bootStageComplete s.md.dieIndex prof cause us) s = .next (s.after (s.md.start.bootStage prof us)) := by
    rw [hrow, MDie.bootStageComplete, if_pos (MDie.start_dieIndex s.md).symm]
  have htimeout : exec .bootTimeout s = .next (s.after s.md.start.bootTimeout) := onDie_of_running s _ hrun
  have hopen : exec (.hostQueuesOpen us) s = .next (s.after (s.md.start.queuesOpen us)) := onDie_of_running s _ hrun
  refine ⟨fun hready hus htime => ?stages, fun die h0 hother hdie => ?other, fun hstage => ?up, fun hstage => ?early, fun hready => ?ready,
    fun hready hstage hup => ?opens⟩
  case stages =>
    rw [hown]
    refine ⟨fun hstage => ?_, fun hstage => ?_, fun hstage => ?_, fun hstage hnode => ?_, fun hstage => ?_⟩
    · rw [MDie.bootStage_zero (d := s.md.start) hrun hready hus htime hstage]
    · rw [MDie.bootStage_one (d := s.md.start) hrun hready hus htime hstage]
    · rw [MDie.bootStage_two (d := s.md.start) hrun hready hus htime hstage]
    · rw [MDie.bootStage_three (d := s.md.start) hrun hready hus htime hstage hnode]
    · rw [MDie.bootStage_four (d := s.md.start) hrun hready hus htime hstage]
  case other =>
    have hne : ¬ die = s.md.start.dieIndex := fun h => hother (h.trans h0)
    rw [hrow, MDie.bootStageComplete, if_neg hne, MDie.dieUp_of_lead (d := s.md.start) hrun cause us h0 hother hdie]
    rfl
  case up => rw [htimeout, MDie.bootTimeout_of_up (d := s.md.start) hstage]
  case early => rw [htimeout, MDie.bootTimeout_of_early (d := s.md.start) hrun hstage]
  case ready => rw [hopen, MDie.queuesOpen_of_ready (d := s.md.start) us hready]
  case opens => rw [hopen, MDie.queuesOpen_of_due (d := s.md.start) hrun hready hstage hup]

end Sys2Proof.Machine
end

section
/-! PROOFS. Bulk packets, and the rows of the DMA engine (chapter 17). -/

namespace Sys2Proof.Machine

open Sys2Proof

/-! Bulk packets (R463, R504, R510). -/

section Bulk

variable {d : MDie} {m : FabMsg}

theorem MDie.takeBulkWrite_of_bad (hbad : d.bulkOk m.pkt.src (rdU m.pkt.payload 0 8) (m.pkt.payload.drop 8).length = false) :
    d.takeBulkWrite m = d.emit (.bulkError m.pkt.src m.pkt.xaux.toNat) := by
  simp only [MDie.takeBulkWrite, hbad, Bool.not_false, if_true]

theorem MDie.takeBulkWrite_of_sram (hok : d.bulkOk m.pkt.src (rdU m.pkt.payload 0 8) (m.pkt.payload.drop 8).length = true)
    (hsram : dmaRegion (rdU m.pkt.payload 0 8) = 0) :
    d.takeBulkWrite m =
      let e := d.sramStore (bitsOf (rdU m.pkt.payload 0 8) 22 0) (m.pkt.payload.drop 8)
      if bitOf m.pkt.xtag 0 then e.send (e.packetTo 13 m.pkt.src 0 m.pkt.xaux []) else e := by
  have hhere : ¬ dmaRegion (rdU m.pkt.payload 0 8) = 2 := by omega
  simp only [MDie.takeBulkWrite, hok, Bool.not_true, Bool.false_eq_true, if_false, if_neg hhere]

theorem MDie.takeBulkRead_of_bad (host : List Byte) (hbad : 512 < m.pkt.xtag ∨ d.bulkOk m.pkt.src (rdU m.pkt.payload 0 8) m.pkt.xtag = false) :
    d.takeBulkRead m host = d.emit (.bulkError m.pkt.src m.pkt.xaux.toNat) := by
  refine if_pos (hbad.imp_right fun h => .inl ?_)
  rw [h]
  rfl

theorem MDie.takeBulkRead_of_sram (host : List Byte) (hlen : m.pkt.xtag ≤ 512)
    (hok : d.bulkOk m.pkt.src (rdU m.pkt.payload 0 8) m.pkt.xtag = true) (hsram : dmaRegion (rdU m.pkt.payload 0 8) = 0)
    (hgood : d.mem.badIn 0 (bitsOf (rdU m.pkt.payload 0 8) 22 0) m.pkt.xtag = none) :
    d.takeBulkRead m host = d.send (d.packetTo 15 m.pkt.src 0 m.pkt.xaux
      (fitBytes ((m.pkt.xtag + 7) / 8 * 8) (d.mem.sram.readN (bitsOf (rdU m.pkt.payload 0 8) 22 0) m.pkt.xtag))) := by
  have hshort : ¬ 512 < m.pkt.xtag := Nat.not_lt.2 hlen
  have hhere : ¬ dmaRegion (rdU m.pkt.payload 0 8) = 2 := by omega
  simp only [MDie.takeBulkRead, hshort, hok, hgood, hhere, Bool.not_true, Bool.false_eq_true, Option.isSome_none, and_false, or_false, if_false]

section Tag

variable {n : Nat} {c : Dmac} (hc : d.dmaOfTag m.pkt.xaux = some (n, c))

include hc

theorem MDie.takeBulkAck_of_more (hacks : 2 ≤ c.acks) : d.takeBulkAck m = d.setDmac n { c with acks := c.acks - 1 } := by
  have howed : ¬ c.acks = 0 := by omega
  have hmore : ¬ (c.acks - 1 = 0 ∧ c.phase = .finish) := fun h => by omega
  simp only [MDie.takeBulkAck, hc, if_neg howed, if_neg hmore]

theorem MDie.takeBulkAck_of_last (hacks : c.acks = 1) (hphase : c.phase = .finish) :
    d.takeBulkAck m = (d.setDmac n { c with acks := 0 }).dmaComplete n := by
  simp only [MDie.takeBulkAck, hc, hacks, hphase, Nat.one_ne_zero, Nat.sub_self, and_self, if_false, if_true]

theorem MDie.takeBulkData_of_fetch {a : Nat} (hphase : c.phase = .fetch a) :
    d.takeBulkData m = d.setDmac n { c with inData := c.inData ++ m.pkt.payload } := by
  simp only [MDie.takeBulkData, hc, hphase]

end Tag

end Bulk

/-- A `BULK_READ` for this node that arrives at an UP port (R465). -/
theorem onDie_bulkReadIn_of_forHere {s : State} {k : Nat} {p : FabPkt} (host : List Byte) (hrun : s.md.boot.inReset = false)
    (h : s.md.ForHere k p) :
    onDie s (fun d => d.bulkReadIn k ⟨14, p⟩ host) = .next (s.after (s.md.start.takeBulkRead ⟨14, p⟩ host)) := by
  obtain ⟨hup, hhops, hdst, hnode⟩ := h
  have hup' : s.md.start.portUp k = true := hup
  have hhere : s.md.start.fab.node ≠ 0xFFFF ∧ p.dst = s.md.start.fab.node := ⟨hnode, hdst⟩
  have harrived : s.md.start.arrived k ⟨14, p⟩ host = s.md.start.packetHere ⟨14, p⟩ host := by
    simp only [MDie.arrived, Nat.reduceEqDiff, if_false, if_neg hhops, false_and, if_pos hhere]
  rw [onDie_of_running s _ hrun, MDie.bulkReadIn, if_pos hup', harrived]
  rfl

/-! An SRAM store keeps the channels (R242, R504). -/

/-- When a channel's first timestamped frame left, and the running time. -/
def MDie.sentAndUp (d : MDie) (n : Nat) : Option Nat × Nat := (d.dmaSent n, d.upNs)

theorem MDie.modObj_upNs (d : MDie) (k : Nat) (f : Obj → Obj) : (d.modObj k f).upNs = d.upNs := by
  unfold MDie.modObj MDie.setObj
  split
  · split <;> rfl
  · rfl

/-- A count of an object is none of a channel's data. -/
theorem MDie.bump_sentAndUp (d : MDie) (n k id ix j : Nat) : (d.bump k id ix j).sentAndUp n = d.sentAndUp n := by
  refine Prod.ext ?_ (d.modObj_upNs k _)
  change (d.bump k id ix j).dmaSent n = d.dmaSent n
  cases ho : d.obj? k with
  | none => simp only [MDie.bump, MDie.modObj, ho]
  | some o =>
    simp only [MDie.dmaSent, MDie.dmac?, MDie.bump, MDie.modObj_obj? d k n _ o ho]
    by_cases hn : k = n
    · subst hn
      simp only [if_true, ho]
      cases o.data <;> rfl
    · simp only [if_neg hn]

theorem MDie.camRejects_sentAndUp (d : MDie) (n a len : Nat) : (d.camRejects a len).sentAndUp n = d.sentAndUp n := by
  refine List.foldlRecOn (motive := fun e => e.sentAndUp n = d.sentAndUp n) d.objects _ rfl fun (e : MDie) he x _ => ?_
  split
  · split
    · exact (e.bump_sentAndUp n _ _ _ _).trans he
    · exact he
  · exact he

theorem MDie.sramStore_sentAndUp (d : MDie) (n a : Nat) (b : List Byte) : (d.sramStore a b).sentAndUp n = d.sentAndUp n := by
  unfold MDie.sramStore
  extract_lets locked
  split
  · rfl
  · refine List.foldlRecOn (motive := fun e => e.sentAndUp n = d.sentAndUp n) _ _ (d.camRejects_sentAndUp n a b.length) fun (e : MDie) he x _ => ?_
    split
    · exact he
    · exact he

/-! The channel's rows (R502, R506, R508, R510, R512, R513). -/

section Channel

variable {d : MDie} {n : Nat} {o : Obj} {c : Dmac} (hc : d.dmac? n = some (o, c))

theorem MDie.bulkTarget_of_sram (d : MDie) {a : Nat} (h : dmaRegion a = 0) : d.bulkTarget a = none := by
  simp only [MDie.bulkTarget, h, OfNat.zero_ne_ofNat, false_and, if_false]

theorem MDie.dmaAwaits_of_sram (d : MDie) (c : Dmac) {a : Nat} (len : Nat) (h : dmaRegion a = 0) : d.dmaAwaits c a len = false := by
  rw [MDie.dmaAwaits, d.bulkTarget_of_sram h]
  rfl

include hc

theorem MDie.dmaPulse_of_on (hlife : o.life = .enabled)
    (hsrc : o.params.u Par.dmacReqSrc = 1 ∨ o.params.u Par.dmacReqSrc = 2 ∨ o.params.u Par.dmacReqSrc = 5) :
    d.dmaPulse n =
      let r := c.pulse d.tick
      let e := (d.setDmac n r.1).postAll n r.2.1
      if r.2.2 then e.orPar n Par.dmacFlags 1 else e := by
  simp only [MDie.dmaPulse, hc]
  exact if_pos ⟨hlife, hsrc⟩

theorem MDie.dmaPulse_of_off (hlife : o.life ≠ .enabled) : d.dmaPulse n = d := by
  simp only [MDie.dmaPulse, hc]
  exact if_neg fun h => hlife h.1

section Fetch

variable {a : Nat} (hphase : c.phase = .fetch a) (hsram : dmaRegion a = 0) (hgood : d.mem.badIn 0 (bitsOf a 22 0) 48 = none)

include hphase hsram hgood

/-- A descriptor from the SRAM is read there. -/
theorem MDie.dmaFetchEnd_of_sram (host : List Byte) {c' : Dmac} {r : FetchEnd}
    (hr : c.fetched o.params (d.mem.sram.readN (bitsOf a 22 0) 48) d.tick = (c', r)) :
    d.dmaFetchEnd n host = match (generalizing := false) r with
      | .waiting => (d.setDmac n c').post n (report Evt.chainWait d.tick (d64 c'.cur))
      | .fault e bit wb => (if wb then d.dmaWriteBack n c' 3 else d).dmaFault n bit c' e
      | .run => match c'.phase with
        | .finish => (d.setDmac n c').dmaComplete n
        | _ => d.setDmac n c' := by
  have hread : ¬ (dmaRegion a = 0 ∧ (d.mem.badIn 0 (bitsOf a 22 0) 48).isSome = true) := fun h => by simp [hgood] at h
  simp only [MDie.dmaFetchEnd, hc, hphase, d.dmaAwaits_of_sram c 48 hsram, if_neg hread, if_pos hsram, MDie.tick0, hr,
    Bool.false_eq_true, if_false] <;> rfl

end Fetch

theorem MDie.dmaBurstEnd_of_sram (host : List Byte) {len m : Nat} {x : Desc} (hphase : c.phase = .burst len) (hdesc : c.desc = some x)
    (hgood : d.dmaGood c x len = (m, none)) (hsrc : dmaRegion x.src = 0) (hsinc : x.srcInc = true) (hdinc : x.dstInc = true)
    (hfence : x.fence = false) (habort : c.abort = none) (hdst : dmaRegion (dmaAddr x.dst true x.dstW c.moved) = 0) :
    d.dmaBurstEnd n host =
      ((d.sramStore (bitsOf (dmaAddr x.dst true x.dstW c.moved) 22 0)
        (d.mem.sram.readN (bitsOf (dmaAddr x.src true x.srcW c.moved) 22 0) m)).setDmac n
        { c.burstDone m with acks := c.acks, sentAt := c.sentAt, since := d.upNs }).dmaFree n := by
  have hdata : d.dmaData c x m host = (d, d.mem.sram.readN (bitsOf (dmaAddr x.src true x.srcW c.moved) 22 0) m) := by
    simp [MDie.dmaData, hsrc, hsinc]
  have hput (b : List Byte) : d.dmaPut n c.chan (dmaAddr x.dst true x.dstW c.moved) b x.fence x.tsReq =
      (d.sramStore (bitsOf (dmaAddr x.dst true x.dstW c.moved) 22 0) b, 0) := by
    simp [MDie.dmaPut, d.bulkTarget_of_sram hdst, hdst]
  generalize hb : d.mem.sram.readN (bitsOf (dmaAddr x.src true x.srcW c.moved) 22 0) m = b at hdata ⊢
  have hkeep := d.sramStore_sentAndUp n (bitsOf (dmaAddr x.dst true x.dstW c.moved) 22 0) b
  have hsent : (d.sramStore (bitsOf (dmaAddr x.dst true x.dstW c.moved) 22 0) b).dmaSent n = c.sentAt := by
    refine (congrArg Prod.fst hkeep).trans ?_
    change d.dmaSent n = c.sentAt
    simp only [MDie.dmaSent, hc]
  have hup : (d.sramStore (bitsOf (dmaAddr x.dst true x.dstW c.moved) 22 0) b).upNs = d.upNs := congrArg Prod.snd hkeep
  have habort' : (c.burstDone m).abort = none := habort
  have hnofence (e : MDie) (c' : Dmac) : e.dmaFenceRead n c' x = e := by
    simp [MDie.dmaFenceRead, hfence]
  simp only [MDie.dmaBurstEnd, hc, hphase, hdesc, hgood, d.dmaAwaits_of_sram c m hsrc, hdata, hdinc, hput, true_or, if_true,
    Bool.false_eq_true, if_false,
    hsent, hup, habort', hnofence, ite_self, Nat.add_zero]

theorem MDie.dmaComplete_of_done {x : Desc} (habort : c.abort = none) (hdesc : c.desc = some x) (hwb : x.wb = false) :
    d.dmaComplete n =
      let r := c.complete x d.tick
      let e := (d.setDmac n r.1).postAll n r.2
      match r.1.phase with
      | .fetch _ => e.dmaIssue n
      | _ => e := by
  have hnowb : d.dmaWbBad c = none := by simp [MDie.dmaWbBad, hdesc, hwb]
  have hback : d.dmaWriteBack n c 0 = d := by simp [MDie.dmaWriteBack, hdesc, hwb]
  simp only [MDie.dmaComplete, hc, habort, hdesc, hnowb, hback, MDie.tick0] <;> rfl

theorem MDie.dmaDescEnd_of_finish (hphase : c.phase = .finish) (hacks : c.acks = 0) : d.dmaDescEnd n = d.dmaComplete n := by
  simp only [MDie.dmaDescEnd, hc]
  exact if_pos ⟨hphase, hacks⟩

theorem MDie.dmaErrorAnswer_of_fetch {a : Nat} (cause : Nat) (hphase : c.phase = .fetch a) :
    d.dmaErrorAnswer n cause = d.dmaBusErr n a false 0 cause := by
  simp only [MDie.dmaErrorAnswer, hc, hphase]

theorem MDie.dmaErrorAnswer_of_idle (cause : Nat) (hphase : c.phase = .idle) : d.dmaErrorAnswer n cause = d := by
  simp only [MDie.dmaErrorAnswer, hc, hphase]

/-- A fetch from outside the die has its timeout at its own time. -/
theorem MDie.busTimeoutRow_of_fetch {a : Nat} {e : MDie} (hphase : c.phase = .fetch a) (hout : dmaRegion a ≠ 0)
    (hpass : d.passBoot (c.since + o.params.u Par.dmacBusTimeout * 1000) = some e) : d.busTimeoutRow n = e.dmaBusErr n a false 0 1 := by
  obtain ⟨⟨t, u, rfl⟩, hdue⟩ := MDie.sameBut_of_passBoot hpass
  have houtside (e : MDie) : e.dmaOutside c = true := by simp [MDie.dmaOutside, hphase, hout]
  have hc' : ({ d with time := t, upNs := u } : MDie).dmac? n = some (o, c) := hc
  simp only [MDie.busTimeoutRow, hc, houtside, if_true, MDie.whenUp_of_passBoot _ hpass, MDie.dmaTimeout, hc']
  rw [if_pos ⟨trivial, hdue⟩]
  exact MDie.dmaErrorAnswer_of_fetch hc' 1 hphase

end Channel

/-- Settles O56: the packet or the channel's phase decides which branch of the row runs; a burst keeps the channel's stamp since an SRAM store does. -/
theorem bulkAndDmaRows : Obligations.BulkAndDmaRows := by
  unfold Obligations.BulkAndDmaRows
  refine ⟨fun s k p host hrun hup hhops hdst hnode => ?packets, fun s n o c host hrun hc => ?channel⟩
  case packets =>
    have hhere : s.md.ForHere k p := ⟨hup, hhops, hdst, hnode⟩
    have hwrite : exec (.bulkWritePacket k p) s = .next (s.after (s.md.start.takeBulkWrite ⟨12, p⟩)) :=
      onDie_packetIn_of_forHere hrun hhere (by decide)
    have hack : exec (.bulkAckPacket k p) s = .next (s.after (s.md.start.takeBulkAck ⟨13, p⟩)) :=
      onDie_packetIn_of_forHere hrun hhere (by decide)
    have hread : exec (.bulkReadPacket k p host) s = .next (s.after (s.md.start.takeBulkRead ⟨14, p⟩ host)) :=
      onDie_bulkReadIn_of_forHere host hrun hhere
    have hdata : exec (.bulkDataPacket k p) s = .next (s.after (s.md.start.takeBulkData ⟨15, p⟩)) :=
      onDie_packetIn_of_forHere hrun hhere (by decide)
    refine ⟨?writeBad, ?writeSram, ?readBad, ?readSram, ?ackMore, ?ackLast, ?data⟩
    case writeBad =>
      intro hbad
      rw [hwrite, MDie.takeBulkWrite_of_bad (d := s.md.start) (m := ⟨12, p⟩) hbad]
    case writeSram =>
      intro hok hsram
      rw [hwrite, MDie.takeBulkWrite_of_sram (d := s.md.start) (m := ⟨12, p⟩) hok hsram]
    case readBad =>
      intro hbad
      rw [hread, MDie.takeBulkRead_of_bad (d := s.md.start) (m := ⟨14, p⟩) host hbad]
    case readSram =>
      intro hlen hok hsram hgood
      rw [hread, MDie.takeBulkRead_of_sram (d := s.md.start) (m := ⟨14, p⟩) host hlen hok hsram hgood]
      rfl
    case ackMore =>
      intro n c hc hacks
      rw [hack, MDie.takeBulkAck_of_more (d := s.md.start) (m := ⟨13, p⟩) hc hacks]
    case ackLast =>
      intro n c hc hacks hphase
      rw [hack, MDie.takeBulkAck_of_last (d := s.md.start) (m := ⟨13, p⟩) hc hacks hphase]
    case data =>
      intro n c x hc hphase
      rw [hdata, MDie.takeBulkData_of_fetch (d := s.md.start) (m := ⟨15, p⟩) hc hphase]
  case channel =>
    have hc' : s.md.start.dmac? n = some (o, c) := hc
    have hrow (f : MDie → MDie) : onDie s f = .next (s.after (f s.md.start)) := onDie_of_running s f hrun
    have hfetch : exec (.descFetchComplete n host) s = .next (s.after (s.md.start.dmaFetchEnd n host)) := hrow _
    refine ⟨?pulse, ?pulseOff, ?waiting, ?ready, ?burst, ?finish, ?timeout, ?error, ?idle⟩
    case pulse =>
      intro hlife hsrc
      exact (hrow _).trans (congrArg _ (congrArg _ (MDie.dmaPulse_of_on hc' hlife hsrc)))
    case pulseOff =>
      intro hlife
      exact (hrow _).trans (congrArg _ (congrArg _ (MDie.dmaPulse_of_off hc' hlife)))
    case waiting =>
      intro a hphase hsram hgood r hwait
      have hr : c.fetched o.params (s.md.start.mem.sram.readN (bitsOf a 22 0) 48) s.md.start.tick = (r.1, .waiting) := Prod.ext rfl hwait
      rw [hfetch, MDie.dmaFetchEnd_of_sram hc' hphase hsram hgood host hr]
      rfl
    case ready =>
      intro a hphase hsram hgood r hgoes hready
      have hr : c.fetched o.params (s.md.start.mem.sram.readN (bitsOf a 22 0) 48) s.md.start.tick = (r.1, .run) := Prod.ext rfl hgoes
      rw [hfetch, MDie.dmaFetchEnd_of_sram hc' hphase hsram hgood host hr, hready]
    case burst =>
      intro len x m hphase hdesc hgood hsrc hsinc hdinc hfence habort src dst hdst d
      exact (hrow _).trans (congrArg _ (congrArg _ (MDie.dmaBurstEnd_of_sram hc' host hphase hdesc hgood hsrc hsinc hdinc hfence habort hdst)))
    case finish =>
      intro x hphase hacks habort hdesc hwb
      refine (hrow _).trans (congrArg _ (congrArg _ ?_))
      exact (MDie.dmaDescEnd_of_finish hc' hphase hacks).trans (MDie.dmaComplete_of_done hc' habort hdesc hwb)
    case timeout =>
      intro a d hphase hout hpass
      exact (hrow _).trans (congrArg _ (congrArg _ (MDie.busTimeoutRow_of_fetch hc' hphase hout hpass)))
    case error =>
      intro a hphase
      exact (hrow _).trans (congrArg _ (congrArg _ (MDie.dmaErrorAnswer_of_fetch hc' 2 hphase)))
    case idle =>
      intro hphase
      exact (hrow _).trans (congrArg _ (congrArg _ (MDie.dmaErrorAnswer_of_idle hc' 2 hphase)))

end Sys2Proof.Machine
end

section
/-! PROOFS. Frames, bus states and frame windows of the CAN FD controllers (chapter 18). -/

namespace Sys2Proof.Machine

open Sys2Proof

/-- A new state of a controller, with its events, leaves the tick that has begun. -/
@[simp] theorem MDie.setCanc_tick0 (d : MDie) (n : Nat) (c : Canc) : (d.setCanc n c).tick0 = d.tick := by
  change (d.modObj n _).tick = d.tick
  unfold MDie.modObj MDie.setObj
  split
  · split <;> rfl
  · rfl

@[simp] theorem MDie.setCanc_postAll_tick0 (d : MDie) (n : Nat) (c : Canc) (es : List Ev) :
    ((d.setCanc n c).postAll n es).tick0 = d.tick := by
  obtain ⟨l, hl⟩ := (d.setCanc n c).postAll_eq n es
  rw [hl]
  exact d.setCanc_tick0 n c

/-- The record of a frame from the bus (R526). -/
def frameRec (cid dlc : Nat) (data : List Byte) (sof : Nat) : CanRec :=
  { cid := cid % 2 ^ 32, dlc := dlc % 64, rcnt := 0, tag := 0xFFFF, txf := 0, stampNs := sof % 1000000000
    data := fitBytes (dlcLen dlc) data }

/-- The controller that has counted a frame (R540). -/
def Canc.counted (c : Canc) : Canc := { c with rxCount := (c.rxCount + 1) % 2 ^ 32 }

/-- The mailbox of a controller that a filter names, where it is ENABLED (R532). -/
def isBox (n mbox : Nat) (y : Nat × Obj) : Bool :=
  match y.2.data with
  | .canmb m => y.2.life == .enabled && m.ctrl + 10 == n && m.index == mbox
  | _ => false

section Controller

variable {d : MDie} {n : Nat} {o : Obj} {c : Canc} (hc : d.canc? n = some (o, c))

include hc

/-! Frames received (R521, R526, R527, R530, R533). -/

theorem MDie.canFrame_of_off {cid dlc sof tec rxc : Nat} {data : List Byte} (hoff : o.canOn c = false) :
    d.canFrame n cid dlc data sof tec rxc = d := by
  simp only [MDie.canFrame, hc, hoff, Bool.not_false, Bool.true_or, if_true]

theorem MDie.canFrame_of_on {cid dlc : Nat} (sof tec rxc : Nat) (data : List Byte) (hon : o.canOn c = true)
    (hfd : (bitOf dlc 4 && o.params.u Par.cancFdEn == 0) = false) :
    d.canFrame n cid dlc data sof tec rxc = (d.canAccept n cid dlc data sof).canCounters n tec rxc c.lec d.tick := by
  simp only [MDie.canFrame, hc, hon, hfd, Bool.not_true, Bool.or_self, Bool.false_eq_true, if_false]
  rfl

section Accept

variable {cid dlc sof act mbox tag : Nat} {data : List Byte} (hroute : c.route o.params (frameRec cid dlc data sof) = (act, mbox, tag))

include hroute

theorem MDie.canAccept_of_reject (hact : act = 0) : d.canAccept n cid dlc data sof = d.setCanc n c.counted := by
  unfold frameRec at hroute
  simp only [MDie.canAccept, hc, hroute, hact, OfNat.zero_ne_ofNat, if_false]
  rfl

theorem MDie.canAccept_of_fifo (hact : act = 1 ∨ act = 2) :
    d.canAccept n cid dlc data sof =
      let y := c.counted.push o.params (act - 1) { frameRec cid dlc data sof with tag := tag } d.tick
      let e := ((d.setCanc n c.counted).setCanc n y.1).postAll n y.2.1
      if y.2.2 then e.orPar n Par.cancFlags 1 else e := by
  unfold frameRec at hroute
  simp only [MDie.canAccept, hc, hroute, if_pos hact, MDie.setCanc_tick0]
  rfl

theorem MDie.canAccept_of_mailbox (hact : act = 3) :
    d.canAccept n cid dlc data sof =
      let e := d.setCanc n c.counted
      match e.objects.find? (isBox n mbox) with
      | some (k, y) => match y.data with
        | .canmb m => e.setData k (.canmb { m with staged := m.staged ++ [({ frameRec cid dlc data sof with tag := tag }, sof)] })
        | _ => e
      | none => e.bump n Par.cancMbMiss 0 1 := by
  have hfifo : ¬ (act = 1 ∨ act = 2) := by omega
  unfold frameRec at hroute
  simp only [MDie.canAccept, hc, hroute, if_neg hfifo, if_pos hact]
  rfl

theorem MDie.canAccept_of_noBox (hact : act = 3) (hbox : (d.setCanc n c.counted).objects.find? (isBox n mbox) = none) :
    d.canAccept n cid dlc data sof = (d.setCanc n c.counted).bump n Par.cancMbMiss 0 1 := by
  simp only [MDie.canAccept_of_mailbox hc hroute hact, hbox]

theorem MDie.canAccept_of_box {k : Nat} {y : Obj} {m : Canmb} (hact : act = 3)
    (hbox : (d.setCanc n c.counted).objects.find? (isBox n mbox) = some (k, y)) (hm : y.data = .canmb m) :
    d.canAccept n cid dlc data sof = (d.setCanc n c.counted).setData k
      (.canmb { m with staged := m.staged ++ [({ frameRec cid dlc data sof with tag := tag }, sof)] }) := by
  simp only [MDie.canAccept_of_mailbox hc hroute hact, hbox, hm]

end Accept

/-! Frames sent, and errors (R524, R536, R537). -/

section Attempt

variable {i sof : Nat} {b : TxBuf} (hseen : c.seen o sof = some i) (hbuf : c.bufs[i]? = some (some b))

include hseen

theorem MDie.canFailed_of_seen (lec tec rxc : Nat) :
    d.canFailed n sof lec tec rxc =
      let r := c.failed o.params i d.tick (o.life == .draining)
      (((d.setCanc n r.1).postAll n r.2).canCounters n tec rxc (if lec = 0 then c.lec else lec) d.tick).cancSettle n d.tick := by
  simp only [MDie.canFailed, hc, hseen, MDie.setCanc_postAll_tick0]
  rfl

include hbuf

/-- Without a measured delay, and not in a loopback mode, a frame sent only completes its buffer. -/
theorem MDie.canSent_of_normal (tec rxc : Nat) (hmode : o.params.u Par.cancMode = 0) :
    d.canSent n sof none tec rxc =
      let r := c.sent i sof none
      (((d.setCanc n r.1).postAll n r.2).canCounters n tec rxc c.lec d.tick).cancSettle n d.tick := by
  have hnoloop : ¬ 2 ≤ o.params.u Par.cancMode := by omega
  simp only [MDie.canSent, hc, hseen, hbuf, Option.getD_some, ite_self, Option.any_none, Bool.false_eq_true, if_false, if_neg hnoloop,
    MDie.setCanc_postAll_tick0]

end Attempt

theorem MDie.canError_of_on (lec tec rxc : Nat) (hon : o.canOn c = true) :
    d.canError n lec tec rxc = d.canCounters n tec rxc lec d.tick := by
  simp only [MDie.canError, hc, hon, Bool.true_or, if_true]
  rfl

theorem MDie.canError_of_off {lec tec rxc : Nat} (hoff : o.canOn c = false) (hlife : o.life ≠ .enabled) : d.canError n lec tec rxc = d := by
  have hidle : (o.life == .enabled) = false := beq_false_of_ne hlife
  simp only [MDie.canError, hc, hoff, hidle, Bool.false_and, Bool.or_self, Bool.false_eq_true, if_false]

/-! Bus states (R524, R525). -/

theorem MDie.canBusOff_of_auto (lec : Nat) (hon : o.canOn c = true) (hlife : o.life = .enabled) (hmode : o.params.u Par.cancBusoffMode = 1) :
    d.canBusOff n lec = (d.setCanc n (c.busOff (min lec 6) d.tick).1).post n (c.busOff (min lec 6) d.tick).2 := by
  have hauto : o.life = .enabled ∧ o.params.u Par.cancBusoffMode = 1 := ⟨hlife, hmode⟩
  simp only [MDie.canBusOff, hc, hon, Bool.not_true, Bool.false_eq_true, if_false, if_pos hauto]
  rfl

theorem MDie.canBusOff_of_off {lec : Nat} (hoff : o.canOn c = false) : d.canBusOff n lec = d := by
  simp only [MDie.canBusOff, hc, hoff, Bool.not_false, if_true]

theorem MDie.canRecovered_of_busOff (hlife : o.life = .enabled) (hst : c.st = 2) :
    d.canRecovered n = (d.setCanc n (c.recovered d.tick).1).post n (c.recovered d.tick).2 := by
  simp only [MDie.canRecovered, hc]
  exact if_pos ⟨hlife, hst⟩

theorem MDie.canIntegrated_of_enabled (hlife : o.life = .enabled) :
    d.canIntegrated n = (d.setCanc n (c.integrated d.tick).1).postAll n (c.integrated d.tick).2 := by
  simp only [MDie.canIntegrated, hc]
  exact if_pos (.inl hlife)

end Controller

/-! The frame windows (R531). -/

section Window

variable {d : MDie} {k : Nat} {o : Obj} {c : Canc} (hc : d.canc? (cancSlot k) = some (o, c))

include hc

theorem MDie.canReadBeat_of_controller :
    (d.canReadBeat k).1 =
      if c.readBeat.2.2 then (d.setCanc (cancSlot k) c.readBeat.1).orPar (cancSlot k) Par.cancFlags 2 else d.setCanc (cancSlot k) c.readBeat.1 := by
  simp only [MDie.canReadBeat, hc]

/-- A beat that does not make its record whole is kept. -/
theorem MDie.canWriteBeat_of_part {b : List Byte} (h : (c.writeBeat (fitBytes 8 b)).2 = none) :
    d.canWriteBeat k b = d.setCanc (cancSlot k) (c.writeBeat (fitBytes 8 b)).1 := by
  have hpart : c.writeBeat (fitBytes 8 b) = ((c.writeBeat (fitBytes 8 b)).1, none) := Prod.ext rfl h
  rw [hpart]
  simp only [MDie.canWriteBeat, hc]
  rw [hpart]

/-- A whole record that passes the checks is submitted, or lost with its flag where no buffer is free. -/
theorem MDie.canWriteBeat_of_whole {b r : List Byte} {y : Canc} (h : c.writeBeat (fitBytes 8 b) = (y, some r)) (hlife : o.life = .enabled)
    (hcheck : canTxCheck o.params r = none) :
    d.canWriteBeat k b = match y.submit (CanRec.decode r) d.ns none with
      | some (z, _) => d.setCanc (cancSlot k) z
      | none => (d.setCanc (cancSlot k) y).orPar (cancSlot k) Par.cancFlags 4 := by
  have hok : o.life = .enabled ∧ canTxCheck o.params r = none := ⟨hlife, hcheck⟩
  simp only [MDie.canWriteBeat, hc, h, if_pos hok] <;> rfl

end Window

/-- Settles O57: the state of the controller, and of the mailbox, buffer or window named, decides which branch of the row runs. -/
theorem canRows : Obligations.CanRows := by
  unfold Obligations.CanRows
  refine ⟨?bus, ?states⟩
  case bus =>
    intro s ctrl o c sof tec rxc lec hrun hc n t
    have hc' : s.md.start.canc? (cancSlot ctrl) = some (o, c) := hc
    have hrow (f : MDie → MDie) : onDie s f = .next (s.after (f s.md.start)) := onDie_of_running s f hrun
    refine ⟨?frames, fun i b hseen hbuf => ?attempts, ?errorOn, ?errorOff⟩
    case frames =>
      intro cid dlc data r0 x c' fd
      have hframe : exec (.canFrameReceived ctrl cid dlc data sof tec rxc) s =
          .next (s.after (s.md.start.canFrame n cid dlc data sof tec rxc)) := hrow _
      have hroute : c.route o.params (frameRec cid dlc data sof) = (x.1, x.2.1, x.2.2) := rfl
      have htaken (hon : o.canOn c = true) (hfd : fd = false) {e : MDie} (he : s.md.start.canAccept n cid dlc data sof = e) :
          exec (.canFrameReceived ctrl cid dlc data sof tec rxc) s = .next (s.after (e.canCounters n tec rxc c.lec t)) := by
        rw [hframe, MDie.canFrame_of_on hc' sof tec rxc data hon hfd, he]
        rfl
      refine ⟨?off, ?reject, ?fifo, ?mailbox⟩
      case off =>
        intro hoff
        rw [hframe, MDie.canFrame_of_off hc' hoff]
      case reject =>
        intro hon hfd hact
        exact htaken hon hfd (MDie.canAccept_of_reject hc' hroute hact)
      case fifo =>
        intro hon hfd hact
        exact htaken hon hfd (MDie.canAccept_of_fifo hc' hroute hact)
      case mailbox =>
        intro hon hfd hact box
        refine ⟨fun hbox => ?noBox, fun k y m hbox hm => ?box⟩
        case noBox => exact htaken hon hfd (MDie.canAccept_of_noBox hc' hroute hact hbox)
        case box => exact htaken hon hfd (MDie.canAccept_of_box hc' hroute hact hbox hm)
    case attempts =>
      refine ⟨fun hmode => ?sent, ?failed⟩
      case sent => exact (hrow _).trans (congrArg _ (congrArg _ (MDie.canSent_of_normal hc' hseen hbuf tec rxc hmode)))
      case failed => exact (hrow _).trans (congrArg _ (congrArg _ (MDie.canFailed_of_seen hc' hseen lec tec rxc)))
    case errorOn =>
      intro hon
      exact (hrow _).trans (congrArg _ (congrArg _ (MDie.canError_of_on hc' lec tec rxc hon)))
    case errorOff =>
      intro hoff hlife
      exact (hrow _).trans (congrArg _ (congrArg _ (MDie.canError_of_off hc' hoff hlife)))
  case states =>
    intro s ctrl o c hrun hc n t
    have hc' : s.md.start.canc? (cancSlot ctrl) = some (o, c) := hc
    have hrow {f : MDie → MDie} {e : MDie} (he : f s.md.start = e) : onDie s f = .next (s.after e) := by
      rw [onDie_of_running s f hrun, he]
    refine ⟨?busOff, ?busOffOff, ?recovered, ?integrated, ?read, ?part, ?whole⟩
    case busOff =>
      intro lec hon hlife hmode
      exact hrow (MDie.canBusOff_of_auto hc' lec hon hlife hmode)
    case busOffOff =>
      intro lec hoff
      exact hrow (MDie.canBusOff_of_off hc' hoff)
    case recovered =>
      intro hlife hst
      exact hrow (MDie.canRecovered_of_busOff hc' hlife hst)
    case integrated =>
      intro hlife
      exact hrow (MDie.canIntegrated_of_enabled hc' hlife)
    case read => exact hrow (MDie.canReadBeat_of_controller hc')
    case part =>
      intro b hpart
      exact hrow (MDie.canWriteBeat_of_part hc' hpart)
    case whole =>
      intro b r y i hwhole hlife hcheck
      have hbeat := MDie.canWriteBeat_of_whole hc' hwhole hlife hcheck
      refine ⟨fun z hsubmit => hrow ?submitted, fun hfull => hrow ?lost⟩
      case submitted =>
        have htaken : y.submit (CanRec.decode r) s.md.start.ns none = some (z, i) := hsubmit
        rw [hbeat, htaken]
      case lost =>
        have hlost : y.submit (CanRec.decode r) s.md.start.ns none = none := hfull
        rw [hbeat, hlost]

end Sys2Proof.Machine
end
